-- ==== Sys2Proof/Word.lean ====
section
/-! DEFINITION. Words, sparse tables and the plainest arithmetic of the model. -/

namespace Sys2Proof

/-- 8 bits (R5). -/
abbrev Byte := BitVec 8
/-- 32 bits (R5). -/
abbrev W32 := BitVec 32
/-- 64 bits, a doubleword (R5). -/
abbrev W64 := BitVec 64
/-- 64 bytes: a vector register, a token, a kick record. -/
abbrev V512 := BitVec 512

/-- A table keyed by a number: a list of pairs, keys rising, holding no entry
equal to the default value of its users. -/
abbrev Tab (α : Type) := List (Nat × α)

namespace Tab

/-- The value at a key, or the default. -/
def get {α : Type} (d : α) : Tab α → Nat → α
  | [], _ => d
  | (k, v) :: t, i => if k = i then v else get d t i

/-- The value at a key, if listed. -/
def find {α : Type} : Tab α → Nat → Option α
  | [], _ => none
  | (k, v) :: t, i => if k = i then some v else find t i

/-- The table without a key. -/
def erase {α : Type} (t : Tab α) (i : Nat) : Tab α := t.filter (fun e => e.1 ≠ i)

/-- Puts an entry before the first larger key. -/
def insert {α : Type} (i : Nat) (v : α) : Tab α → Tab α
  | [] => [(i, v)]
  | (k, w) :: t => if i < k then (i, v) :: (k, w) :: t else (k, w) :: insert i v t

/-- Sets a key, with no default to leave out. -/
def set {α : Type} (t : Tab α) (i : Nat) (v : α) : Tab α := insert i v (erase t i)

/-- Sets a key; writing the default removes the entry. -/
def put {α : Type} [DecidableEq α] (d : α) (t : Tab α) (i : Nat) (v : α) : Tab α :=
  if v = d then erase t i else insert i v (erase t i)

/-- Changes the value at a listed key. -/
def modify {α : Type} (t : Tab α) (i : Nat) (f : α → α) : Tab α :=
  t.map (fun e => if e.1 = i then (e.1, f e.2) else e)

/-- The values, in key order. -/
def vals {α : Type} (t : Tab α) : List α := t.map (·.2)

/-- The keys rise strictly. -/
def rising {α : Type} : Tab α → Bool
  | [] => true
  | [_] => true
  | (i, _) :: (j, w) :: t => decide (i < j) && rising ((j, w) :: t)

end Tab

/-- Bits `hi` down to `lo` of a number (R4). -/
def bitsOf (x hi lo : Nat) : Nat := (x >>> lo) % 2 ^ (hi + 1 - lo)

/-- Bits `hi` down to `lo` of a doubleword, as a number (R4). -/
def fld (x : W64) (hi lo : Nat) : Nat := bitsOf x.toNat hi lo

/-- Places a number in bits `hi` down to `lo` (R4). -/
def inFld (v hi lo : Nat) : Nat := (v % 2 ^ (hi + 1 - lo)) <<< lo

/-- Two's-complement reading of the low `n` bits of a number (R329 `sext`, exact). -/
def sgn (n x : Nat) : Int :=
  let y := x % 2 ^ n
  if 2 ^ n ≤ 2 * y then (y : Int) - 2 ^ n else y

/-- The low `n` bits of an exact integer (R329, a slice of a computed value). -/
def wrapN (n : Nat) (v : Int) : Nat := (v % (2 ^ n : Int)).toNat

/-- A saturating counter (R56, R64, R145). -/
def satAdd (cap a b : Nat) : Nat := min cap (a + b)

end Sys2Proof
end

