-- ==== Sys2Proof/Syntax.lean ====
section
/-! DEFINITION. The instructions of the Fewin and the events of its table, one constructor for each row
of spec/opcode_table.json. A control word carries the fields of its encoding (R309 to R314). An event row
has no encoding: its arguments say where it happens and what arrives from outside the part. -/

namespace Sys2Proof

/-- Who makes a register access (R59, R60, R65, R66, R87). `pf` and `vf` are the physical and the virtual
functions of a host link, `secure` is secure-world firmware, `actor` an actor's load or store through the
register window with its world, `peer` a peer's request. -/
inductive Who
  | pf (link : Nat)
  | vf (link fn : Nat)
  | secure
  | actor (world : Bool)
  | peer (q : Nat)
  deriving DecidableEq, Repr

/-- One register write of 4 or 8 bytes (R59). -/
structure RegReq where
  who : Who
  off : Nat
  size : Nat
  data : W64
  deriving DecidableEq, Repr

/-- A UALink port, 0 to 47, or a host link, 0 to 3 (R14). -/
inductive LinkId
  | ual (n : Nat)
  | host (n : Nat)
  deriving DecidableEq, Repr

/-- The atomics of R410. -/
inductive AtomOp
  | add | and | or | xor | min | max | minu | maxu | swap | cas
  deriving DecidableEq, Repr

/-- The tile memories of R296, in the order that numbers them in AADDR (R299), with where the error lies. -/
structure ErrSite where
  mem : Nat
  aid : Nat
  off : Nat
  deriving DecidableEq, Repr

/-- An uncorrectable error: where it is, and whether an access of the firing in progress has found it (R156, R296). -/
structure FoundErr where
  site : ErrSite
  read : Bool
  deriving DecidableEq, Repr

/-- What the assay of every tile finds (R62, R140, R300): the blocks with lasting faults, the age of the part in hours, and the
DRIFT that each tile's measurement gives. -/
structure Assays where
  lasting : List Nat
  age : Nat
  drifts : List (Nat × Nat)
  deriving DecidableEq, Repr

/-- What one turn reads of a job record (R72): the doublewords of a ring in local memory, or the bytes of any other. -/
structure RecordRead where
  dws : List Nat
  ext : List (Byte × Bool)
  deriving DecidableEq, Repr

/-- A node that saves its state (R171), its granules that are found uncorrectable then (R305), and the flit of the last quench marker
to come where that is not intact (R167). -/
structure NodeSave where
  node : Nat
  found : List ErrSite
  flit : Option (BitVec 64 × BitVec 512) := none
  deriving DecidableEq, Repr

/-- Energy of a block in µJ, drawn for a firing or while none runs (R135). -/
structure Energy where
  uj : Nat
  idle : Bool
  deriving DecidableEq, Repr

/-- A flit on arrival (R161, R167): how many tokens or nulls it carries, and its side information where that is not intact. -/
structure Flit where
  n : Nat
  side : Option W64
  deriving DecidableEq, Repr

/-- A marker on arrival (R167): the channel, tile, port or place in a queue that it concerns, and its flit's side information and
payload where they are not those of an intact marker. -/
structure MarkFlit where
  n : Nat
  flit : Option (BitVec 64 × BitVec 512)
  deriving DecidableEq, Repr

/-- A read of the register space (R48, R59): `size` bytes from an offset. -/
structure PortRead where
  off : Nat
  size : Nat
  deriving DecidableEq, Repr

/-- The granules of a tag's block that are performed in one turn (R46, R209). -/
structure TagPart where
  tag : Nat
  gs : List Nat
  deriving DecidableEq, Repr

/-- How a host completes a request (R219, R303). -/
inductive HostStatus
  | ok | unsupported | abort | poison
  deriving DecidableEq, Repr

/-- The instructions and events, one for each row of the table. -/
inductive Instr
  /-- ADD (R334): Adds two scalar registers modulo 2^64. -/
  | add (d : BitVec 5) (a : BitVec 5) (b : BitVec 5)
  /-- SUB (R334): Subtracts two scalar registers modulo 2^64. -/
  | sub (d : BitVec 5) (a : BitVec 5) (b : BitVec 5)
  /-- AND (R334): Bitwise AND of two scalar registers. -/
  | and (d : BitVec 5) (a : BitVec 5) (b : BitVec 5)
  /-- OR (R334): Bitwise OR of two scalar registers. -/
  | or (d : BitVec 5) (a : BitVec 5) (b : BitVec 5)
  /-- XOR (R334): Bitwise XOR of two scalar registers. -/
  | xor (d : BitVec 5) (a : BitVec 5) (b : BitVec 5)
  /-- SLL (R334): Shifts left by s[b][5:0]. -/
  | sll (d : BitVec 5) (a : BitVec 5) (b : BitVec 5)
  /-- SRL (R334): Logical shift right by s[b][5:0]. -/
  | srl (d : BitVec 5) (a : BitVec 5) (b : BitVec 5)
  /-- SRA (R334): Arithmetic shift right by s[b][5:0]. -/
  | sra (d : BitVec 5) (a : BitVec 5) (b : BitVec 5)
  /-- ROL (R334): Rotates left by s[b][5:0]. -/
  | rol (d : BitVec 5) (a : BitVec 5) (b : BitVec 5)
  /-- ROR (R334): Rotates right by s[b][5:0]. -/
  | ror (d : BitVec 5) (a : BitVec 5) (b : BitVec 5)
  /-- SLT (R334): Signed set-less-than. -/
  | slt (d : BitVec 5) (a : BitVec 5) (b : BitVec 5)
  /-- SLTU (R334): Unsigned set-less-than. -/
  | sltu (d : BitVec 5) (a : BitVec 5) (b : BitVec 5)
  /-- MIN (R334): Signed minimum. -/
  | min (d : BitVec 5) (a : BitVec 5) (b : BitVec 5)
  /-- MAX (R334): Signed maximum. -/
  | max (d : BitVec 5) (a : BitVec 5) (b : BitVec 5)
  /-- MINU (R334): Unsigned minimum. -/
  | minu (d : BitVec 5) (a : BitVec 5) (b : BitVec 5)
  /-- MAXU (R334): Unsigned maximum. -/
  | maxu (d : BitVec 5) (a : BitVec 5) (b : BitVec 5)
  /-- MUL (R334): Low 64 bits of the product. -/
  | mul (d : BitVec 5) (a : BitVec 5) (b : BitVec 5)
  /-- MULH (R334): High 64 bits of the signed product. -/
  | mulh (d : BitVec 5) (a : BitVec 5) (b : BitVec 5)
  /-- MULHU (R334): High 64 bits of the unsigned product. -/
  | mulhu (d : BitVec 5) (a : BitVec 5) (b : BitVec 5)
  /-- DIV (R335): Signed saturating division truncated toward zero. -/
  | div (d : BitVec 5) (a : BitVec 5) (b : BitVec 5)
  /-- DIVU (R335): Unsigned saturating division. -/
  | divu (d : BitVec 5) (a : BitVec 5) (b : BitVec 5)
  /-- REM (R335): Signed remainder, 0 for a zero divisor. -/
  | rem (d : BitVec 5) (a : BitVec 5) (b : BitVec 5)
  /-- REMU (R335): Unsigned remainder, 0 for a zero divisor. -/
  | remu (d : BitVec 5) (a : BitVec 5) (b : BitVec 5)
  /-- ANDN (R334): s[a] AND NOT s[b]. -/
  | andn (d : BitVec 5) (a : BitVec 5) (b : BitVec 5)
  /-- CLZ (R334): Counts leading zero bits. -/
  | clz (d : BitVec 5) (a : BitVec 5)
  /-- CTZ (R334): Counts trailing zero bits. -/
  | ctz (d : BitVec 5) (a : BitVec 5)
  /-- POPC (R334): Counts one bits. -/
  | popc (d : BitVec 5) (a : BitVec 5)
  /-- SEXTB (R334): Sign-extends the low byte. -/
  | sextb (d : BitVec 5) (a : BitVec 5)
  /-- SEXTH (R334): Sign-extends the low half. -/
  | sexth (d : BitVec 5) (a : BitVec 5)
  /-- SEXTW (R334): Sign-extends the low word. -/
  | sextw (d : BitVec 5) (a : BitVec 5)
  /-- ADDW (R334): 32-bit add, sign-extended. -/
  | addw (d : BitVec 5) (a : BitVec 5) (b : BitVec 5)
  /-- SUBW (R334): 32-bit subtract, sign-extended. -/
  | subw (d : BitVec 5) (a : BitVec 5) (b : BitVec 5)
  /-- ADDI (R336): Adds a sign-extended immediate. -/
  | addi (d : BitVec 5) (a : BitVec 5) (i : BitVec 16)
  /-- ANDI (R336): ANDs a zero-extended immediate. -/
  | andi (d : BitVec 5) (a : BitVec 5) (i : BitVec 16)
  /-- ORI (R336): ORs a zero-extended immediate. -/
  | ori (d : BitVec 5) (a : BitVec 5) (i : BitVec 16)
  /-- XORI (R336): XORs a zero-extended immediate. -/
  | xori (d : BitVec 5) (a : BitVec 5) (i : BitVec 16)
  /-- SLTI (R336): Signed compare with a sign-extended immediate. -/
  | slti (d : BitVec 5) (a : BitVec 5) (i : BitVec 16)
  /-- SLTIU (R336): Unsigned compare with a zero-extended immediate. -/
  | sltiu (d : BitVec 5) (a : BitVec 5) (i : BitVec 16)
  /-- LUI (R336): Writes sext(IMM · 2^16, 64). -/
  | lui (d : BitVec 5) (i : BitVec 16)
  /-- SLLI (R336): Shifts left by an immediate. -/
  | slli (d : BitVec 5) (a : BitVec 5) (n : BitVec 6)
  /-- SRLI (R336): Logical shift right by an immediate. -/
  | srli (d : BitVec 5) (a : BitVec 5) (n : BitVec 6)
  /-- SRAI (R336): Arithmetic shift right by an immediate. -/
  | srai (d : BitVec 5) (a : BitVec 5) (n : BitVec 6)
  /-- ROLI (R336): Rotates left by an immediate. -/
  | roli (d : BitVec 5) (a : BitVec 5) (n : BitVec 6)
  /-- BEQ (R338): Branches when equal. -/
  | beq (b : BitVec 5) (a : BitVec 5) (o : BitVec 16)
  /-- BNE (R338): Branches when not equal. -/
  | bne (b : BitVec 5) (a : BitVec 5) (o : BitVec 16)
  /-- BLT (R338): Branches when signed less. -/
  | blt (b : BitVec 5) (a : BitVec 5) (o : BitVec 16)
  /-- BGE (R338): Branches when signed greater or equal. -/
  | bge (b : BitVec 5) (a : BitVec 5) (o : BitVec 16)
  /-- BLTU (R338): Branches when unsigned less. -/
  | bltu (b : BitVec 5) (a : BitVec 5) (o : BitVec 16)
  /-- BGEU (R338): Branches when unsigned greater or equal. -/
  | bgeu (b : BitVec 5) (a : BitVec 5) (o : BitVec 16)
  /-- JAL (R339): Writes pc + 4 and jumps pc-relative. -/
  | jal (d : BitVec 5) (o : BitVec 21)
  /-- JALR (R339): Writes pc + 4 and jumps to s[a] + IMM. -/
  | jalr (d : BitVec 5) (a : BitVec 5) (i : BitVec 16)
  /-- NOP (R341): Does nothing. -/
  | nop
  /-- COMMIT (R155): Commits the firing through the steps of commit. -/
  | commit
  /-- YIELD (R159): Ends the firing as an empty firing. -/
  | yield
  /-- AEND (R159): Commits the firing and ends the actor. -/
  | aend
  /-- TRAP (R423): Raises SWTRAP with tval s[a]. -/
  | trap (a : BitVec 5)
  /-- LDEPTH (R423): Writes the launching job's depth. -/
  | ldepth (d : BitVec 5)
  /-- CSRR (R343): Reads a CSR. -/
  | csrr (d : BitVec 5) (c : BitVec 12)
  /-- CSRW (R343): Reads a CSR and writes s[a] into it. -/
  | csrw (d : BitVec 5) (a : BitVec 5) (c : BitVec 12)
  /-- CSRS (R343): Reads a CSR and sets the bits of s[a]. -/
  | csrs (d : BitVec 5) (a : BitVec 5) (c : BitVec 12)
  /-- CSRC (R343): Reads a CSR and clears the bits of s[a]. -/
  | csrc (d : BitVec 5) (a : BitVec 5) (c : BitVec 12)
  /-- LB (R346): Loads a sign-extended byte from handler RAM. -/
  | lb (d : BitVec 5) (a : BitVec 5) (o : BitVec 10) (k : BitVec 4)
  /-- LH (R346): Loads a sign-extended half from handler RAM. -/
  | lh (d : BitVec 5) (a : BitVec 5) (o : BitVec 10) (k : BitVec 4)
  /-- LW (R346): Loads a sign-extended word from handler RAM. -/
  | lw (d : BitVec 5) (a : BitVec 5) (o : BitVec 10) (k : BitVec 4)
  /-- LD (R346): Loads a doubleword from handler RAM. -/
  | ld (d : BitVec 5) (a : BitVec 5) (o : BitVec 10) (k : BitVec 4)
  /-- LBZ (R346): Loads a zero-extended byte from handler RAM. -/
  | lbz (d : BitVec 5) (a : BitVec 5) (o : BitVec 10) (k : BitVec 4)
  /-- LHZ (R346): Loads a zero-extended half from handler RAM. -/
  | lhz (d : BitVec 5) (a : BitVec 5) (o : BitVec 10) (k : BitVec 4)
  /-- LWZ (R346): Loads a zero-extended word from handler RAM. -/
  | lwz (d : BitVec 5) (a : BitVec 5) (o : BitVec 10) (k : BitVec 4)
  /-- SB (R349): Stores a byte to handler RAM. -/
  | sb (d : BitVec 5) (a : BitVec 5) (o : BitVec 10) (k : BitVec 4)
  /-- SH (R349): Stores a half to handler RAM. -/
  | sh (d : BitVec 5) (a : BitVec 5) (o : BitVec 10) (k : BitVec 4)
  /-- SW (R349): Stores a word to handler RAM. -/
  | sw (d : BitVec 5) (a : BitVec 5) (o : BitVec 10) (k : BitVec 4)
  /-- SD (R349): Stores a doubleword to handler RAM. -/
  | sd (d : BitVec 5) (a : BitVec 5) (o : BitVec 10) (k : BitVec 4)
  /-- LGB (R348): Loads a sign-extended global byte. -/
  | lgb (d : BitVec 5) (a : BitVec 5) (o : BitVec 10) (k : BitVec 4)
  /-- LGH (R348): Loads a sign-extended global half. -/
  | lgh (d : BitVec 5) (a : BitVec 5) (o : BitVec 10) (k : BitVec 4)
  /-- LGW (R348): Loads a sign-extended global word. -/
  | lgw (d : BitVec 5) (a : BitVec 5) (o : BitVec 10) (k : BitVec 4)
  /-- LGD (R348): Loads a global doubleword. -/
  | lgd (d : BitVec 5) (a : BitVec 5) (o : BitVec 10) (k : BitVec 4)
  /-- LGBZ (R348): Loads a zero-extended global byte. -/
  | lgbz (d : BitVec 5) (a : BitVec 5) (o : BitVec 10) (k : BitVec 4)
  /-- LGHZ (R348): Loads a zero-extended global half. -/
  | lghz (d : BitVec 5) (a : BitVec 5) (o : BitVec 10) (k : BitVec 4)
  /-- LGWZ (R348): Loads a zero-extended global word. -/
  | lgwz (d : BitVec 5) (a : BitVec 5) (o : BitVec 10) (k : BitVec 4)
  /-- SGB (R349): Stores a global byte, committed or posted by class. -/
  | sgb (d : BitVec 5) (a : BitVec 5) (o : BitVec 10) (k : BitVec 4)
  /-- SGH (R349): Stores a global half. -/
  | sgh (d : BitVec 5) (a : BitVec 5) (o : BitVec 10) (k : BitVec 4)
  /-- SGW (R349): Stores a global word. -/
  | sgw (d : BitVec 5) (a : BitVec 5) (o : BitVec 10) (k : BitVec 4)
  /-- SGD (R349): Stores a global doubleword. -/
  | sgd (d : BitVec 5) (a : BitVec 5) (o : BitVec 10) (k : BitVec 4)
  /-- VL (R346): Loads 64 bytes of handler RAM into a vector register. -/
  | vl (d : BitVec 5) (a : BitVec 5) (o : BitVec 10) (k : BitVec 4)
  /-- VS (R346): Stores a vector register to handler RAM. -/
  | vs (d : BitVec 5) (a : BitVec 5) (o : BitVec 10) (k : BitVec 4)
  /-- VLG (R346): Loads 64 global bytes into a vector register. -/
  | vlg (d : BitVec 5) (a : BitVec 5) (o : BitVec 10) (k : BitVec 4)
  /-- VSG (R346): Stores a vector register to global memory or a kick register. -/
  | vsg (d : BitVec 5) (a : BitVec 5) (o : BitVec 10) (k : BitVec 4)
  /-- RECV (R356): Reads the next inbound token into a scalar register. -/
  | recv (d : BitVec 5) (n : BitVec 6)
  /-- RECVV (R356): Reads the next inbound token into a vector register. -/
  | recvv (d : BitVec 5) (n : BitVec 6)
  /-- PEEK (R356): Reads inbound token s[a] into a scalar register. -/
  | peek (d : BitVec 5) (a : BitVec 5) (n : BitVec 6)
  /-- PEEKV (R356): Reads inbound token s[a] into a vector register. -/
  | peekv (d : BitVec 5) (a : BitVec 5) (n : BitVec 6)
  /-- SEND (R357): Sends one token from a scalar register, releasing over all classes. -/
  | send (a : BitVec 5) (n : BitVec 6)
  /-- SENDV (R357): Sends one token from a vector register. -/
  | sendv (a : BitVec 5) (n : BitVec 6)
  /-- SENDN (R357): Sends null tokens. -/
  | sendn (a : BitVec 5) (n : BitVec 6)
  /-- SENDM (R357): Sends a scalar token released over a class mask. -/
  | sendm (d : BitVec 5) (a : BitVec 5) (n : BitVec 6)
  /-- SENDMV (R357): Sends a vector token released over a class mask. -/
  | sendmv (d : BitVec 5) (a : BitVec 5) (n : BitVec 6)
  /-- CHCNT (R358): Writes the inbound status word of an endpoint. -/
  | chcnt (d : BitVec 5) (n : BitVec 6)
  /-- CHFREE (R358): Writes the outbound status word of an endpoint. -/
  | chfree (d : BitVec 5) (n : BitVec 6)
  /-- AADD (R410): Atomic add at the owning port. -/
  | aadd (d : BitVec 5) (a : BitVec 5) (b : BitVec 5) (k : BitVec 4)
  /-- AAND (R410): Atomic AND. -/
  | aand (d : BitVec 5) (a : BitVec 5) (b : BitVec 5) (k : BitVec 4)
  /-- AOR (R410): Atomic OR. -/
  | aor (d : BitVec 5) (a : BitVec 5) (b : BitVec 5) (k : BitVec 4)
  /-- AXOR (R410): Atomic XOR. -/
  | axor (d : BitVec 5) (a : BitVec 5) (b : BitVec 5) (k : BitVec 4)
  /-- AMIN (R410): Atomic signed minimum. -/
  | amin (d : BitVec 5) (a : BitVec 5) (b : BitVec 5) (k : BitVec 4)
  /-- AMAX (R410): Atomic signed maximum. -/
  | amax (d : BitVec 5) (a : BitVec 5) (b : BitVec 5) (k : BitVec 4)
  /-- AMINU (R410): Atomic unsigned minimum. -/
  | aminu (d : BitVec 5) (a : BitVec 5) (b : BitVec 5) (k : BitVec 4)
  /-- AMAXU (R410): Atomic unsigned maximum. -/
  | amaxu (d : BitVec 5) (a : BitVec 5) (b : BitVec 5) (k : BitVec 4)
  /-- ASWAP (R410): Atomic swap. -/
  | aswap (d : BitVec 5) (a : BitVec 5) (b : BitVec 5) (k : BitVec 4)
  /-- ACAS (R410): Atomic compare-and-swap against s[d]. -/
  | acas (d : BitVec 5) (a : BitVec 5) (b : BitVec 5) (k : BitVec 4)
  /-- FENCE (R413): Orders the firing's accesses of the masked classes at a scope. -/
  | fence (sc : BitVec 5) (m : BitVec 16)
  /-- BAR (R415): Arrives at an alloy barrier and waits. -/
  | bar (n : BitVec 5)
  /-- SUBS (R416): Subscribes to a broadcast tag at commit. -/
  | subs (a : BitVec 5)
  /-- UNSUBS (R416): Removes a subscription at commit. -/
  | unsubs (a : BitVec 5)
  /-- VADD (R367): Lane integer add. -/
  | vadd (d : BitVec 5) (a : BitVec 5) (b : BitVec 5) (p : Option (BitVec 3))
  /-- VSUB (R367): Lane integer subtract. -/
  | vsub (d : BitVec 5) (a : BitVec 5) (b : BitVec 5) (p : Option (BitVec 3))
  /-- VMUL (R367): Lane integer multiply. -/
  | vmul (d : BitVec 5) (a : BitVec 5) (b : BitVec 5) (p : Option (BitVec 3))
  /-- VMULH (R367): Lane signed high product. -/
  | vmulh (d : BitVec 5) (a : BitVec 5) (b : BitVec 5) (p : Option (BitVec 3))
  /-- VMULHU (R367): Lane unsigned high product. -/
  | vmulhu (d : BitVec 5) (a : BitVec 5) (b : BitVec 5) (p : Option (BitVec 3))
  /-- VAND (R367): Lane AND. -/
  | vand (d : BitVec 5) (a : BitVec 5) (b : BitVec 5) (p : Option (BitVec 3))
  /-- VOR (R367): Lane OR. -/
  | vor (d : BitVec 5) (a : BitVec 5) (b : BitVec 5) (p : Option (BitVec 3))
  /-- VXOR (R367): Lane XOR. -/
  | vxor (d : BitVec 5) (a : BitVec 5) (b : BitVec 5) (p : Option (BitVec 3))
  /-- VANDN (R367): Lane AND NOT. -/
  | vandn (d : BitVec 5) (a : BitVec 5) (b : BitVec 5) (p : Option (BitVec 3))
  /-- VNOT (R367): Lane NOT. -/
  | vnot (d : BitVec 5) (a : BitVec 5) (p : Option (BitVec 3))
  /-- VSLL (R367): Lane shift left. -/
  | vsll (d : BitVec 5) (a : BitVec 5) (b : BitVec 5) (p : Option (BitVec 3))
  /-- VSRL (R367): Lane logical shift right. -/
  | vsrl (d : BitVec 5) (a : BitVec 5) (b : BitVec 5) (p : Option (BitVec 3))
  /-- VSRA (R367): Lane arithmetic shift right. -/
  | vsra (d : BitVec 5) (a : BitVec 5) (b : BitVec 5) (p : Option (BitVec 3))
  /-- VMIN (R367): Lane signed minimum. -/
  | vmin (d : BitVec 5) (a : BitVec 5) (b : BitVec 5) (p : Option (BitVec 3))
  /-- VMAX (R367): Lane signed maximum. -/
  | vmax (d : BitVec 5) (a : BitVec 5) (b : BitVec 5) (p : Option (BitVec 3))
  /-- VMINU (R367): Lane unsigned minimum. -/
  | vminu (d : BitVec 5) (a : BitVec 5) (b : BitVec 5) (p : Option (BitVec 3))
  /-- VMAXU (R367): Lane unsigned maximum. -/
  | vmaxu (d : BitVec 5) (a : BitVec 5) (b : BitVec 5) (p : Option (BitVec 3))
  /-- VABS (R367): Lane integer absolute value. -/
  | vabs (d : BitVec 5) (a : BitVec 5) (p : Option (BitVec 3))
  /-- VNEG (R367): Lane integer negate. -/
  | vneg (d : BitVec 5) (a : BitVec 5) (p : Option (BitVec 3))
  /-- VCEQ (R367): Lane equality into a predicate. -/
  | vceq (d : BitVec 5) (a : BitVec 5) (b : BitVec 5) (p : Option (BitVec 3))
  /-- VCLT (R367): Lane signed less-than into a predicate. -/
  | vclt (d : BitVec 5) (a : BitVec 5) (b : BitVec 5) (p : Option (BitVec 3))
  /-- VCLTU (R367): Lane unsigned less-than into a predicate. -/
  | vcltu (d : BitVec 5) (a : BitVec 5) (b : BitVec 5) (p : Option (BitVec 3))
  /-- VCLE (R367): Lane signed less-or-equal into a predicate. -/
  | vcle (d : BitVec 5) (a : BitVec 5) (b : BitVec 5) (p : Option (BitVec 3))
  /-- VCLEU (R367): Lane unsigned less-or-equal into a predicate. -/
  | vcleu (d : BitVec 5) (a : BitVec 5) (b : BitVec 5) (p : Option (BitVec 3))
  /-- VSEL (R368): Selects values of v[a] or v[b] under a predicate. -/
  | vsel (d : BitVec 5) (a : BitVec 5) (b : BitVec 5) (p : Option (BitVec 3))
  /-- VFADD (R369): Lane float add, rounded once. -/
  | vfadd (d : BitVec 5) (a : BitVec 5) (b : BitVec 5) (p : Option (BitVec 3))
  /-- VFSUB (R369): Lane float subtract. -/
  | vfsub (d : BitVec 5) (a : BitVec 5) (b : BitVec 5) (p : Option (BitVec 3))
  /-- VFMUL (R369): Lane float multiply. -/
  | vfmul (d : BitVec 5) (a : BitVec 5) (b : BitVec 5) (p : Option (BitVec 3))
  /-- VFDIV (R369): Lane float divide. -/
  | vfdiv (d : BitVec 5) (a : BitVec 5) (b : BitVec 5) (p : Option (BitVec 3))
  /-- VFMA (R369): Lane fused x · y + z. -/
  | vfma (d : BitVec 5) (a : BitVec 5) (b : BitVec 5) (p : Option (BitVec 3))
  /-- VFMS (R369): Lane fused x · y − z. -/
  | vfms (d : BitVec 5) (a : BitVec 5) (b : BitVec 5) (p : Option (BitVec 3))
  /-- VFNMA (R369): Lane fused z − x · y. -/
  | vfnma (d : BitVec 5) (a : BitVec 5) (b : BitVec 5) (p : Option (BitVec 3))
  /-- VFSQRT (R369): Lane float square root. -/
  | vfsqrt (d : BitVec 5) (a : BitVec 5) (p : Option (BitVec 3))
  /-- VFMIN (R370): Lane float minimum. -/
  | vfmin (d : BitVec 5) (a : BitVec 5) (b : BitVec 5) (p : Option (BitVec 3))
  /-- VFMAX (R370): Lane float maximum. -/
  | vfmax (d : BitVec 5) (a : BitVec 5) (b : BitVec 5) (p : Option (BitVec 3))
  /-- VFABS (R370): Lane float absolute value. -/
  | vfabs (d : BitVec 5) (a : BitVec 5) (p : Option (BitVec 3))
  /-- VFNEG (R370): Lane float negate. -/
  | vfneg (d : BitVec 5) (a : BitVec 5) (p : Option (BitVec 3))
  /-- VFCEQ (R370): Lane float equality into a predicate. -/
  | vfceq (d : BitVec 5) (a : BitVec 5) (b : BitVec 5) (p : Option (BitVec 3))
  /-- VFCLT (R370): Lane float less-than into a predicate. -/
  | vfclt (d : BitVec 5) (a : BitVec 5) (b : BitVec 5) (p : Option (BitVec 3))
  /-- VFCLE (R370): Lane float less-or-equal into a predicate. -/
  | vfcle (d : BitVec 5) (a : BitVec 5) (b : BitVec 5) (p : Option (BitVec 3))
  /-- VFCLASS (R370): Lane float class code. -/
  | vfclass (d : BitVec 5) (a : BitVec 5) (p : Option (BitVec 3))
  /-- VCVTA (R372): Plain conversion from MAIN to ALT for part q. -/
  | vcvta (d : BitVec 5) (a : BitVec 5) (q : BitVec 5) (p : Option (BitVec 3))
  /-- VCVTM (R372): Plain conversion from ALT to MAIN for part q. -/
  | vcvtm (d : BitVec 5) (a : BitVec 5) (q : BitVec 5) (p : Option (BitVec 3))
  /-- VCVTS (R372): Scaled narrowing from MAIN to ALT. -/
  | vcvts (d : BitVec 5) (a : BitVec 5) (b : BitVec 5) (p : Option (BitVec 3))
  /-- VMXE (R373): Encodes 32 values into one microscaled block. -/
  | vmxe (d : BitVec 5) (a : BitVec 5) (q : BitVec 5)
  /-- VMXD (R373): Decodes one microscaled block into 32 values. -/
  | vmxd (d : BitVec 5) (a : BitVec 5) (q : BitVec 5)
  /-- VSDE (R375): Encodes values into an SD8 group. -/
  | vsde (d : BitVec 5) (a : BitVec 5)
  /-- VSDD (R375): Decodes an SD8 group into MAIN values. -/
  | vsdd (d : BitVec 5) (a : BitVec 5)
  /-- VRADD (R376): Reduces enabled values by exact sum. -/
  | vradd (d : BitVec 5) (a : BitVec 5) (p : Option (BitVec 3))
  /-- VRMIN (R376): Reduces by signed minimum. -/
  | vrmin (d : BitVec 5) (a : BitVec 5) (p : Option (BitVec 3))
  /-- VRMAX (R376): Reduces by signed maximum. -/
  | vrmax (d : BitVec 5) (a : BitVec 5) (p : Option (BitVec 3))
  /-- VRMINU (R376): Reduces by unsigned minimum. -/
  | vrminu (d : BitVec 5) (a : BitVec 5) (p : Option (BitVec 3))
  /-- VRMAXU (R376): Reduces by unsigned maximum. -/
  | vrmaxu (d : BitVec 5) (a : BitVec 5) (p : Option (BitVec 3))
  /-- VRAND (R376): Reduces by AND. -/
  | vrand (d : BitVec 5) (a : BitVec 5) (p : Option (BitVec 3))
  /-- VROR (R376): Reduces by OR. -/
  | vror (d : BitVec 5) (a : BitVec 5) (p : Option (BitVec 3))
  /-- VRXOR (R376): Reduces by XOR. -/
  | vrxor (d : BitVec 5) (a : BitVec 5) (p : Option (BitVec 3))
  /-- WADD (R377): Adds enabled float values exactly into ingot lanes. -/
  | wadd (d : BitVec 5) (a : BitVec 5) (p : Option (BitVec 3))
  /-- WRD (R378): Reads out ingot lanes as FP32. -/
  | wrd (d : BitVec 5) (a : BitVec 5) (p : Option (BitVec 3))
  /-- WCLR (R378): Clears enabled ingot lanes. -/
  | wclr (d : BitVec 5) (p : Option (BitVec 3))
  /-- WCPY (R378): Copies an ingot register or folds its lanes into lane 0. -/
  | wcpy (d : BitVec 5) (a : BitVec 5) (f : BitVec 5)
  /-- PAND (R379): Predicate AND. -/
  | pand (d : BitVec 5) (a : BitVec 5) (b : BitVec 5)
  /-- POR (R379): Predicate OR. -/
  | por (d : BitVec 5) (a : BitVec 5) (b : BitVec 5)
  /-- PXOR (R379): Predicate XOR. -/
  | pxor (d : BitVec 5) (a : BitVec 5) (b : BitVec 5)
  /-- PANDN (R379): Predicate AND NOT. -/
  | pandn (d : BitVec 5) (a : BitVec 5) (b : BitVec 5)
  /-- PNOT (R379): Predicate NOT. -/
  | pnot (d : BitVec 5) (a : BitVec 5)
  /-- PSET (R379): Sets a predicate to all ones. -/
  | pset (d : BitVec 5)
  /-- PCLR (R379): Clears a predicate. -/
  | pclr (d : BitVec 5)
  /-- PMOVS (R379): Moves a scalar register into a predicate. -/
  | pmovs (d : BitVec 5) (a : BitVec 5)
  /-- PMOVD (R379): Moves a predicate into a scalar register. -/
  | pmovd (d : BitVec 5) (a : BitVec 5)
  /-- PFIRST (R379): Index of the lowest set predicate bit. -/
  | pfirst (d : BitVec 5) (a : BitVec 5)
  /-- PCNT (R379): Number of set predicate bits. -/
  | pcnt (d : BitVec 5) (a : BitVec 5)
  /-- VSGO (R383): Starts a stream run of K firings of the stream-mode elements. -/
  | vsgo (a : BitVec 5)
  /-- VSWT (R384): Waits for the firing's stream run to finish. -/
  | vswt
  /-- VSDADD (R382): Online SD8 group addition. -/
  | vsdadd (d : BitVec 5) (a : BitVec 5) (b : BitVec 5)
  /-- VSDSUB (R382): Online SD8 group subtraction. -/
  | vsdsub (d : BitVec 5) (a : BitVec 5) (b : BitVec 5)
  /-- VSDMUL (R382): Online SD8 group multiplication. -/
  | vsdmul (d : BitVec 5) (a : BitVec 5) (b : BitVec 5)
  /-- VSDCUT (R382): Truncates an SD8 group after m digits. -/
  | vsdcut (d : BitVec 5) (a : BitVec 5) (m : BitVec 5)
  /-- VSDCMP (R382): Compares two SD8 groups into a predicate. -/
  | vsdcmp (d : BitVec 5) (a : BitVec 5) (b : BitVec 5)
  /-- VJOIN (R385): Runs the stream-join unit in match form. -/
  | vjoin (d : BitVec 5) (a : BitVec 5) (b : BitVec 5)
  /-- VJOINU (R385): Runs the stream-join unit in union form. -/
  | vjoinu (d : BitVec 5) (a : BitVec 5) (b : BitVec 5)
  /-- GRIT (R386): Draws 64 bits of grit at gctr and advances it. -/
  | grit (d : BitVec 5)
  /-- GRITV (R386): Draws four 128-bit grit values into a vector register. -/
  | gritv (d : BitVec 5)
  /-- GRITC (R386): Draws grit at an explicit counter. -/
  | gritc (d : BitVec 5) (a : BitVec 5)
  /-- VSMPC (R388): Samples an index from all candidate logits. -/
  | vsmpc (d : BitVec 5) (a : BitVec 5) (p : Option (BitVec 3))
  /-- VSMPK (R388): Samples an index from the top-k candidates. -/
  | vsmpk (d : BitVec 5) (a : BitVec 5) (b : BitVec 5) (p : Option (BitVec 3))
  /-- VSMPN (R388): Samples an index from the nucleus of mass P. -/
  | vsmpn (d : BitVec 5) (a : BitVec 5) (b : BitVec 5) (p : Option (BitVec 3))
  /-- VMOV (R380): Copies enabled lanes. -/
  | vmov (d : BitVec 5) (a : BitVec 5) (p : Option (BitVec 3))
  /-- VBCAST (R380): Broadcasts a scalar into enabled values. -/
  | vbcast (d : BitVec 5) (a : BitVec 5) (p : Option (BitVec 3))
  /-- VINS (R380): Inserts a scalar as value s[b]. -/
  | vins (d : BitVec 5) (a : BitVec 5) (b : BitVec 5)
  /-- VEXT (R380): Extracts value s[b] into a scalar. -/
  | vext (d : BitVec 5) (a : BitVec 5) (b : BitVec 5)
  /-- VPERM (R380): Permutes lanes by an index vector. -/
  | vperm (d : BitVec 5) (a : BitVec 5) (b : BitVec 5) (p : Option (BitVec 3))
  /-- VROT (R380): Rotates lanes by s[b]. -/
  | vrot (d : BitVec 5) (a : BitVec 5) (b : BitVec 5) (p : Option (BitVec 3))
  /-- VZIP (R381): Packs an SD8 digit plane into token form. -/
  | vzip (d : BitVec 5) (a : BitVec 5) (b : BitVec 5)
  /-- VUNZIP (R381): Unpacks an SD8 plane token into lane form. -/
  | vunzip (d : BitVec 5) (a : BitVec 5) (b : BitVec 5)
  /-- SCLAIM (R395): Claims an operand slot handle, waiting while no slot is free. -/
  | sclaim (h : BitVec 5)
  /-- SREL (R395): Releases a slot handle at commit. -/
  | srel (h : BitVec 5)
  /-- MCTX (R394): Binds a claimed slot as B of a context. -/
  | mctx (c : BitVec 5) (h : BitVec 5)
  /-- MROW (R396): Streams A rows from the tile store into a context. -/
  | mrow (c : BitVec 5) (a : BitVec 5) (b : BitVec 5)
  /-- MROWC (R397): Streams A rows from an inbound endpoint into a context. -/
  | mrowc (c : BitVec 5) (n : BitVec 5) (b : BitVec 5)
  /-- MREP (R397): Streams rows from a repeat node into a context. -/
  | mrep (c : BitVec 5) (r : BitVec 5) (b : BitVec 5)
  /-- MZERO (R394): Zeroes a context's accumulators. -/
  | mzero (c : BitVec 5)
  /-- MDRAIN (R398): Drains accumulator rows to the tile store in a chosen format. -/
  | mdrain (c : BitVec 5) (a : BitVec 5) (b : BitVec 5)
  /-- MWAIT (R399): Waits for matrix work and merges context flags into fflags. -/
  | mwait
  /-- TSLD (R401): Loads 64 tile-store bytes into a vector register. -/
  | tsld (d : BitVec 5) (a : BitVec 5)
  /-- TSST (R401): Stores a vector register to 64 tile-store bytes. -/
  | tsst (d : BitVec 5) (a : BitVec 5)
  /-- TSMV (R401): Moves tile-store rows. -/
  | tsmv (d : BitVec 5) (a : BitVec 5) (b : BitVec 5)
  /-- TSSLOT (R401): Copies 64 tile-store rows into a slot. -/
  | tsslot (h : BitVec 5) (a : BitVec 5)
  /-- SLOTTS (R401): Copies a slot into 64 tile-store rows. -/
  | slotts (h : BitVec 5) (a : BitVec 5)
  /-- HRTS (R401): Copies handler-RAM bytes into the tile store. -/
  | hrts (d : BitVec 5) (a : BitVec 5) (b : BitVec 5)
  /-- TSHR (R401): Copies tile-store bytes into handler RAM as committed stores. -/
  | tshr (d : BitVec 5) (a : BitVec 5) (b : BitVec 5)
  /-- SARM (R404): Arms a Silt template at commit. -/
  | sarm (a : BitVec 5)
  /-- SDIS (R404): Disarms a Silt template at commit. -/
  | sdis (a : BitVec 5)
  /-- SBIND (R404): Binds a template to its channel or named queue at commit. -/
  | sbind (a : BitVec 5)
  /-- SUNBIND (R404): Unbinds a template at commit. -/
  | sunbind (a : BitVec 5)
  /-- SKICK (R405): Kicks one Silt copy with a record taking effect at commit. -/
  | skick (d : BitVec 5) (a : BitVec 5)
  /-- SWAIT (R406): Waits for the mailbox release of earlier copies with a cxid. -/
  | swait (a : BitVec 5)
  /-- BRD (R407): Microcode burst read into the burst buffer. -/
  | brd (d : BitVec 5) (a : BitVec 5) (b : BitVec 5)
  /-- BWR (R407): Microcode burst write from the burst buffer, ending a segment. -/
  | bwr (d : BitVec 5) (a : BitVec 5) (b : BitVec 5)
  /-- BFILL (R407): Fills burst buffer bytes with a pattern. -/
  | bfill (d : BitVec 5) (a : BitVec 5) (b : BitVec 5)
  /-- MBREL (R407): Store-releases the cxid to MBOX and ends the copy. -/
  | mbrel (a : BitVec 5)
  /-- CFGLD (R418): Loads a part of the staging set from handler RAM. -/
  | cfgld (k : BitVec 5) (a : BitVec 5)
  /-- CFGDRN (R418): Drains the lane array for reconfiguration. -/
  | cfgdrn
  /-- CFGSET (R419): Sets a matrix context word. -/
  | cfgset (c : BitVec 5) (a : BitVec 5)
  /-- CFGRUN (R418): Validates and installs the staging set and restarts the array. -/
  | cfgrun
  /-- LAUNCH (R421): Reserves a pool entry for a device-side child job and writes the launch status. -/
  | launch (d : BitVec 5) (a : BitVec 5) (b : BitVec 5)
  /-- COMPAT (R292): A compatibility-reserved word runs its routine, or on the Fewin raises COMPAT. -/
  | compat (m : BitVec 2) (x : BitVec 26)
  /-- ILLEGAL_INSTRUCTION (R315): The sequencer meets a word that is unassigned or breaks the field rules, such as the all-zero word, MAJ 0x1F or 0x2E–0x3B, or an unlisted FUNC, SZ or IMM selector, and raises ILLINSTR. -/
  | illegalInstruction (w : W32)
  /-- POWER_ON_RESET (R61): Applying the standby input clears everything except the fuses, and the boot ROM starts with FWSTATE 0. -/
  | powerOnReset
  /-- LIMIT_RESET (R16): An excursion of the main input, the standby input or an island supply beyond its limit holds the module in reset and reports the limit in BSTAT.LIMIT. -/
  | limitReset (code : Nat)
  /-- PERST (R61): PERST# on host link 0 performs a module reset. -/
  | perst
  /-- MRESET (R65): A BCTL write with KEY 0x4D52 and MRESET 1 starts a module reset. -/
  | mreset (r : RegReq)
  /-- FWHALT (R65): A BCTL write with KEY 0x4D52 and FWHALT 1 stops firmware, sets FWSTATE 5 and stops dispatch, while resident graphs run on. -/
  | fwhalt (r : RegReq)
  /-- FUNCTION_RESET (R61): A PCIe function-level reset kills the jobs of the function's queues and resets those queues. -/
  | functionReset (link fn : Nat)
  /-- LINK_RESET (R61): A PCIe or CXL link reset completes the link's outstanding transactions with error. -/
  | linkReset (link : Nat)
  /-- LINKDOWN (R23): A UALink port or host link loses training: the affected pairs are drained and moved, and LINKDOWN is raised. -/
  | linkdown (l : LinkId)
  /-- COOLING_WARNING (R17): Inlet temperature, flow or outlet rise passes its warning limit: COOLFAULT is set and COOLING is raised once per excursion. -/
  | coolingWarning
  /-- COOLING_CAP (R17): A cap-level cooling condition lowers the package cap to 50 % of design power within 10 ms and sets CAPLOW. -/
  | coolingCap
  /-- COOLING_CAP_CLEAR (R17): After inlet and flow have stayed at warning level or better for 1 s, CAPLOW clears and the cap returns. -/
  | coolingCapClear
  /-- COOLING_SHUTDOWN (R17): A cap-level condition that lasts 2 s quenches and saves all graphs and removes island power. -/
  | coolingShutdown
  /-- COOLING_RECOVERY (R17): After 10 s within limits, firmware restores island power, assays every tile and sets READY, and the Parked graphs become candidates. -/
  | coolingRecovery (found : Assays)
  /-- LOADFW (R66): A mailbox command fetches a firmware image from host memory and verifies it. -/
  | loadfw (r : RegReq) (blk : Option (List Byte))
  /-- WORLDREQ (R66): A signed mailbox command applies a list of world-table changes in order. -/
  | worldreq (r : RegReq) (blk : Option (List Byte))
  /-- ENROL (R66): A mailbox command fills or empties an owner key slot, and on first use fuses the owner key digest. -/
  | enrol (r : RegReq) (blk : Option (List Byte))
  /-- SVNRAISE (R66): A signed mailbox command raises the anti-rollback count to the SVN of the running firmware. -/
  | svnraise (r : RegReq) (blk : Option (List Byte))
  /-- MAILBOX_BADCMD (R66): A GO write with an unknown command code, or with a code not accepted in the current state, completes with BADCMD. -/
  | mailboxBadcmd (r : RegReq)
  /-- MAILBOX_DONE (R66): A mailbox command finishes: BUSY clears, DONE sets, STATUS is valid and MSI-X vector 0 is sent. -/
  | mailboxDone
  /-- FIRMWARE_START (R62): A verified firmware image runs (FWSTATE 2), applies island power, sets link modes, trains the stacks and maps the second tier; a refused image gives FWSTATE 3 or 4. -/
  | firmwareStart (modes : List Nat) (expanders : List (Nat × Nat))
  /-- BRINGUP_COMPLETE (R62): After the assay of every tile, firmware loads the world tables, enables the link ports and sets BSTAT.READY. -/
  | bringupComplete (found : Assays) (worlds : List (Nat × W64)) (linkPorts : List Nat) (svBase svLen : W64)
  /-- SPDM_MEASUREMENT (R84): An SPDM measurement request over DOE on host link 0 is answered with digests, SVN and the nonce, signed by the attestation key. -/
  | spdmMeasurement (nonce : List Byte)
  /-- REGISTER_WRITE (R59): A write to a register that has no row of its own stores its fields under the access rules. -/
  | registerWrite (r : RegReq)
  /-- POISONED_REGISTER_WRITE (R444): A register write whose data carries dross is not performed: a queue register records POISONW, and a kick register takes a record with dross. -/
  | poisonedRegisterWrite (who : Who) (off : Nat) (data : V512)
  /-- QTAIL_WRITE (R69): A QTAIL write is judged against head and tail and either advances the tail or is ignored with TAILRANGE, TAILBACK, PEERDENIED or DEVDENIED. -/
  | qtailWrite (r : RegReq)
  /-- QUEUE_ENABLE (R71): Writing QCFG.EN = 1 stores the level, and a Disabled queue with READY set becomes Running. -/
  | queueEnable (r : RegReq)
  /-- QUEUE_DISABLE (R71): Writing QCFG.EN = 0 to a Running queue makes it Draining, with no further fetch. -/
  | queueDisable (r : RegReq)
  /-- QCTL_KILL (R73): QCTL.KILL kills every fetched, unretired job of the queue, quenching its graphs and freeing its plots. -/
  | qctlKill (r : RegReq)
  /-- QCTL_RESET (R71): QCTL.RESET on a Disabled queue, or on a Halted queue with QRETIRE = QHEAD, zeroes its indices and ERR and leaves it Disabled. -/
  | qctlReset (r : RegReq)
  /-- RECORD_FETCH (R89): The Kiln fetches the next covered record of a queue in ring order while it holds fewer than 16 records of that queue. -/
  | recordFetch (q : Nat) (x : RecordRead)
  /-- IMAGE_VERIFY (R90): The image read for a RUN record completes and is verified, and the job enters Waiting or retires BADIMAGE. -/
  | imageVerify (job : Nat) (ext : List (Byte × Bool))
  /-- DISPATCH_DECISION (R93): The Kiln chooses at most one candidate and places, welds or earmarks plots for it, updating credits and pass counts. -/
  | dispatchDecision
  /-- CONFIG_LOAD_DONE (R99): The whole configuration load or restore completes, the graph becomes Resident and its actors may fire. -/
  | configLoadDone (job : Nat) (ext : List (Byte × Bool))
  /-- WELD_WAVEFRONT (R170): A tile loads its part of a welded successor once the wavefront has arrived and the predecessor's actors there have ended. -/
  | weldWavefront (job : Nat) (x : MarkFlit)
  /-- QUENCH_MARKER (R171): A node that has the quench marker on all non-back-edge inbound links saves its state and forwards the marker. -/
  | quenchMarker (job : Nat) (x : NodeSave)
  /-- QUENCH_COMPLETE (R171): Once every node has saved, every port has drained and the header record is written, the quench completes and the plots are freed. -/
  | quenchComplete (job : Nat)
  /-- GRAPH_END (R164): A graph whose actors, copies, bindings and streams have all ended enters Ended and frees its plots. -/
  | graphEnd (job : Nat)
  /-- DEADLOCK_DETECT (R164): A graph that has been stuck for 1 ms raises DEADLOCK. -/
  | deadlockDetect (job : Nat)
  /-- JOB_RETIRE (R77): A job retires in queue order: DW15 is written, the completion signal is performed and MSI-X is sent when asked. -/
  | jobRetire (job : Nat)
  /-- KLREFILL (R110): A KLREFILL write adds AMOUNT to the quota account of the oldest unretired job of QUEUE that has a quota. -/
  | klrefill (r : RegReq)
  /-- LEASE_ADD (R143): A write of KLLEASE.ADD adds mJ to the lease pool, saturating. -/
  | leaseAdd (r : RegReq)
  /-- ENERGY_CHARGE (R135): Each tile's energy meter charges whole µJ to the job's lease or quota account at least every 10 µs. -/
  | energyCharge (block job : Nat) (x : Energy)
  /-- THERMAL_READ (R123): Each tile reads its thermal sensor every 10 µs. -/
  | thermalRead (block celsius : Nat)
  /-- THERMAL_STEP (R123): Each full 1 ms above TTHROT lowers the thermal step by one, and each full 1 ms below TTHROT − 5 °C raises it by one. -/
  | thermalStep (block : Nat)
  /-- POWER_WINDOW (R124): At the end of each 1 ms window the power controller applies one throttle action when the cap binds, or undoes one after ten windows below 95 %. -/
  | powerWindow (watts : Nat)
  /-- BARRIER_PASS (R168): A barrier generation completes when every member has arrived; the waiting firings pass, and the alloy's round count advances. -/
  | barrierPass (job alloy bar : Nat)
  /-- MOVE_STATE_COPY (R132): Once the drain has ended, the tile's whole state is copied over the fabric to the target. -/
  | moveStateCopy (src : Nat)
  /-- MOVE_RETARGET (R132): After the copy, switch words and relocation entries are rewritten, waiting for a free entry if needed, then tgen increments and the target's fire gates open. -/
  | moveRetarget (src : Nat)
  /-- MOVE_ABANDON (R133): A fabric error during the state copy abandons the move, and the actors resume on the source. -/
  | moveAbandon (src : Nat)
  /-- RELOCATION_MARKER (R54): The relocation marker reaches the old tile, which stops forwarding and releases the old slot. -/
  | relocationMarker (port : Nat) (x : MarkFlit)
  /-- AGEING_MEASURE (R140): A tile's ring oscillators are measured at assay and every 24 h, updating DRIFT and LIFE. -/
  | ageingMeasure (block drift age : Nat)
  /-- FIRING_BOUNDARY (R150): At a firing boundary the tile starts the next fault, completion or ordinary firing of the first eligible slot in cyclic order. -/
  | firingBoundary (tile : Nat)
  /-- TOKEN_ARRIVAL (R161): A flit of data tokens or nulls enters a channel buffer, and fire gates are re-evaluated. -/
  | tokenArrival (job chan : Nat) (x : Flit)
  /-- END_MARK (R163): An end mark reaches a channel after the producer's last token. -/
  | endMark (job : Nat) (x : MarkFlit)
  /-- COMMIT_CONTINUE (R155): A commit that waited for matrix or lane work, the range scoreboard, a scoreboard entry or a named queue continues with its remaining steps. -/
  | commitContinue (tile : Nat)
  /-- UNCORRECTABLE_ERROR (R296): An uncorrectable ECC error in tile memory poisons the granule, makes a record and raises TILEUNCORR. -/
  | uncorrectableError (tile : Nat) (x : FoundErr)
  /-- TILE_SCRUB (R296): Each tile memory is scrubbed once a second in idle cycles. -/
  | tileScrub (tile : Nat) (found : Option (ErrSite × Bool))
  /-- SLOT_CLAIM_GRANT (R178): A waiting slot claim binds a physical slot that has become free. -/
  | slotClaimGrant (tile : Nat)
  /-- ROW_FIRING (R182): The matrix array combines one A row with B into a context's accumulator row when the row is present and the output has room. -/
  | rowFiring (tile ctx : Nat) (mismatch : Bool)
  /-- REPEAT_GROUP (R184): A repeat node takes a count token and emits its buffered group of rows that many times, or discards it. -/
  | repeatGroup (job aid node : Nat)
  /-- LANE_ELEMENT_FIRE (R188): A stream-mode element fires when its operand latches are valid and its result latch is empty. -/
  | laneElementFire (tile elem : Nat)
  /-- STREAM_RUN_DONE (R384): A stream run finishes and its flags are ORed into fflags. -/
  | streamRunDone (tile : Nat)
  /-- SILT_COPY_START (R201): A Silt engine takes the next kick record from its kick queue and starts the copy microcode at MCODE. -/
  | siltCopyStart (port : Nat)
  /-- BOUND_KICK (R202): An armed, bound template takes a token or named-queue record as a kick record and fires one copy. -/
  | boundKick (port template : Nat)
  /-- KICK_REGISTER_WRITE (R203): A 64-byte write to a kick register appends a kick record to a named queue, waiting while the queue is full. -/
  | kickRegisterWrite (who : Who) (off : Nat) (data : V512)
  /-- MAILBOX_EVENT (R201): A copy's mailbox event reaches the issuer's tile, removes its scoreboard entries and makes its completion firing pending. -/
  | mailboxEvent (job : Nat) (cxid : W64)
  /-- MPTRC_READ (R48): A read of MPTRC returns and removes the oldest completion-trace entry, or 0. -/
  | mptrcRead (who : Who) (x : PortRead)
  /-- MEMPORT_READ (R41): A memory port takes a READ header with the next free tag. -/
  | memportRead (port req : Nat)
  /-- MEMPORT_WRITE (R41): A memory port takes a WRITE header together with its data token and the next free tag. -/
  | memportWrite (port req : Nat)
  /-- MEMPORT_NULL (R41): A null token at the head of a request channel is consumed without a tag or reply. -/
  | memportNull (port req : Nat)
  /-- MEMPORT_PERFORM (R46): The base die performs and completes a request, places its reply in the reply buffer and logs it in the completion trace. -/
  | memportPerform (port req : Nat) (x : TagPart)
  /-- REPLY_RELEASE (R44): The next reply in issue order leaves the reply buffer into a free slot of the reply channel, freeing its tag. -/
  | replyRelease (port req : Nat)
  /-- REQUESTER_END (R45): A requester binding ends and its reply channel receives an end mark. -/
  | requesterEnd (port req : Nat)
  /-- BASE_DIE_SCRUB (R51): The base die scrubs every granule of its stack and LPDDR once every 24 hours. -/
  | baseDieScrub (granule found : Nat)
  /-- EXPANDER_FAIL (R52): A CXL expander times out or is removed, and its requests complete with EXPFAIL. -/
  | expanderFail (link expander : Nat)
  /-- GLOBAL_ACCESS_PERFORM (R219): An access arriving at the owning port is performed in arrival order behind the in-flight address comparator. -/
  | globalAccessPerform (id : Nat)
  /-- TICKET_RETRY (R230): TRSVC with FAIL = 0 makes every access joined to the ticket walk again. -/
  | ticketRetry (r : RegReq)
  /-- TICKET_FAIL (R230): TRSVC with FAIL = 1 completes the joined accesses as accesses to no memory. -/
  | ticketFail (r : RegReq)
  /-- FLUX_START (R240): TRINVC with GO = 1 while FLUXBUSY is 0 starts a flux over the named range. -/
  | fluxStart (r : RegReq)
  /-- FLUX_EMERGE (R241): A flux emerges from a port tile once its old-translation accesses are performed, and FLUXBUSY clears after all 256. -/
  | fluxEmerge (x : MarkFlit)
  /-- ATS_INVALIDATE (R233): An ATS Invalidate Request from the host starts a flux over the named range. -/
  | atsInvalidate (link pasid : Nat) (va : W64) (size : Nat)
  /-- ATS_TRANSLATION_RESPONSE (R233): An ATS Translation Completion gives a host bus address, or leads to a PRI Page Request. -/
  | atsTranslationResponse (id : Nat) (addr : Option Nat) (writable : Bool)
  /-- PRI_RESPONSE (R233): A PRI response retries the translation on success, or gives HOSTDENY on failure. -/
  | priResponse (id : Nat) (ok : Bool)
  /-- STREAM_ELEMENT_ISSUE (R236): A memory stream issues its next element when the issue window allows. -/
  | streamElementIssue (job stream : Nat)
  /-- STREAM_ELEMENT_COMPLETE (R236): A stream element finishes: its token enters the channel, or its write or atomic has been performed. -/
  | streamElementComplete (job stream elem : Nat)
  /-- HOST_BAR2_READ (R208): A host read through BAR2 is performed at the owning port, with poison handled under HPCTL. -/
  | hostBar2Read (link off n : Nat)
  /-- HOST_BAR2_WRITE (R208): A host write through BAR2 is performed at the owning port as a non-secure requester. -/
  | hostBar2Write (link off : Nat) (data : List Byte) (poison : Bool)
  /-- PEER_INBOUND_READ (R21): An inbound UALink read from a peer returns the bytes. -/
  | peerInboundRead (peer addr n cls : Nat)
  /-- PEER_INBOUND_WRITE (R21): An inbound UALink full or masked write from a peer writes the bytes. -/
  | peerInboundWrite (peer addr cls : Nat) (data : List (Option Byte)) (poison : Bool)
  /-- PEER_INBOUND_ATOMIC (R21): An inbound UALink atomic is performed at the owning port. -/
  | peerInboundAtomic (peer addr cls : Nat) (op : AtomOp) (data cmp : W64) (poison : Bool)
  /-- PEER_DOMAIN_FENCE (R21): An inbound domain fence completes after all earlier requests of its classes from that source are performed. -/
  | peerDomainFence (peer mask : Nat)
  /-- PEER_RESPONSE (R29): A response to an outbound request arrives and completes it, or is discarded if it carries an old EPOCH. -/
  | peerResponse (id epoch : Nat) (data : List Byte) (poison error : Bool)
  /-- REQUEST_EXPIRE (R28): An outbound request's timer reaches TMO × 100 ns without a response. -/
  | requestExpire (id : Nat)
  /-- OUTBOUND_REQUEST_SEND (R26): A queued outbound request is sent on its pair's port once OCOUNT is below OBUDGET and ordering allows. -/
  | outboundRequestSend (id : Nat)
  /-- PEER_ACTIVATE (R30): Software writes STATE 0b01, making a Disabled or Isolated peer Active with OCOUNT 0. -/
  | peerActivate (r : RegReq)
  /-- PEER_DISABLE (R30): Software writes STATE 0b00, disabling the peer and completing its outstanding requests with error. -/
  | peerDisable (r : RegReq)
  /-- LINK_PORT_ENABLE (R31): Writing LKCTL.EN = 1 enables training and traffic on a link port. -/
  | linkPortEnable (r : RegReq)
  /-- LINK_PORT_DISABLE (R31): Clearing LKCTL.EN drains the port's pairs and moves them to other ports. -/
  | linkPortDisable (r : RegReq)
  /-- REDUCE_CONTRIBUTION (R36): A reduction stream gathers the next contribution from its channel and sends it to the members. -/
  | reduceContribution (job stream : Nat)
  /-- REDUCE_RESULT (R35): An all-reduce operation completes and its result tokens enter the result channel. -/
  | reduceResult (job stream : Nat) (others : List (Nat × List (Byte × Bool)))
  /-- ASSAY_RUN (R301): A block's assay starts once the compute tile holds no actor, or in place for a port tile. -/
  | assayRun (block : Nat)
  /-- ASSAY_COMPLETE (R300): An assay ends and writes ASSAY 2 (transient) or 3 (lasting) into the record. -/
  | assayComplete (block : Nat) (lasting : Bool) (drift age : Nat)
  /-- WORLD_TABLE_WRITE (R87): A secure-world write to a world table requests a world change, and non-secure writes are ignored. -/
  | worldTableWrite (r : RegReq)
  /-- PLOT_WORLD_CHANGE (R86): Once no graph occupies the plot, its tiles' memories are zeroed and the new world takes effect. -/
  | plotWorldChange (plot : Nat)
  /-- REGION_WORLD_CHANGE (R86): Once no in-flight request of the old world targets the region, the region entry change takes effect. -/
  | regionWorldChange (region : Nat)
  /-- MODULE_LEAVES_RESET (R16): Once every input and supply limit holds again, a module that was held in reset leaves reset. -/
  | moduleLeavesReset
  /-- LINK_TRAINED (R23): A UALink port or host link completes training at some lane count and rate: LANES and RATE update, and the port joins the set of usable ports. -/
  | linkTrained (l : LinkId) (lanes rate : Nat) (atomics ats : Bool)
  /-- HOST_COMPLETION (R219): A completion or response arrives on a host link for a Fewin read, AtomicOp or CXL request toward a host window or an expander: data, Unsupported Request, Completer Abort or poison. -/
  | hostCompletion (id : Nat) (data : W64) (status : HostStatus)
  deriving DecidableEq, Repr

end Sys2Proof
end

