-- ==== Sys2Proof/Decode.lean ====
section
/-! DEFINITION. The instruction of a control word and the word of an instruction (R308 to R315). The
decoder is total: a word that is no instruction is rejected with the reason R315 gives. -/

namespace Sys2Proof

/-- Why a word is not an instruction (R315). -/
inductive Reject
  /-- A major opcode that R312 leaves unassigned, 0x00 among them. -/
  | majorUnassigned
  /-- A FUNC, SZ or IMM selector that R313 and R314 do not list. -/
  | selectorUnlisted
  /-- A field that the instruction does not use is not zero (R311). -/
  | fieldNotZero
  /-- A predicate, ingot or scope field beyond its file (R310, R313). -/
  | fieldRange
  /-- Fewer than four bytes. -/
  | tooShort
  deriving DecidableEq, Repr

/-- MAJ, bits 31:26 (R309). -/
def fMaj (w : W32) : BitVec 6 := w.extractLsb' 26 6
/-- Field d (R309). -/
def fD (w : W32) : BitVec 5 := w.extractLsb' 21 5
/-- Field a (R309). -/
def fA (w : W32) : BitVec 5 := w.extractLsb' 16 5
/-- Field b (R309). -/
def fB (w : W32) : BitVec 5 := w.extractLsb' 11 5
/-- FUNC of format R. -/
def fFunc (w : W32) : BitVec 11 := w.extractLsb' 0 11
/-- IMM or OFF of formats I and B. -/
def fImm (w : W32) : BitVec 16 := w.extractLsb' 0 16
/-- OFF of format J. -/
def fJ (w : W32) : BitVec 21 := w.extractLsb' 0 21
/-- OFF of format M. -/
def fOff (w : W32) : BitVec 10 := w.extractLsb' 6 10
/-- SZ of format M. -/
def fSz (w : W32) : BitVec 2 := w.extractLsb' 4 2
/-- CLS of formats M and A. -/
def fCls (w : W32) : BitVec 4 := w.extractLsb' 0 4
/-- FUNC of format A. -/
def fAFunc (w : W32) : BitVec 7 := w.extractLsb' 4 7
/-- CH of format C. -/
def fCh (w : W32) : BitVec 6 := w.extractLsb' 10 6
/-- FUNC of format C. -/
def fCFunc (w : W32) : BitVec 10 := w.extractLsb' 0 10
/-- PE of format V. -/
def fPe (w : W32) : BitVec 1 := w.extractLsb' 10 1
/-- PR of format V. -/
def fPr (w : W32) : BitVec 3 := w.extractLsb' 7 3
/-- FUNC of format V. -/
def fVFunc (w : W32) : BitVec 7 := w.extractLsb' 0 7
/-- FUNC of format X. -/
def fXFunc (w : W32) : BitVec 4 := w.extractLsb' 12 4
/-- CSR of format X. -/
def fCsr (w : W32) : BitVec 12 := w.extractLsb' 0 12
/-- IMM[15:8] of the group SHI (R313). -/
def fZ8 (w : W32) : BitVec 8 := w.extractLsb' 8 8
/-- IMM[7:6] of the group SHI (R313). -/
def fShSel (w : W32) : BitVec 2 := w.extractLsb' 6 2
/-- IMM[5:0] of the group SHI (R313). -/
def fN (w : W32) : BitVec 6 := w.extractLsb' 0 6
/-- Which of the four compatibility majors (R312). -/
def fCm (w : W32) : BitVec 2 := w.extractLsb' 26 2
/-- Bits 25:0 of a compatibility word (R423). -/
def fCx (w : W32) : BitVec 26 := w.extractLsb' 0 26

/-- Refuses a word whose unused fields are not zero (R311). -/
def zero (ok : Bool) (r : Except Reject Instr) : Except Reject Instr :=
  if ok then r else .error .fieldNotZero

/-- Refuses a word with a register or scope number beyond its file (R310, R313). -/
def inFile (ok : Bool) (r : Except Reject Instr) : Except Reject Instr :=
  if ok then r else .error .fieldRange

/-- The predicate of a format-V word: PE = 0 needs PR = 0 (R310). -/
def withPred (w : W32) (k : Option (BitVec 3) → Except Reject Instr) : Except Reject Instr :=
  if fPe w = 1 then k (some (fPr w)) else if fPr w = 0 then k none else .error .fieldNotZero

/-- Major 0x01: the group ALU (R314). -/
def decAlu (w : W32) : Except Reject Instr :=
  match (fFunc w).toNat with
  | 0x0 => .ok (.add (fD w) (fA w) (fB w))
  | 0x1 => .ok (.sub (fD w) (fA w) (fB w))
  | 0x2 => .ok (.and (fD w) (fA w) (fB w))
  | 0x3 => .ok (.or (fD w) (fA w) (fB w))
  | 0x4 => .ok (.xor (fD w) (fA w) (fB w))
  | 0x5 => .ok (.sll (fD w) (fA w) (fB w))
  | 0x6 => .ok (.srl (fD w) (fA w) (fB w))
  | 0x7 => .ok (.sra (fD w) (fA w) (fB w))
  | 0x8 => .ok (.rol (fD w) (fA w) (fB w))
  | 0x9 => .ok (.ror (fD w) (fA w) (fB w))
  | 0xa => .ok (.slt (fD w) (fA w) (fB w))
  | 0xb => .ok (.sltu (fD w) (fA w) (fB w))
  | 0xc => .ok (.min (fD w) (fA w) (fB w))
  | 0xd => .ok (.max (fD w) (fA w) (fB w))
  | 0xe => .ok (.minu (fD w) (fA w) (fB w))
  | 0xf => .ok (.maxu (fD w) (fA w) (fB w))
  | 0x10 => .ok (.mul (fD w) (fA w) (fB w))
  | 0x11 => .ok (.mulh (fD w) (fA w) (fB w))
  | 0x12 => .ok (.mulhu (fD w) (fA w) (fB w))
  | 0x13 => .ok (.div (fD w) (fA w) (fB w))
  | 0x14 => .ok (.divu (fD w) (fA w) (fB w))
  | 0x15 => .ok (.rem (fD w) (fA w) (fB w))
  | 0x16 => .ok (.remu (fD w) (fA w) (fB w))
  | 0x17 => .ok (.andn (fD w) (fA w) (fB w))
  | 0x18 => zero (decide (fB w = 0)) (.ok (.clz (fD w) (fA w)))
  | 0x19 => zero (decide (fB w = 0)) (.ok (.ctz (fD w) (fA w)))
  | 0x1a => zero (decide (fB w = 0)) (.ok (.popc (fD w) (fA w)))
  | 0x1b => zero (decide (fB w = 0)) (.ok (.sextb (fD w) (fA w)))
  | 0x1c => zero (decide (fB w = 0)) (.ok (.sexth (fD w) (fA w)))
  | 0x1d => zero (decide (fB w = 0)) (.ok (.sextw (fD w) (fA w)))
  | 0x1e => .ok (.addw (fD w) (fA w) (fB w))
  | 0x1f => .ok (.subw (fD w) (fA w) (fB w))
  | _ => .error .selectorUnlisted

/-- Major 0x09: the group SHI (R314). -/
def decShi (w : W32) : Except Reject Instr :=
  match (fShSel w).toNat with
  | 0x0 => zero (decide (fZ8 w = 0)) (.ok (.slli (fD w) (fA w) (fN w)))
  | 0x1 => zero (decide (fZ8 w = 0)) (.ok (.srli (fD w) (fA w) (fN w)))
  | 0x2 => zero (decide (fZ8 w = 0)) (.ok (.srai (fD w) (fA w) (fN w)))
  | 0x3 => zero (decide (fZ8 w = 0)) (.ok (.roli (fD w) (fA w) (fN w)))
  | _ => .error .selectorUnlisted

/-- Major 0x12: the group CTL (R314). -/
def decCtl (w : W32) : Except Reject Instr :=
  match (fFunc w).toNat with
  | 0x0 => zero (decide (fD w = 0) && decide (fA w = 0) && decide (fB w = 0)) (.ok .nop)
  | 0x1 => zero (decide (fD w = 0) && decide (fA w = 0) && decide (fB w = 0)) (.ok .commit)
  | 0x2 => zero (decide (fD w = 0) && decide (fA w = 0) && decide (fB w = 0)) (.ok .yield)
  | 0x3 => zero (decide (fD w = 0) && decide (fA w = 0) && decide (fB w = 0)) (.ok .aend)
  | 0x4 => zero (decide (fD w = 0) && decide (fB w = 0)) (.ok (.trap (fA w)))
  | 0x5 => zero (decide (fA w = 0) && decide (fB w = 0)) (.ok (.ldepth (fD w)))
  | _ => .error .selectorUnlisted

/-- Major 0x13: the group CSR (R314). -/
def decCsr (w : W32) : Except Reject Instr :=
  match (fXFunc w).toNat with
  | 0x0 => zero (decide (fA w = 0)) (.ok (.csrr (fD w) (fCsr w)))
  | 0x1 => .ok (.csrw (fD w) (fA w) (fCsr w))
  | 0x2 => .ok (.csrs (fD w) (fA w) (fCsr w))
  | 0x3 => .ok (.csrc (fD w) (fA w) (fCsr w))
  | _ => .error .selectorUnlisted

/-- Major 0x14: the group L (R314). -/
def decL (w : W32) : Except Reject Instr :=
  match (fSz w).toNat with
  | 0x0 => .ok (.lb (fD w) (fA w) (fOff w) (fCls w))
  | 0x1 => .ok (.lh (fD w) (fA w) (fOff w) (fCls w))
  | 0x2 => .ok (.lw (fD w) (fA w) (fOff w) (fCls w))
  | 0x3 => .ok (.ld (fD w) (fA w) (fOff w) (fCls w))
  | _ => .error .selectorUnlisted

/-- Major 0x15: the group LZ (R314). -/
def decLz (w : W32) : Except Reject Instr :=
  match (fSz w).toNat with
  | 0x0 => .ok (.lbz (fD w) (fA w) (fOff w) (fCls w))
  | 0x1 => .ok (.lhz (fD w) (fA w) (fOff w) (fCls w))
  | 0x2 => .ok (.lwz (fD w) (fA w) (fOff w) (fCls w))
  | _ => .error .selectorUnlisted

/-- Major 0x16: the group S (R314). -/
def decS (w : W32) : Except Reject Instr :=
  match (fSz w).toNat with
  | 0x0 => .ok (.sb (fD w) (fA w) (fOff w) (fCls w))
  | 0x1 => .ok (.sh (fD w) (fA w) (fOff w) (fCls w))
  | 0x2 => .ok (.sw (fD w) (fA w) (fOff w) (fCls w))
  | 0x3 => .ok (.sd (fD w) (fA w) (fOff w) (fCls w))
  | _ => .error .selectorUnlisted

/-- Major 0x17: the group LG (R314). -/
def decLg (w : W32) : Except Reject Instr :=
  match (fSz w).toNat with
  | 0x0 => .ok (.lgb (fD w) (fA w) (fOff w) (fCls w))
  | 0x1 => .ok (.lgh (fD w) (fA w) (fOff w) (fCls w))
  | 0x2 => .ok (.lgw (fD w) (fA w) (fOff w) (fCls w))
  | 0x3 => .ok (.lgd (fD w) (fA w) (fOff w) (fCls w))
  | _ => .error .selectorUnlisted

/-- Major 0x18: the group LGZ (R314). -/
def decLgz (w : W32) : Except Reject Instr :=
  match (fSz w).toNat with
  | 0x0 => .ok (.lgbz (fD w) (fA w) (fOff w) (fCls w))
  | 0x1 => .ok (.lghz (fD w) (fA w) (fOff w) (fCls w))
  | 0x2 => .ok (.lgwz (fD w) (fA w) (fOff w) (fCls w))
  | _ => .error .selectorUnlisted

/-- Major 0x19: the group SG (R314). -/
def decSg (w : W32) : Except Reject Instr :=
  match (fSz w).toNat with
  | 0x0 => .ok (.sgb (fD w) (fA w) (fOff w) (fCls w))
  | 0x1 => .ok (.sgh (fD w) (fA w) (fOff w) (fCls w))
  | 0x2 => .ok (.sgw (fD w) (fA w) (fOff w) (fCls w))
  | 0x3 => .ok (.sgd (fD w) (fA w) (fOff w) (fCls w))
  | _ => .error .selectorUnlisted

/-- Major 0x1a: the group VMEM (R314). -/
def decVmem (w : W32) : Except Reject Instr :=
  match (fSz w).toNat with
  | 0x0 => .ok (.vl (fD w) (fA w) (fOff w) (fCls w))
  | 0x1 => .ok (.vs (fD w) (fA w) (fOff w) (fCls w))
  | 0x2 => .ok (.vlg (fD w) (fA w) (fOff w) (fCls w))
  | 0x3 => .ok (.vsg (fD w) (fA w) (fOff w) (fCls w))
  | _ => .error .selectorUnlisted

/-- Major 0x1b: the group CHAN (R314). -/
def decChan (w : W32) : Except Reject Instr :=
  match (fCFunc w).toNat with
  | 0x0 => zero (decide (fA w = 0)) (.ok (.recv (fD w) (fCh w)))
  | 0x1 => zero (decide (fA w = 0)) (.ok (.recvv (fD w) (fCh w)))
  | 0x2 => .ok (.peek (fD w) (fA w) (fCh w))
  | 0x3 => .ok (.peekv (fD w) (fA w) (fCh w))
  | 0x4 => zero (decide (fD w = 0)) (.ok (.send (fA w) (fCh w)))
  | 0x5 => zero (decide (fD w = 0)) (.ok (.sendv (fA w) (fCh w)))
  | 0x6 => zero (decide (fD w = 0)) (.ok (.sendn (fA w) (fCh w)))
  | 0x7 => .ok (.sendm (fD w) (fA w) (fCh w))
  | 0x8 => .ok (.sendmv (fD w) (fA w) (fCh w))
  | 0x9 => zero (decide (fA w = 0)) (.ok (.chcnt (fD w) (fCh w)))
  | 0xa => zero (decide (fA w = 0)) (.ok (.chfree (fD w) (fCh w)))
  | _ => .error .selectorUnlisted

/-- Major 0x1c: the group ATOM (R314). -/
def decAtom (w : W32) : Except Reject Instr :=
  match (fAFunc w).toNat with
  | 0x0 => .ok (.aadd (fD w) (fA w) (fB w) (fCls w))
  | 0x1 => .ok (.aand (fD w) (fA w) (fB w) (fCls w))
  | 0x2 => .ok (.aor (fD w) (fA w) (fB w) (fCls w))
  | 0x3 => .ok (.axor (fD w) (fA w) (fB w) (fCls w))
  | 0x4 => .ok (.amin (fD w) (fA w) (fB w) (fCls w))
  | 0x5 => .ok (.amax (fD w) (fA w) (fB w) (fCls w))
  | 0x6 => .ok (.aminu (fD w) (fA w) (fB w) (fCls w))
  | 0x7 => .ok (.amaxu (fD w) (fA w) (fB w) (fCls w))
  | 0x8 => .ok (.aswap (fD w) (fA w) (fB w) (fCls w))
  | 0x9 => .ok (.acas (fD w) (fA w) (fB w) (fCls w))
  | _ => .error .selectorUnlisted

/-- Major 0x1e: the group SYNC (R314). -/
def decSync (w : W32) : Except Reject Instr :=
  match (fFunc w).toNat with
  | 0x0 => zero (decide (fA w = 0) && decide (fB w = 0)) (.ok (.bar (fD w)))
  | 0x1 => zero (decide (fD w = 0) && decide (fB w = 0)) (.ok (.subs (fA w)))
  | 0x2 => zero (decide (fD w = 0) && decide (fB w = 0)) (.ok (.unsubs (fA w)))
  | _ => .error .selectorUnlisted

/-- Major 0x20: the group VINT (R314). -/
def decVint (w : W32) : Except Reject Instr :=
  match (fVFunc w).toNat with
  | 0x0 => withPred w (fun p => .ok (.vadd (fD w) (fA w) (fB w) p))
  | 0x1 => withPred w (fun p => .ok (.vsub (fD w) (fA w) (fB w) p))
  | 0x2 => withPred w (fun p => .ok (.vmul (fD w) (fA w) (fB w) p))
  | 0x3 => withPred w (fun p => .ok (.vmulh (fD w) (fA w) (fB w) p))
  | 0x4 => withPred w (fun p => .ok (.vmulhu (fD w) (fA w) (fB w) p))
  | 0x5 => withPred w (fun p => .ok (.vand (fD w) (fA w) (fB w) p))
  | 0x6 => withPred w (fun p => .ok (.vor (fD w) (fA w) (fB w) p))
  | 0x7 => withPred w (fun p => .ok (.vxor (fD w) (fA w) (fB w) p))
  | 0x8 => withPred w (fun p => .ok (.vandn (fD w) (fA w) (fB w) p))
  | 0x9 => zero (decide (fB w = 0)) (withPred w (fun p => .ok (.vnot (fD w) (fA w) p)))
  | 0xa => withPred w (fun p => .ok (.vsll (fD w) (fA w) (fB w) p))
  | 0xb => withPred w (fun p => .ok (.vsrl (fD w) (fA w) (fB w) p))
  | 0xc => withPred w (fun p => .ok (.vsra (fD w) (fA w) (fB w) p))
  | 0xd => withPred w (fun p => .ok (.vmin (fD w) (fA w) (fB w) p))
  | 0xe => withPred w (fun p => .ok (.vmax (fD w) (fA w) (fB w) p))
  | 0xf => withPred w (fun p => .ok (.vminu (fD w) (fA w) (fB w) p))
  | 0x10 => withPred w (fun p => .ok (.vmaxu (fD w) (fA w) (fB w) p))
  | 0x11 => zero (decide (fB w = 0)) (withPred w (fun p => .ok (.vabs (fD w) (fA w) p)))
  | 0x12 => zero (decide (fB w = 0)) (withPred w (fun p => .ok (.vneg (fD w) (fA w) p)))
  | 0x13 => inFile (decide (fD w < 8#5)) (withPred w (fun p => .ok (.vceq (fD w) (fA w) (fB w) p)))
  | 0x14 => inFile (decide (fD w < 8#5)) (withPred w (fun p => .ok (.vclt (fD w) (fA w) (fB w) p)))
  | 0x15 => inFile (decide (fD w < 8#5)) (withPred w (fun p => .ok (.vcltu (fD w) (fA w) (fB w) p)))
  | 0x16 => inFile (decide (fD w < 8#5)) (withPred w (fun p => .ok (.vcle (fD w) (fA w) (fB w) p)))
  | 0x17 => inFile (decide (fD w < 8#5)) (withPred w (fun p => .ok (.vcleu (fD w) (fA w) (fB w) p)))
  | 0x18 => withPred w (fun p => .ok (.vsel (fD w) (fA w) (fB w) p))
  | _ => .error .selectorUnlisted

/-- Major 0x21: the group VFP (R314). -/
def decVfp (w : W32) : Except Reject Instr :=
  match (fVFunc w).toNat with
  | 0x0 => withPred w (fun p => .ok (.vfadd (fD w) (fA w) (fB w) p))
  | 0x1 => withPred w (fun p => .ok (.vfsub (fD w) (fA w) (fB w) p))
  | 0x2 => withPred w (fun p => .ok (.vfmul (fD w) (fA w) (fB w) p))
  | 0x3 => withPred w (fun p => .ok (.vfdiv (fD w) (fA w) (fB w) p))
  | 0x4 => withPred w (fun p => .ok (.vfma (fD w) (fA w) (fB w) p))
  | 0x5 => withPred w (fun p => .ok (.vfms (fD w) (fA w) (fB w) p))
  | 0x6 => withPred w (fun p => .ok (.vfnma (fD w) (fA w) (fB w) p))
  | 0x7 => zero (decide (fB w = 0)) (withPred w (fun p => .ok (.vfsqrt (fD w) (fA w) p)))
  | 0x8 => withPred w (fun p => .ok (.vfmin (fD w) (fA w) (fB w) p))
  | 0x9 => withPred w (fun p => .ok (.vfmax (fD w) (fA w) (fB w) p))
  | 0xa => zero (decide (fB w = 0)) (withPred w (fun p => .ok (.vfabs (fD w) (fA w) p)))
  | 0xb => zero (decide (fB w = 0)) (withPred w (fun p => .ok (.vfneg (fD w) (fA w) p)))
  | 0xc => inFile (decide (fD w < 8#5)) (withPred w (fun p => .ok (.vfceq (fD w) (fA w) (fB w) p)))
  | 0xd => inFile (decide (fD w < 8#5)) (withPred w (fun p => .ok (.vfclt (fD w) (fA w) (fB w) p)))
  | 0xe => inFile (decide (fD w < 8#5)) (withPred w (fun p => .ok (.vfcle (fD w) (fA w) (fB w) p)))
  | 0xf => zero (decide (fB w = 0)) (withPred w (fun p => .ok (.vfclass (fD w) (fA w) p)))
  | _ => .error .selectorUnlisted

/-- Major 0x22: the group VCVT (R314). -/
def decVcvt (w : W32) : Except Reject Instr :=
  match (fVFunc w).toNat with
  | 0x0 => withPred w (fun p => .ok (.vcvta (fD w) (fA w) (fB w) p))
  | 0x1 => withPred w (fun p => .ok (.vcvtm (fD w) (fA w) (fB w) p))
  | 0x2 => withPred w (fun p => .ok (.vcvts (fD w) (fA w) (fB w) p))
  | 0x3 => zero (decide (fPe w = 0) && decide (fPr w = 0)) (.ok (.vmxe (fD w) (fA w) (fB w)))
  | 0x4 => zero (decide (fPe w = 0) && decide (fPr w = 0)) (.ok (.vmxd (fD w) (fA w) (fB w)))
  | 0x5 => zero (decide (fB w = 0) && decide (fPe w = 0) && decide (fPr w = 0)) (.ok (.vsde (fD w) (fA w)))
  | 0x6 => zero (decide (fB w = 0) && decide (fPe w = 0) && decide (fPr w = 0)) (.ok (.vsdd (fD w) (fA w)))
  | _ => .error .selectorUnlisted

/-- Major 0x23: the group VRED (R314). -/
def decVred (w : W32) : Except Reject Instr :=
  match (fVFunc w).toNat with
  | 0x0 => zero (decide (fB w = 0)) (withPred w (fun p => .ok (.vradd (fD w) (fA w) p)))
  | 0x1 => zero (decide (fB w = 0)) (withPred w (fun p => .ok (.vrmin (fD w) (fA w) p)))
  | 0x2 => zero (decide (fB w = 0)) (withPred w (fun p => .ok (.vrmax (fD w) (fA w) p)))
  | 0x3 => zero (decide (fB w = 0)) (withPred w (fun p => .ok (.vrminu (fD w) (fA w) p)))
  | 0x4 => zero (decide (fB w = 0)) (withPred w (fun p => .ok (.vrmaxu (fD w) (fA w) p)))
  | 0x5 => zero (decide (fB w = 0)) (withPred w (fun p => .ok (.vrand (fD w) (fA w) p)))
  | 0x6 => zero (decide (fB w = 0)) (withPred w (fun p => .ok (.vror (fD w) (fA w) p)))
  | 0x7 => zero (decide (fB w = 0)) (withPred w (fun p => .ok (.vrxor (fD w) (fA w) p)))
  | 0x8 => inFile (decide (fD w < 2#5)) (zero (decide (fB w = 0)) (withPred w (fun p => .ok (.wadd (fD w) (fA w) p))))
  | 0x9 => inFile (decide (fA w < 2#5)) (zero (decide (fB w = 0)) (withPred w (fun p => .ok (.wrd (fD w) (fA w) p))))
  | 0xa => inFile (decide (fD w < 2#5)) (zero (decide (fA w = 0) && decide (fB w = 0)) (withPred w (fun p => .ok (.wclr (fD w) p))))
  | 0xb => inFile (decide (fD w < 2#5) && decide (fA w < 2#5)) (zero (decide (fPe w = 0) && decide (fPr w = 0)) (.ok (.wcpy (fD w) (fA w) (fB w))))
  | _ => .error .selectorUnlisted

/-- Major 0x24: the group VPRED (R314). -/
def decVpred (w : W32) : Except Reject Instr :=
  match (fVFunc w).toNat with
  | 0x0 => inFile (decide (fD w < 8#5) && decide (fA w < 8#5) && decide (fB w < 8#5)) (zero (decide (fPe w = 0) && decide (fPr w = 0)) (.ok (.pand (fD w) (fA w) (fB w))))
  | 0x1 => inFile (decide (fD w < 8#5) && decide (fA w < 8#5) && decide (fB w < 8#5)) (zero (decide (fPe w = 0) && decide (fPr w = 0)) (.ok (.por (fD w) (fA w) (fB w))))
  | 0x2 => inFile (decide (fD w < 8#5) && decide (fA w < 8#5) && decide (fB w < 8#5)) (zero (decide (fPe w = 0) && decide (fPr w = 0)) (.ok (.pxor (fD w) (fA w) (fB w))))
  | 0x3 => inFile (decide (fD w < 8#5) && decide (fA w < 8#5) && decide (fB w < 8#5)) (zero (decide (fPe w = 0) && decide (fPr w = 0)) (.ok (.pandn (fD w) (fA w) (fB w))))
  | 0x4 => inFile (decide (fD w < 8#5) && decide (fA w < 8#5)) (zero (decide (fB w = 0) && decide (fPe w = 0) && decide (fPr w = 0)) (.ok (.pnot (fD w) (fA w))))
  | 0x5 => inFile (decide (fD w < 8#5)) (zero (decide (fA w = 0) && decide (fB w = 0) && decide (fPe w = 0) && decide (fPr w = 0)) (.ok (.pset (fD w))))
  | 0x6 => inFile (decide (fD w < 8#5)) (zero (decide (fA w = 0) && decide (fB w = 0) && decide (fPe w = 0) && decide (fPr w = 0)) (.ok (.pclr (fD w))))
  | 0x7 => inFile (decide (fD w < 8#5)) (zero (decide (fB w = 0) && decide (fPe w = 0) && decide (fPr w = 0)) (.ok (.pmovs (fD w) (fA w))))
  | 0x8 => inFile (decide (fA w < 8#5)) (zero (decide (fB w = 0) && decide (fPe w = 0) && decide (fPr w = 0)) (.ok (.pmovd (fD w) (fA w))))
  | 0x9 => inFile (decide (fA w < 8#5)) (zero (decide (fB w = 0) && decide (fPe w = 0) && decide (fPr w = 0)) (.ok (.pfirst (fD w) (fA w))))
  | 0xa => inFile (decide (fA w < 8#5)) (zero (decide (fB w = 0) && decide (fPe w = 0) && decide (fPr w = 0)) (.ok (.pcnt (fD w) (fA w))))
  | _ => .error .selectorUnlisted

/-- Major 0x25: the group VSTRM (R314). -/
def decVstrm (w : W32) : Except Reject Instr :=
  match (fVFunc w).toNat with
  | 0x0 => zero (decide (fD w = 0) && decide (fB w = 0) && decide (fPe w = 0) && decide (fPr w = 0)) (.ok (.vsgo (fA w)))
  | 0x1 => zero (decide (fD w = 0) && decide (fA w = 0) && decide (fB w = 0) && decide (fPe w = 0) && decide (fPr w = 0)) (.ok .vswt)
  | 0x2 => zero (decide (fPe w = 0) && decide (fPr w = 0)) (.ok (.vsdadd (fD w) (fA w) (fB w)))
  | 0x3 => zero (decide (fPe w = 0) && decide (fPr w = 0)) (.ok (.vsdsub (fD w) (fA w) (fB w)))
  | 0x4 => zero (decide (fPe w = 0) && decide (fPr w = 0)) (.ok (.vsdmul (fD w) (fA w) (fB w)))
  | 0x5 => zero (decide (fPe w = 0) && decide (fPr w = 0)) (.ok (.vsdcut (fD w) (fA w) (fB w)))
  | 0x6 => inFile (decide (fD w < 8#5)) (zero (decide (fPe w = 0) && decide (fPr w = 0)) (.ok (.vsdcmp (fD w) (fA w) (fB w))))
  | 0x7 => zero (decide (fPe w = 0) && decide (fPr w = 0)) (.ok (.vjoin (fD w) (fA w) (fB w)))
  | 0x8 => zero (decide (fPe w = 0) && decide (fPr w = 0)) (.ok (.vjoinu (fD w) (fA w) (fB w)))
  | _ => .error .selectorUnlisted

/-- Major 0x26: the group GRIT (R314). -/
def decGrit (w : W32) : Except Reject Instr :=
  match (fVFunc w).toNat with
  | 0x0 => zero (decide (fA w = 0) && decide (fB w = 0) && decide (fPe w = 0) && decide (fPr w = 0)) (.ok (.grit (fD w)))
  | 0x1 => zero (decide (fA w = 0) && decide (fB w = 0) && decide (fPe w = 0) && decide (fPr w = 0)) (.ok (.gritv (fD w)))
  | 0x2 => zero (decide (fB w = 0) && decide (fPe w = 0) && decide (fPr w = 0)) (.ok (.gritc (fD w) (fA w)))
  | 0x3 => zero (decide (fB w = 0)) (withPred w (fun p => .ok (.vsmpc (fD w) (fA w) p)))
  | 0x4 => withPred w (fun p => .ok (.vsmpk (fD w) (fA w) (fB w) p))
  | 0x5 => withPred w (fun p => .ok (.vsmpn (fD w) (fA w) (fB w) p))
  | _ => .error .selectorUnlisted

/-- Major 0x27: the group VMOVE (R314). -/
def decVmove (w : W32) : Except Reject Instr :=
  match (fVFunc w).toNat with
  | 0x0 => zero (decide (fB w = 0)) (withPred w (fun p => .ok (.vmov (fD w) (fA w) p)))
  | 0x1 => zero (decide (fB w = 0)) (withPred w (fun p => .ok (.vbcast (fD w) (fA w) p)))
  | 0x2 => zero (decide (fPe w = 0) && decide (fPr w = 0)) (.ok (.vins (fD w) (fA w) (fB w)))
  | 0x3 => zero (decide (fPe w = 0) && decide (fPr w = 0)) (.ok (.vext (fD w) (fA w) (fB w)))
  | 0x4 => withPred w (fun p => .ok (.vperm (fD w) (fA w) (fB w) p))
  | 0x5 => withPred w (fun p => .ok (.vrot (fD w) (fA w) (fB w) p))
  | 0x6 => zero (decide (fPe w = 0) && decide (fPr w = 0)) (.ok (.vzip (fD w) (fA w) (fB w)))
  | 0x7 => zero (decide (fPe w = 0) && decide (fPr w = 0)) (.ok (.vunzip (fD w) (fA w) (fB w)))
  | _ => .error .selectorUnlisted

/-- Major 0x28: the group MAT (R314). -/
def decMat (w : W32) : Except Reject Instr :=
  match (fFunc w).toNat with
  | 0x0 => zero (decide (fA w = 0) && decide (fB w = 0)) (.ok (.sclaim (fD w)))
  | 0x1 => zero (decide (fA w = 0) && decide (fB w = 0)) (.ok (.srel (fD w)))
  | 0x2 => zero (decide (fB w = 0)) (.ok (.mctx (fD w) (fA w)))
  | 0x3 => .ok (.mrow (fD w) (fA w) (fB w))
  | 0x4 => .ok (.mrowc (fD w) (fA w) (fB w))
  | 0x5 => .ok (.mrep (fD w) (fA w) (fB w))
  | 0x6 => zero (decide (fA w = 0) && decide (fB w = 0)) (.ok (.mzero (fD w)))
  | 0x7 => .ok (.mdrain (fD w) (fA w) (fB w))
  | 0x8 => zero (decide (fD w = 0) && decide (fA w = 0) && decide (fB w = 0)) (.ok .mwait)
  | _ => .error .selectorUnlisted

/-- Major 0x29: the group TCOPY (R314). -/
def decTcopy (w : W32) : Except Reject Instr :=
  match (fFunc w).toNat with
  | 0x0 => zero (decide (fB w = 0)) (.ok (.tsld (fD w) (fA w)))
  | 0x1 => zero (decide (fB w = 0)) (.ok (.tsst (fD w) (fA w)))
  | 0x2 => .ok (.tsmv (fD w) (fA w) (fB w))
  | 0x3 => zero (decide (fB w = 0)) (.ok (.tsslot (fD w) (fA w)))
  | 0x4 => zero (decide (fB w = 0)) (.ok (.slotts (fD w) (fA w)))
  | 0x5 => .ok (.hrts (fD w) (fA w) (fB w))
  | 0x6 => .ok (.tshr (fD w) (fA w) (fB w))
  | _ => .error .selectorUnlisted

/-- Major 0x2a: the group SILT (R314). -/
def decSilt (w : W32) : Except Reject Instr :=
  match (fFunc w).toNat with
  | 0x0 => zero (decide (fD w = 0) && decide (fB w = 0)) (.ok (.sarm (fA w)))
  | 0x1 => zero (decide (fD w = 0) && decide (fB w = 0)) (.ok (.sdis (fA w)))
  | 0x2 => zero (decide (fD w = 0) && decide (fB w = 0)) (.ok (.sbind (fA w)))
  | 0x3 => zero (decide (fD w = 0) && decide (fB w = 0)) (.ok (.sunbind (fA w)))
  | 0x4 => zero (decide (fB w = 0)) (.ok (.skick (fD w) (fA w)))
  | 0x5 => zero (decide (fD w = 0) && decide (fB w = 0)) (.ok (.swait (fA w)))
  | _ => .error .selectorUnlisted

/-- Major 0x2b: the group BURST (R314). -/
def decBurst (w : W32) : Except Reject Instr :=
  match (fFunc w).toNat with
  | 0x0 => .ok (.brd (fD w) (fA w) (fB w))
  | 0x1 => .ok (.bwr (fD w) (fA w) (fB w))
  | 0x2 => .ok (.bfill (fD w) (fA w) (fB w))
  | 0x3 => zero (decide (fD w = 0) && decide (fB w = 0)) (.ok (.mbrel (fA w)))
  | _ => .error .selectorUnlisted

/-- Major 0x2c: the group CFG (R314). -/
def decCfg (w : W32) : Except Reject Instr :=
  match (fFunc w).toNat with
  | 0x0 => zero (decide (fB w = 0)) (.ok (.cfgld (fD w) (fA w)))
  | 0x1 => zero (decide (fD w = 0) && decide (fA w = 0) && decide (fB w = 0)) (.ok .cfgdrn)
  | 0x2 => zero (decide (fB w = 0)) (.ok (.cfgset (fD w) (fA w)))
  | 0x3 => zero (decide (fD w = 0) && decide (fA w = 0) && decide (fB w = 0)) (.ok .cfgrun)
  | _ => .error .selectorUnlisted

/-- Major 0x2d: the group LNCH (R314). -/
def decLnch (w : W32) : Except Reject Instr :=
  match (fFunc w).toNat with
  | 0x0 => .ok (.launch (fD w) (fA w) (fB w))
  | _ => .error .selectorUnlisted

/-- The instruction of a control word, or the reason it is none (R308 to R315). -/
def decode (w : W32) : Except Reject Instr :=
  match (fMaj w).toNat with
  | 0x01 => decAlu w
  | 0x02 => .ok (.addi (fD w) (fA w) (fImm w))
  | 0x03 => .ok (.andi (fD w) (fA w) (fImm w))
  | 0x04 => .ok (.ori (fD w) (fA w) (fImm w))
  | 0x05 => .ok (.xori (fD w) (fA w) (fImm w))
  | 0x06 => .ok (.slti (fD w) (fA w) (fImm w))
  | 0x07 => .ok (.sltiu (fD w) (fA w) (fImm w))
  | 0x08 => zero (decide (fA w = 0)) (.ok (.lui (fD w) (fImm w)))
  | 0x09 => decShi w
  | 0x0a => .ok (.beq (fD w) (fA w) (fImm w))
  | 0x0b => .ok (.bne (fD w) (fA w) (fImm w))
  | 0x0c => .ok (.blt (fD w) (fA w) (fImm w))
  | 0x0d => .ok (.bge (fD w) (fA w) (fImm w))
  | 0x0e => .ok (.bltu (fD w) (fA w) (fImm w))
  | 0x0f => .ok (.bgeu (fD w) (fA w) (fImm w))
  | 0x10 => .ok (.jal (fD w) (fJ w))
  | 0x11 => .ok (.jalr (fD w) (fA w) (fImm w))
  | 0x12 => decCtl w
  | 0x13 => decCsr w
  | 0x14 => decL w
  | 0x15 => decLz w
  | 0x16 => decS w
  | 0x17 => decLg w
  | 0x18 => decLgz w
  | 0x19 => decSg w
  | 0x1a => decVmem w
  | 0x1b => decChan w
  | 0x1c => decAtom w
  | 0x1d => inFile (decide (fD w < 5#5)) (zero (decide (fA w = 0)) (.ok (.fence (fD w) (fImm w))))
  | 0x1e => decSync w
  | 0x20 => decVint w
  | 0x21 => decVfp w
  | 0x22 => decVcvt w
  | 0x23 => decVred w
  | 0x24 => decVpred w
  | 0x25 => decVstrm w
  | 0x26 => decGrit w
  | 0x27 => decVmove w
  | 0x28 => decMat w
  | 0x29 => decTcopy w
  | 0x2a => decSilt w
  | 0x2b => decBurst w
  | 0x2c => decCfg w
  | 0x2d => decLnch w
  | 0x3c => .ok (.compat (fCm w) (fCx w))
  | 0x3d => .ok (.compat (fCm w) (fCx w))
  | 0x3e => .ok (.compat (fCm w) (fCx w))
  | 0x3f => .ok (.compat (fCm w) (fCx w))
  | _ => .error .majorUnassigned

/-- PE of a predicate operand (R310). -/
def peOf : Option (BitVec 3) → BitVec 1
  | none => 0
  | some _ => 1

/-- PR of a predicate operand (R310). -/
def prOf : Option (BitVec 3) → BitVec 3
  | none => 0
  | some r => r

/-- A word of format R (R309). -/
def encR (m : BitVec 6) (d a b : BitVec 5) (f : BitVec 11) : W32 := m ++ d ++ a ++ b ++ f
/-- A word of format I or B (R309). -/
def encI (m : BitVec 6) (d a : BitVec 5) (i : BitVec 16) : W32 := m ++ d ++ a ++ i
/-- A word of the group SHI (R313). -/
def encS (m : BitVec 6) (d a : BitVec 5) (z : BitVec 8) (sel : BitVec 2) (n : BitVec 6) : W32 :=
  m ++ d ++ a ++ z ++ sel ++ n
/-- A word of format J (R309). -/
def encJ (m : BitVec 6) (d : BitVec 5) (o : BitVec 21) : W32 := m ++ d ++ o
/-- A word of format M (R309). -/
def encM (m : BitVec 6) (d a : BitVec 5) (o : BitVec 10) (sz : BitVec 2) (c : BitVec 4) : W32 :=
  m ++ d ++ a ++ o ++ sz ++ c
/-- A word of format A (R309). -/
def encA (m : BitVec 6) (d a b : BitVec 5) (f : BitVec 7) (c : BitVec 4) : W32 := m ++ d ++ a ++ b ++ f ++ c
/-- A word of format C (R309). -/
def encC (m : BitVec 6) (d a : BitVec 5) (ch : BitVec 6) (f : BitVec 10) : W32 := m ++ d ++ a ++ ch ++ f
/-- A word of format V (R309). -/
def encV (m : BitVec 6) (d a b : BitVec 5) (pe : BitVec 1) (pr : BitVec 3) (f : BitVec 7) : W32 :=
  m ++ d ++ a ++ b ++ pe ++ pr ++ f
/-- A word of format X (R309). -/
def encX (m : BitVec 6) (d a : BitVec 5) (f : BitVec 4) (c : BitVec 12) : W32 := m ++ d ++ a ++ f ++ c

/-- The word of an instruction, written from R309 to R314; an event row has none. -/
def encode (i : Instr) : Option W32 :=
  match i with
  | .add d a b => some (encR 0x01 d a b 0x0)
  | .sub d a b => some (encR 0x01 d a b 0x1)
  | .and d a b => some (encR 0x01 d a b 0x2)
  | .or d a b => some (encR 0x01 d a b 0x3)
  | .xor d a b => some (encR 0x01 d a b 0x4)
  | .sll d a b => some (encR 0x01 d a b 0x5)
  | .srl d a b => some (encR 0x01 d a b 0x6)
  | .sra d a b => some (encR 0x01 d a b 0x7)
  | .rol d a b => some (encR 0x01 d a b 0x8)
  | .ror d a b => some (encR 0x01 d a b 0x9)
  | .slt d a b => some (encR 0x01 d a b 0xa)
  | .sltu d a b => some (encR 0x01 d a b 0xb)
  | .min d a b => some (encR 0x01 d a b 0xc)
  | .max d a b => some (encR 0x01 d a b 0xd)
  | .minu d a b => some (encR 0x01 d a b 0xe)
  | .maxu d a b => some (encR 0x01 d a b 0xf)
  | .mul d a b => some (encR 0x01 d a b 0x10)
  | .mulh d a b => some (encR 0x01 d a b 0x11)
  | .mulhu d a b => some (encR 0x01 d a b 0x12)
  | .div d a b => some (encR 0x01 d a b 0x13)
  | .divu d a b => some (encR 0x01 d a b 0x14)
  | .rem d a b => some (encR 0x01 d a b 0x15)
  | .remu d a b => some (encR 0x01 d a b 0x16)
  | .andn d a b => some (encR 0x01 d a b 0x17)
  | .clz d a => some (encR 0x01 d a 0 0x18)
  | .ctz d a => some (encR 0x01 d a 0 0x19)
  | .popc d a => some (encR 0x01 d a 0 0x1a)
  | .sextb d a => some (encR 0x01 d a 0 0x1b)
  | .sexth d a => some (encR 0x01 d a 0 0x1c)
  | .sextw d a => some (encR 0x01 d a 0 0x1d)
  | .addw d a b => some (encR 0x01 d a b 0x1e)
  | .subw d a b => some (encR 0x01 d a b 0x1f)
  | .addi d a i => some (encI 0x02 d a i)
  | .andi d a i => some (encI 0x03 d a i)
  | .ori d a i => some (encI 0x04 d a i)
  | .xori d a i => some (encI 0x05 d a i)
  | .slti d a i => some (encI 0x06 d a i)
  | .sltiu d a i => some (encI 0x07 d a i)
  | .lui d i => some (encI 0x08 d 0 i)
  | .slli d a n => some (encS 0x09 d a 0 0x0 n)
  | .srli d a n => some (encS 0x09 d a 0 0x1 n)
  | .srai d a n => some (encS 0x09 d a 0 0x2 n)
  | .roli d a n => some (encS 0x09 d a 0 0x3 n)
  | .beq b a o => some (encI 0x0a b a o)
  | .bne b a o => some (encI 0x0b b a o)
  | .blt b a o => some (encI 0x0c b a o)
  | .bge b a o => some (encI 0x0d b a o)
  | .bltu b a o => some (encI 0x0e b a o)
  | .bgeu b a o => some (encI 0x0f b a o)
  | .jal d o => some (encJ 0x10 d o)
  | .jalr d a i => some (encI 0x11 d a i)
  | .nop => some (encR 0x12 0 0 0 0x0)
  | .commit => some (encR 0x12 0 0 0 0x1)
  | .yield => some (encR 0x12 0 0 0 0x2)
  | .aend => some (encR 0x12 0 0 0 0x3)
  | .trap a => some (encR 0x12 0 a 0 0x4)
  | .ldepth d => some (encR 0x12 d 0 0 0x5)
  | .csrr d c => some (encX 0x13 d 0 0x0 c)
  | .csrw d a c => some (encX 0x13 d a 0x1 c)
  | .csrs d a c => some (encX 0x13 d a 0x2 c)
  | .csrc d a c => some (encX 0x13 d a 0x3 c)
  | .lb d a o k => some (encM 0x14 d a o 0x0 k)
  | .lh d a o k => some (encM 0x14 d a o 0x1 k)
  | .lw d a o k => some (encM 0x14 d a o 0x2 k)
  | .ld d a o k => some (encM 0x14 d a o 0x3 k)
  | .lbz d a o k => some (encM 0x15 d a o 0x0 k)
  | .lhz d a o k => some (encM 0x15 d a o 0x1 k)
  | .lwz d a o k => some (encM 0x15 d a o 0x2 k)
  | .sb d a o k => some (encM 0x16 d a o 0x0 k)
  | .sh d a o k => some (encM 0x16 d a o 0x1 k)
  | .sw d a o k => some (encM 0x16 d a o 0x2 k)
  | .sd d a o k => some (encM 0x16 d a o 0x3 k)
  | .lgb d a o k => some (encM 0x17 d a o 0x0 k)
  | .lgh d a o k => some (encM 0x17 d a o 0x1 k)
  | .lgw d a o k => some (encM 0x17 d a o 0x2 k)
  | .lgd d a o k => some (encM 0x17 d a o 0x3 k)
  | .lgbz d a o k => some (encM 0x18 d a o 0x0 k)
  | .lghz d a o k => some (encM 0x18 d a o 0x1 k)
  | .lgwz d a o k => some (encM 0x18 d a o 0x2 k)
  | .sgb d a o k => some (encM 0x19 d a o 0x0 k)
  | .sgh d a o k => some (encM 0x19 d a o 0x1 k)
  | .sgw d a o k => some (encM 0x19 d a o 0x2 k)
  | .sgd d a o k => some (encM 0x19 d a o 0x3 k)
  | .vl d a o k => some (encM 0x1a d a o 0x0 k)
  | .vs d a o k => some (encM 0x1a d a o 0x1 k)
  | .vlg d a o k => some (encM 0x1a d a o 0x2 k)
  | .vsg d a o k => some (encM 0x1a d a o 0x3 k)
  | .recv d n => some (encC 0x1b d 0 n 0x0)
  | .recvv d n => some (encC 0x1b d 0 n 0x1)
  | .peek d a n => some (encC 0x1b d a n 0x2)
  | .peekv d a n => some (encC 0x1b d a n 0x3)
  | .send a n => some (encC 0x1b 0 a n 0x4)
  | .sendv a n => some (encC 0x1b 0 a n 0x5)
  | .sendn a n => some (encC 0x1b 0 a n 0x6)
  | .sendm d a n => some (encC 0x1b d a n 0x7)
  | .sendmv d a n => some (encC 0x1b d a n 0x8)
  | .chcnt d n => some (encC 0x1b d 0 n 0x9)
  | .chfree d n => some (encC 0x1b d 0 n 0xa)
  | .aadd d a b k => some (encA 0x1c d a b 0x0 k)
  | .aand d a b k => some (encA 0x1c d a b 0x1 k)
  | .aor d a b k => some (encA 0x1c d a b 0x2 k)
  | .axor d a b k => some (encA 0x1c d a b 0x3 k)
  | .amin d a b k => some (encA 0x1c d a b 0x4 k)
  | .amax d a b k => some (encA 0x1c d a b 0x5 k)
  | .aminu d a b k => some (encA 0x1c d a b 0x6 k)
  | .amaxu d a b k => some (encA 0x1c d a b 0x7 k)
  | .aswap d a b k => some (encA 0x1c d a b 0x8 k)
  | .acas d a b k => some (encA 0x1c d a b 0x9 k)
  | .fence s m => some (encI 0x1d s 0 m)
  | .bar n => some (encR 0x1e n 0 0 0x0)
  | .subs a => some (encR 0x1e 0 a 0 0x1)
  | .unsubs a => some (encR 0x1e 0 a 0 0x2)
  | .vadd d a b p => some (encV 0x20 d a b (peOf p) (prOf p) 0x0)
  | .vsub d a b p => some (encV 0x20 d a b (peOf p) (prOf p) 0x1)
  | .vmul d a b p => some (encV 0x20 d a b (peOf p) (prOf p) 0x2)
  | .vmulh d a b p => some (encV 0x20 d a b (peOf p) (prOf p) 0x3)
  | .vmulhu d a b p => some (encV 0x20 d a b (peOf p) (prOf p) 0x4)
  | .vand d a b p => some (encV 0x20 d a b (peOf p) (prOf p) 0x5)
  | .vor d a b p => some (encV 0x20 d a b (peOf p) (prOf p) 0x6)
  | .vxor d a b p => some (encV 0x20 d a b (peOf p) (prOf p) 0x7)
  | .vandn d a b p => some (encV 0x20 d a b (peOf p) (prOf p) 0x8)
  | .vnot d a p => some (encV 0x20 d a 0 (peOf p) (prOf p) 0x9)
  | .vsll d a b p => some (encV 0x20 d a b (peOf p) (prOf p) 0xa)
  | .vsrl d a b p => some (encV 0x20 d a b (peOf p) (prOf p) 0xb)
  | .vsra d a b p => some (encV 0x20 d a b (peOf p) (prOf p) 0xc)
  | .vmin d a b p => some (encV 0x20 d a b (peOf p) (prOf p) 0xd)
  | .vmax d a b p => some (encV 0x20 d a b (peOf p) (prOf p) 0xe)
  | .vminu d a b p => some (encV 0x20 d a b (peOf p) (prOf p) 0xf)
  | .vmaxu d a b p => some (encV 0x20 d a b (peOf p) (prOf p) 0x10)
  | .vabs d a p => some (encV 0x20 d a 0 (peOf p) (prOf p) 0x11)
  | .vneg d a p => some (encV 0x20 d a 0 (peOf p) (prOf p) 0x12)
  | .vceq d a b p => some (encV 0x20 d a b (peOf p) (prOf p) 0x13)
  | .vclt d a b p => some (encV 0x20 d a b (peOf p) (prOf p) 0x14)
  | .vcltu d a b p => some (encV 0x20 d a b (peOf p) (prOf p) 0x15)
  | .vcle d a b p => some (encV 0x20 d a b (peOf p) (prOf p) 0x16)
  | .vcleu d a b p => some (encV 0x20 d a b (peOf p) (prOf p) 0x17)
  | .vsel d a b p => some (encV 0x20 d a b (peOf p) (prOf p) 0x18)
  | .vfadd d a b p => some (encV 0x21 d a b (peOf p) (prOf p) 0x0)
  | .vfsub d a b p => some (encV 0x21 d a b (peOf p) (prOf p) 0x1)
  | .vfmul d a b p => some (encV 0x21 d a b (peOf p) (prOf p) 0x2)
  | .vfdiv d a b p => some (encV 0x21 d a b (peOf p) (prOf p) 0x3)
  | .vfma d a b p => some (encV 0x21 d a b (peOf p) (prOf p) 0x4)
  | .vfms d a b p => some (encV 0x21 d a b (peOf p) (prOf p) 0x5)
  | .vfnma d a b p => some (encV 0x21 d a b (peOf p) (prOf p) 0x6)
  | .vfsqrt d a p => some (encV 0x21 d a 0 (peOf p) (prOf p) 0x7)
  | .vfmin d a b p => some (encV 0x21 d a b (peOf p) (prOf p) 0x8)
  | .vfmax d a b p => some (encV 0x21 d a b (peOf p) (prOf p) 0x9)
  | .vfabs d a p => some (encV 0x21 d a 0 (peOf p) (prOf p) 0xa)
  | .vfneg d a p => some (encV 0x21 d a 0 (peOf p) (prOf p) 0xb)
  | .vfceq d a b p => some (encV 0x21 d a b (peOf p) (prOf p) 0xc)
  | .vfclt d a b p => some (encV 0x21 d a b (peOf p) (prOf p) 0xd)
  | .vfcle d a b p => some (encV 0x21 d a b (peOf p) (prOf p) 0xe)
  | .vfclass d a p => some (encV 0x21 d a 0 (peOf p) (prOf p) 0xf)
  | .vcvta d a q p => some (encV 0x22 d a q (peOf p) (prOf p) 0x0)
  | .vcvtm d a q p => some (encV 0x22 d a q (peOf p) (prOf p) 0x1)
  | .vcvts d a b p => some (encV 0x22 d a b (peOf p) (prOf p) 0x2)
  | .vmxe d a q => some (encV 0x22 d a q 0 0 0x3)
  | .vmxd d a q => some (encV 0x22 d a q 0 0 0x4)
  | .vsde d a => some (encV 0x22 d a 0 0 0 0x5)
  | .vsdd d a => some (encV 0x22 d a 0 0 0 0x6)
  | .vradd d a p => some (encV 0x23 d a 0 (peOf p) (prOf p) 0x0)
  | .vrmin d a p => some (encV 0x23 d a 0 (peOf p) (prOf p) 0x1)
  | .vrmax d a p => some (encV 0x23 d a 0 (peOf p) (prOf p) 0x2)
  | .vrminu d a p => some (encV 0x23 d a 0 (peOf p) (prOf p) 0x3)
  | .vrmaxu d a p => some (encV 0x23 d a 0 (peOf p) (prOf p) 0x4)
  | .vrand d a p => some (encV 0x23 d a 0 (peOf p) (prOf p) 0x5)
  | .vror d a p => some (encV 0x23 d a 0 (peOf p) (prOf p) 0x6)
  | .vrxor d a p => some (encV 0x23 d a 0 (peOf p) (prOf p) 0x7)
  | .wadd d a p => some (encV 0x23 d a 0 (peOf p) (prOf p) 0x8)
  | .wrd d a p => some (encV 0x23 d a 0 (peOf p) (prOf p) 0x9)
  | .wclr d p => some (encV 0x23 d 0 0 (peOf p) (prOf p) 0xa)
  | .wcpy d a f => some (encV 0x23 d a f 0 0 0xb)
  | .pand d a b => some (encV 0x24 d a b 0 0 0x0)
  | .por d a b => some (encV 0x24 d a b 0 0 0x1)
  | .pxor d a b => some (encV 0x24 d a b 0 0 0x2)
  | .pandn d a b => some (encV 0x24 d a b 0 0 0x3)
  | .pnot d a => some (encV 0x24 d a 0 0 0 0x4)
  | .pset d => some (encV 0x24 d 0 0 0 0 0x5)
  | .pclr d => some (encV 0x24 d 0 0 0 0 0x6)
  | .pmovs d a => some (encV 0x24 d a 0 0 0 0x7)
  | .pmovd d a => some (encV 0x24 d a 0 0 0 0x8)
  | .pfirst d a => some (encV 0x24 d a 0 0 0 0x9)
  | .pcnt d a => some (encV 0x24 d a 0 0 0 0xa)
  | .vsgo a => some (encV 0x25 0 a 0 0 0 0x0)
  | .vswt => some (encV 0x25 0 0 0 0 0 0x1)
  | .vsdadd d a b => some (encV 0x25 d a b 0 0 0x2)
  | .vsdsub d a b => some (encV 0x25 d a b 0 0 0x3)
  | .vsdmul d a b => some (encV 0x25 d a b 0 0 0x4)
  | .vsdcut d a m => some (encV 0x25 d a m 0 0 0x5)
  | .vsdcmp d a b => some (encV 0x25 d a b 0 0 0x6)
  | .vjoin d a b => some (encV 0x25 d a b 0 0 0x7)
  | .vjoinu d a b => some (encV 0x25 d a b 0 0 0x8)
  | .grit d => some (encV 0x26 d 0 0 0 0 0x0)
  | .gritv d => some (encV 0x26 d 0 0 0 0 0x1)
  | .gritc d a => some (encV 0x26 d a 0 0 0 0x2)
  | .vsmpc d a p => some (encV 0x26 d a 0 (peOf p) (prOf p) 0x3)
  | .vsmpk d a b p => some (encV 0x26 d a b (peOf p) (prOf p) 0x4)
  | .vsmpn d a b p => some (encV 0x26 d a b (peOf p) (prOf p) 0x5)
  | .vmov d a p => some (encV 0x27 d a 0 (peOf p) (prOf p) 0x0)
  | .vbcast d a p => some (encV 0x27 d a 0 (peOf p) (prOf p) 0x1)
  | .vins d a b => some (encV 0x27 d a b 0 0 0x2)
  | .vext d a b => some (encV 0x27 d a b 0 0 0x3)
  | .vperm d a b p => some (encV 0x27 d a b (peOf p) (prOf p) 0x4)
  | .vrot d a b p => some (encV 0x27 d a b (peOf p) (prOf p) 0x5)
  | .vzip d a b => some (encV 0x27 d a b 0 0 0x6)
  | .vunzip d a b => some (encV 0x27 d a b 0 0 0x7)
  | .sclaim h => some (encR 0x28 h 0 0 0x0)
  | .srel h => some (encR 0x28 h 0 0 0x1)
  | .mctx c h => some (encR 0x28 c h 0 0x2)
  | .mrow c a b => some (encR 0x28 c a b 0x3)
  | .mrowc c n b => some (encR 0x28 c n b 0x4)
  | .mrep c r b => some (encR 0x28 c r b 0x5)
  | .mzero c => some (encR 0x28 c 0 0 0x6)
  | .mdrain c a b => some (encR 0x28 c a b 0x7)
  | .mwait => some (encR 0x28 0 0 0 0x8)
  | .tsld d a => some (encR 0x29 d a 0 0x0)
  | .tsst d a => some (encR 0x29 d a 0 0x1)
  | .tsmv d a b => some (encR 0x29 d a b 0x2)
  | .tsslot h a => some (encR 0x29 h a 0 0x3)
  | .slotts h a => some (encR 0x29 h a 0 0x4)
  | .hrts d a b => some (encR 0x29 d a b 0x5)
  | .tshr d a b => some (encR 0x29 d a b 0x6)
  | .sarm a => some (encR 0x2a 0 a 0 0x0)
  | .sdis a => some (encR 0x2a 0 a 0 0x1)
  | .sbind a => some (encR 0x2a 0 a 0 0x2)
  | .sunbind a => some (encR 0x2a 0 a 0 0x3)
  | .skick d a => some (encR 0x2a d a 0 0x4)
  | .swait a => some (encR 0x2a 0 a 0 0x5)
  | .brd d a b => some (encR 0x2b d a b 0x0)
  | .bwr d a b => some (encR 0x2b d a b 0x1)
  | .bfill d a b => some (encR 0x2b d a b 0x2)
  | .mbrel a => some (encR 0x2b 0 a 0 0x3)
  | .cfgld k a => some (encR 0x2c k a 0 0x0)
  | .cfgdrn => some (encR 0x2c 0 0 0 0x1)
  | .cfgset c a => some (encR 0x2c c a 0 0x2)
  | .cfgrun => some (encR 0x2c 0 0 0 0x3)
  | .launch d a b => some (encR 0x2d d a b 0x0)
  | .compat m x => some ((0xF#4 ++ m ++ x : BitVec 32))
  | .powerOnReset => none
  | .limitReset _ => none
  | .perst => none
  | .mreset _ => none
  | .fwhalt _ => none
  | .functionReset _ _ => none
  | .linkReset _ => none
  | .linkdown _ => none
  | .coolingWarning => none
  | .coolingCap => none
  | .coolingCapClear => none
  | .coolingShutdown => none
  | .coolingRecovery _ => none
  | .loadfw _ _ => none
  | .worldreq _ _ => none
  | .enrol _ _ => none
  | .svnraise _ _ => none
  | .mailboxBadcmd _ => none
  | .mailboxDone => none
  | .firmwareStart _ _ => none
  | .bringupComplete _ _ _ _ _ => none
  | .spdmMeasurement _ => none
  | .registerWrite _ => none
  | .poisonedRegisterWrite _ _ _ => none
  | .qtailWrite _ => none
  | .queueEnable _ => none
  | .queueDisable _ => none
  | .qctlKill _ => none
  | .qctlReset _ => none
  | .recordFetch _ _ => none
  | .imageVerify _ _ => none
  | .dispatchDecision => none
  | .configLoadDone _ _ => none
  | .weldWavefront _ _ => none
  | .quenchMarker _ _ => none
  | .quenchComplete _ => none
  | .graphEnd _ => none
  | .deadlockDetect _ => none
  | .jobRetire _ => none
  | .klrefill _ => none
  | .leaseAdd _ => none
  | .energyCharge _ _ _ => none
  | .thermalRead _ _ => none
  | .thermalStep _ => none
  | .powerWindow _ => none
  | .barrierPass _ _ _ => none
  | .moveStateCopy _ => none
  | .moveRetarget _ => none
  | .moveAbandon _ => none
  | .relocationMarker _ _ => none
  | .ageingMeasure _ _ _ => none
  | .firingBoundary _ => none
  | .tokenArrival _ _ _ => none
  | .endMark _ _ => none
  | .commitContinue _ => none
  | .uncorrectableError _ _ => none
  | .tileScrub _ _ => none
  | .slotClaimGrant _ => none
  | .rowFiring _ _ _ => none
  | .repeatGroup _ _ _ => none
  | .laneElementFire _ _ => none
  | .streamRunDone _ => none
  | .siltCopyStart _ => none
  | .boundKick _ _ => none
  | .kickRegisterWrite _ _ _ => none
  | .mailboxEvent _ _ => none
  | .mptrcRead _ _ => none
  | .memportRead _ _ => none
  | .memportWrite _ _ => none
  | .memportNull _ _ => none
  | .memportPerform _ _ _ => none
  | .replyRelease _ _ => none
  | .requesterEnd _ _ => none
  | .baseDieScrub _ _ => none
  | .expanderFail _ _ => none
  | .globalAccessPerform _ => none
  | .ticketRetry _ => none
  | .ticketFail _ => none
  | .fluxStart _ => none
  | .fluxEmerge _ => none
  | .atsInvalidate _ _ _ _ => none
  | .atsTranslationResponse _ _ _ => none
  | .priResponse _ _ => none
  | .streamElementIssue _ _ => none
  | .streamElementComplete _ _ _ => none
  | .hostBar2Read _ _ _ => none
  | .hostBar2Write _ _ _ _ => none
  | .peerInboundRead _ _ _ _ => none
  | .peerInboundWrite _ _ _ _ _ => none
  | .peerInboundAtomic _ _ _ _ _ _ _ => none
  | .peerDomainFence _ _ => none
  | .peerResponse _ _ _ _ _ => none
  | .requestExpire _ => none
  | .outboundRequestSend _ => none
  | .peerActivate _ => none
  | .peerDisable _ => none
  | .linkPortEnable _ => none
  | .linkPortDisable _ => none
  | .reduceContribution _ _ => none
  | .reduceResult _ _ _ => none
  | .assayRun _ => none
  | .assayComplete _ _ _ _ => none
  | .worldTableWrite _ => none
  | .plotWorldChange _ => none
  | .regionWorldChange _ => none
  | .illegalInstruction _ => none
  | .moduleLeavesReset => none
  | .linkTrained _ _ _ _ _ => none
  | .hostCompletion _ _ _ => none

/-- The word of an instruction, as a tval gives it (R283). -/
def wordOf (i : Instr) : W64 :=
  match encode i with
  | some w => w.zeroExtend 64
  | none => 0

/-- The word of four bytes, the least significant at the lowest address (R4, R308). -/
def wordOfBytes (b0 b1 b2 b3 : Byte) : W32 := b3 ++ b2 ++ b1 ++ b0

/-- Reads one control word from bytes, and gives the rest (R308). -/
def decodeBytes : List Byte → Except Reject (Instr × List Byte)
  | b0 :: b1 :: b2 :: b3 :: t => (decode (wordOfBytes b0 b1 b2 b3)).map (fun i => (i, t))
  | _ => .error .tooShort

/-- The bytes of a word, the least significant first (R4). -/
def bytesOfWord (w : W32) : List Byte :=
  [w.extractLsb' 0 8, w.extractLsb' 8 8, w.extractLsb' 16 8, w.extractLsb' 24 8]

/-- What the decoder reads from an instruction given as a number, as the table numbers its bits. -/
def decodeTableWord (_nbits w : Nat) : Option Instr :=
  match decodeBytes (bytesOfWord (BitVec.ofNat 32 w)) with
  | .ok (i, _) => some i
  | .error _ => none

end Sys2Proof
end

