-- ==== Sys2Proof/Config.lean ====
section
/-! DEFINITION. What one part fixes and the spec does not state: fused values, free values and the
functions of other standards. Each is opaque: no proof can see a value of it. -/

namespace Sys2Proof.Config

/-- The fused ceiling of a compute tile above the floor of 44 steps (R120); see `fceil`. -/
opaque fusedCeil : Nat → Nat
/-- The ceiling step a tile leaves manufacture with: 44 to 68 (R120). -/
def fceil (t : Nat) : Nat := 44 + fusedCeil t % 25
/-- The fused curve: voltage code of a step of a block, 0 to 80 (R119, R146). -/
opaque fusedVolt : Nat → Nat → Nat
/-- The line through the last measurements of a tile, ages in hours each with its DRIFT: DRIFT at age t is (a · t + b) / (d + 1). The spec
does not say which line (R140). -/
opaque lifeLine : List (Nat × Nat) → Int × Int × Nat
/-- The hours of a month, less one (R140). -/
opaque monthHours : Nat
/-- The translation that the platform's domain has made for an address in a request of a peer, if it shares one: the PASID, the page's
virtual address, its size and its physical address (R25). -/
opaque preTranslated (peer addr : Nat) : Option (Nat × Nat × Nat × Nat)
/-- LPDDR behind a stack, in GiB (R39): at most 128. -/
opaque lpddrGiB : Nat → Nat
/-- The fused secret of the part, which no register exposes and from which its identity key pair derives (R84). -/
opaque identitySecret : Nat
/-- The check code over bits 63:8 of a flit's side information (R167): the spec names no code. -/
opaque flitCheck : Nat → Nat
/-- The bytes of first-tier memory that firmware reserves for the verified copies of images (R81). -/
opaque copyRoom : Nat
/-- ML-DSA-44 signing with a key derived from a secret (R84). -/
opaque mldsaSign : Nat → List Byte → List Byte
/-- ML-DSA-44 key generation: the public key of a secret (R84). -/
opaque mldsaPublic : Nat → List Byte
/-- The attestation key secret of a firmware digest (R84). -/
opaque attestSecret : Nat → BitVec 256 → Nat
/-- The digest of the boot ROM (R84). -/
opaque romDigest : BitVec 256
/-- The SHA3-256 digest of the Hiwald root key, fused (R83). -/
opaque rootDigest : BitVec 256
/-- The parts of a firmware image, whose layout the spec does not give (R82): the offset of its signature block, the public key, the
signature and the security version. -/
opaque fwParts : List Byte → Nat × List Byte × List Byte × Nat
/-- Verification under the platform owner's key, of which the fuses hold the digest (R66, R83): key digest, digest,
context, signature. -/
opaque ownerVerify : BitVec 256 → BitVec 256 → List Byte → List Byte → Bool
/-- What first-tier bytes that a module reset leaves unrefreshed become (R61): none where the byte is kept. -/
opaque lostByte : Nat → Nat → Option Byte
/-- A choice that the spec leaves unspecified (R8): a fresh number for each use. -/
opaque freeChoice : Nat → Nat
/-- A 64-bit value that the spec does not state. -/
opaque freeWord : Nat → W64
/-- The value of a commit overflow by a kick record, which the spec does not state (R283, R405), of the engine and the record. -/
opaque openKick : Nat → BitVec 512 → W64
/-- The port that a hash picks for a pair (target, class) among a number of usable ports (R23). -/
opaque pairHash : Nat → Nat → Nat
/-- The check syndrome of an error record (R299). -/
opaque syndrome : Nat → W64
/-- Whether a magnitude m · 2^e that an SD8 group holds inexactly lies below the smallest normal, which the spec does not
name (R258, R268). -/
opaque sdUnderflow : Nat → Int → Bool
/-- The bytes of a reply that the spec does not state (R42), of the header's bytes. -/
opaque openReply : BitVec 512 → BitVec 512
/-- The order of two sampling keys that bounded arithmetic could not separate (R387). -/
opaque keyOrder : Nat → Nat → Int → Nat → Bool
/-- The comparison of a sampling mass that bounded arithmetic could not decide (R388). -/
opaque massBelow : List (Int × Nat) → Nat → Bool
/-- The bytes of a context image beyond those that `Graph.contextBytes` counts (R172, R304). -/
opaque contextSlack : Nat → Nat

end Sys2Proof.Config
end

