-- ==== Sys2Proof/Machine/State.lean ====
section
/-! DEFINITION. The state of the part as plain data, the reasons a step can stop, and the state after reset. -/

namespace Sys2Proof.Machine

/-- Bytes at addresses, with the 8-byte granules that carry the poison mark (R49, R296). A byte that is
not listed reads as zero; a listed byte is not zero. DESIGN CHOICE, notes/assumptions/1.md -/
structure Memory where
  cells : List Host.Cell := []
  bad : List Nat := []
  deriving DecidableEq, Repr, Inhabited

/-- Numbers rising strictly. -/
def rises : List Nat → Bool
  | [] => true
  | [_] => true
  | i :: j :: t => decide (i < j) && rises (j :: t)

/-- The canonical form of a memory: addresses rise, no listed byte is zero, poisoned granules rise. -/
def Memory.wf (m : Memory) : Bool :=
  rises (m.cells.map (·.1)) && m.cells.all (fun c => c.2 ≠ 0) && rises m.bad

/-- A scalar register with its dross bit (R175, R276) and the accesses it still waits for (R348). -/
structure SReg where
  val : W64 := 0
  dross : Bool := false
  pend : List Nat := []
  deriving DecidableEq, Repr, Inhabited

/-- A vector register with a dross bit for each byte lane (R276) and the accesses it waits for. -/
structure VReg where
  val : V512 := 0
  dross : W64 := 0
  pend : List Nat := []
  deriving DecidableEq, Repr, Inhabited

/-- The registers of a sequencer's firing or of a Silt engine (R175, R197). -/
structure Regs where
  pc : Int := 0
  s : Tab SReg := []
  v : Tab VReg := []
  p : Tab W64 := []
  deriving DecidableEq, Repr, Inhabited

/-- One lane of an ingot register (R272). -/
structure Ingot where
  sum : BitVec 310 := 0
  pinf : Bool := false
  ninf : Bool := false
  nan : Bool := false
  dross : Bool := false
  deriving DecidableEq, Repr, Inhabited

/-- Configuration words, stream operation words and lane switch halves of sixteen elements (R186, R317, R318). -/
structure LaneSet where
  cfg : Tab W32 := []
  op : Tab W32 := []
  sw : Tab (BitVec 16) := []
  deriving DecidableEq, Repr, Inhabited

/-- An accumulator value with its dross bit (R183). -/
structure Acc where
  val : W32 := 0
  dross : Bool := false
  deriving DecidableEq, Repr, Inhabited

/-- A matrix context: its word (R180), accumulators at 64 · row + column, flag register (R183) and the
row firings performed since configuration load (R294). -/
structure Mctx where
  word : W32 := 0
  acc : Tab Acc := []
  flags : BitVec 5 := 0
  count : Nat := 0
  deriving DecidableEq, Repr, Inhabited

/-- An operand slot handle: declared format, claim and contents (R178). -/
structure Slot where
  fmt : Nat := 0
  claimed : Bool := false
  mem : Memory := {}
  deriving DecidableEq, Repr, Inhabited

/-- The group a repeat node is emitting, with the tokens of a row (R184, R439): `arose` where its count token makes dross arise (R275, R277). -/
structure Emission where
  times : Nat
  dross : Bool
  toks : Nat
  arose : Bool := false
  em : Nat := 0
  row : Nat := 0
  deriving DecidableEq, Repr, Inhabited

/-- A repeat node bound to an actor (R184, R438): its channels, rows per group, tokens per row, the group being emitted, and the count
tokens and row tokens of the groups taken that are still in the channels (R439). -/
structure RepNode where
  rowCh : Nat
  cntCh : Nat
  group : Nat
  toks : Nat
  cur : Option Emission := none
  taken : Nat := 0
  gone : Nat := 0
  deriving DecidableEq, Repr, Inhabited

/-- A copy that an actor kicked, until its completion firing has ended (R160, R201): `released` once the engine
has released its mailbox, `done` once the mailbox event has reached the tile; `bound` where a bound template made
the copy (R202), `waited` where a committed firing has waited for it (R160). -/
structure Completion where
  uid : Nat
  cxid : W64
  cxst : BitVec 2 := 0
  handler : Nat
  released : Bool := false
  done : Bool := false
  bound : Bool := false
  waited : Bool := false
  deriving DecidableEq, Repr, Inhabited

/-- A trap on its way to a fault actor or to a host fault queue (R286, R289). -/
structure Cause where
  code : Nat
  tval : W64 := 0
  tpc : Nat := 0
  aid : Nat := 0
  suspends : Bool := true
  wr : Bool := false
  pasid : Nat := 0
  deriving DecidableEq, Repr, Inhabited

/-- An actor (R147) with its allocation, the physical endpoints of its tile that its own ones are mapped onto, its own state and the values its last commit left.
`held` lists the firings that a ticket holds back, each with its kind, 0 ordinary, 1 completion, 2 fault, and its ticket (R232);
`closing` holds once a completion firing has executed aend and others are pending (R342).
DESIGN CHOICE, notes/assumptions/5.md -/
structure Actor where
  aid : Nat := 0
  alloy : Nat := 0
  pos : Nat × Nat := (0, 0)
  ltile : Nat := 0
  slot : Nat := 0
  tile : Nat := 0
  tgen : W32 := 0
  code : Memory := {}
  codeLen : Nat := 0
  ramLen : Nat := 0
  rows : Nat := 0
  ins : Tab Nat := []
  outs : Tab Nat := []
  inCh : Tab Nat := []
  outCh : Tab (List Nat) := []
  physIn : Tab Nat := []
  physOut : Tab Nat := []
  hram : Memory := {}
  tstore : Memory := {}
  slots : Tab Slot := []
  ctxs : Tab Mctx := []
  lane : LaneSet := {}
  gctr : W64 := 0
  fflags : BitVec 5 := 0
  w0 : Tab Ingot := []
  w1 : Tab Ingot := []
  nodes : Tab RepNode := []
  loaded : Bool := true
  ended : Bool := false
  closing : Bool := false
  suspended : Bool := false
  asleep : Bool := false
  held : List (Nat × Nat) := []
  comps : List Completion := []
  deliveries : List Cause := []
  gens : Tab Nat := []
  pressure : Nat := 0
  subs : List Nat := []
  deriving DecidableEq, Repr, Inhabited

/-- A token (R161): null, its bytes and its dross bit. -/
structure Token where
  null : Bool := false
  data : V512 := 0
  dross : Bool := false
  deriving DecidableEq, Repr, Inhabited

/-- An end of a channel: an actor's endpoint, a repeat-node input (R438), a memory stream or a requester. -/
inductive EndPt
  | actor (aid ep : Nat)
  | node (aid n : Nat) (count : Bool)
  | stream (n : Nat)
  deriving DecidableEq, Repr, Inhabited

/-- A channel (R161): tokens in its buffer, tokens released and not yet arrived, and its end mark. -/
structure Chan where
  src : EndPt := .stream 0
  dst : EndPt := .stream 0
  width : Nat := 64
  cap : Nat := 1
  back : Bool := false
  comm : Bool := false
  buf : List Token := []
  transit : List Token := []
  ending : Bool := false
  ended : Bool := false
  deriving DecidableEq, Repr, Inhabited

/-- Where an address leads (R206). -/
inductive Target
  | loc (pa : Nat)
  | reg (off : Nat)
  | host (link addr : Nat)
  | peer (q addr : Nat)
  | none (pa : Nat)
  deriving DecidableEq, Repr, Inhabited

/-- The kinds of memory stream (R234, R36). -/
inductive StreamKind
  | read | write | accum | requester | reduce
  deriving DecidableEq, Repr, Inhabited

/-- A cached translation (R228, R231): its node, PASID, page, size exponent, result and write permission. -/
structure TlbEntry where
  node : Nat
  pasid : Nat
  va : Nat
  sh : Nat
  tgt : Nat
  w : Bool
  deriving DecidableEq, Repr, Inhabited

/-- Where an element of a stream stands (R236, R237). -/
inductive ElemState
  | issued (tgt : List (Target × Nat))
  | spilled (ticket : Nat)
  | external (got : List (Option (List (Byte × Bool)))) (tgt : List (Target × Nat))
  | read (t : Token)
  deriving DecidableEq, Repr, Inhabited

/-- An element in a stream's issue window (R236): `failed` lists its pages whose ticket was failed (R230), `nodes` the port
tiles that have translated it (R241), and `late` marks one that has walked again (R237). -/
structure Elem where
  idx : Nat
  nodes : List Nat := []
  late : Bool := false
  va : Nat := 0
  len : Nat := 0
  tok : Token := {}
  failed : List Nat := []
  st : ElemState
  deriving DecidableEq, Repr, Inhabited

/-- An operation of a domain all-reduce (R36): its number and this part's contribution. -/
structure ReduceOp where
  idx : Nat
  own : List (Byte × Bool)
  deriving DecidableEq, Repr, Inhabited

/-- A memory stream, a requester binding or a reduction stream (R234, R36, section 0x08 of R328). `got` are the tokens gathered
for the next contribution, and `results` those of results that have not yet entered the result channel. -/
structure Stream where
  port : Nat := 0
  kind : StreamKind := .read
  mode : Nat := 0
  cls : Nat := 0
  op : Nat := 0
  chan : Nat := 0
  ichan : Nat := 0
  base : Nat := 0
  count : List Nat := []
  stride : List Int := []
  next : Nat := 0
  window : List Elem := []
  latched : Option TlbEntry := none
  ended : Bool := false
  members : List Nat := []
  ops : List ReduceOp := []
  got : List Token := []
  results : List Token := []
  deriving DecidableEq, Repr, Inhabited

/-- A Silt template as its graph loaded it (R197, R404): the engine, its number, the issuing aid, the
parameter block, and its armed and bound state. -/
structure Template where
  port : Nat := 0
  num : Nat := 0
  aid : Nat := 0
  params : List W64 := []
  armed : Bool := false
  declCh : Option Nat := none
  declQ : Option Nat := none
  bound : Bool := false
  deriving DecidableEq, Repr, Inhabited

/-- An alloy (R168): its members, barriers, the generations of each that are complete (R169), round count (R128),
package limit (R126), and the TTHROT of its round (R144). -/
structure Alloy where
  members : List Nat := []
  barriers : Nat := 0
  gens : Tab Nat := []
  rounds : Nat := 0
  limit : Nat := 68
  tthrot : Nat := 95
  deriving DecidableEq, Repr, Inhabited

/-- An entry of a tile's range scoreboard (R193). -/
structure SbEntry where
  aid : Nat
  tstore : Bool
  into : Bool
  lo : Nat
  hi : Nat
  uid : Nat
  deriving DecidableEq, Repr, Inhabited

/-- How far the quench of a graph has come (R171): the nodes saved, whether the cap bound in the last window before it (R139), and
whether an empty account has stopped the graph (R137). -/
structure Quench where
  saved : List Nat := []
  bound : Bool := false
  stall : Bool := false
  deriving DecidableEq, Repr, Inhabited

/-- The phase of a placed or saved graph. -/
inductive GPhase
  | loading | resident | quenching | saved
  deriving DecidableEq, Repr, Inhabited

/-- The fault actor of a graph (R285). -/
structure FaultActor where
  aid : Nat
  handler : Nat
  area : Nat
  deriving DecidableEq, Repr, Inhabited

/-- A kick record waiting in an engine's kick queue (R201): `seg` is the segment it starts at (R409), `subs` the
subscribers of its broadcast as it was kicked (R166), `dross` set where its restart record was restored with dross (R306). -/
structure Kick where
  job : Nat
  aid : Nat
  kr : V512
  tmpl : Nat
  uid : Nat
  seg : Nat := 0
  subs : List Nat := []
  dross : Bool := false
  deriving DecidableEq, Repr, Inhabited

/-- A request a memory port has taken, in one tag (R44, R46): `noOp` where its OP names no operation (R42). `data` is a WRITE's data
token or a READ's header; `part` holds the granules that have been performed with what they returned (R209), and `met` marks a
WRITE that has met poison (R49). -/
structure TagEntry where
  tag : Nat
  seq : Nat
  write : Bool
  noOp : Bool := false
  bad : Option Nat := none
  addr : Nat := 0
  cls : Nat := 0
  mask : W64 := 0
  data : Token := {}
  tgt : Option Target := none
  ticket : Option Nat := none
  part : Tab (List (Byte × Bool)) := []
  met : Bool := false
  reply : Option Token := none
  deriving DecidableEq, Repr, Inhabited

/-- A requester bound to a port (R40, R44). -/
structure Requester where
  job : Nat
  stream : Nat
  nextTag : Nat := 0
  seq : Nat := 0
  tags : List TagEntry := []
  ended : Bool := false
  deriving DecidableEq, Repr, Inhabited

/-- A loaded, running or saved graph: its placement, its parts, its quench and the copies that the quench parked,
each with its engine, with the requesters that it bound, each with its port (R96 to R104, R171, R409, R55). `fabric` holds
the fabric switch words of its routes (R319), each with its router and channel, and `micro` the spans of microcode
that it loaded, each with its engine (R197). -/
structure Graph where
  variant : Nat := 0
  origin : Nat := 0
  wp : Nat := 1
  hp : Nat := 1
  used : List Nat := []
  phase : GPhase := .loading
  recheck : Nat := 0
  rotn : Nat := 0
  instId : W32 := 0
  key : List W32 := []
  argsDone : Bool := false
  fabric : List (Nat × Nat × BitVec 16) := []
  micro : List (Nat × Nat × Nat) := []
  actors : Tab Actor := []
  chans : Tab Chan := []
  streams : Tab Stream := []
  templates : List Template := []
  alloys : Tab Alloy := []
  sb : List SbEntry := []
  fault : Option FaultActor := none
  quench : Option Quench := none
  halfRow : Bool := false
  parked : List (Nat × Kick) := []
  parkedReqs : List (Nat × Requester) := []
  deriving DecidableEq, Repr, Inhabited

/-- The kinds of firing (R148, R160, R286). -/
inductive FKind
  | ordinary
  | completion (cxid : W64) (cxst : BitVec 2)
  | fault (c : Cause)
  deriving DecidableEq, Repr, Inhabited

/-- The two spaces of ordinary stores (R204). -/
inductive Space
  | hram | glob
  deriving DecidableEq, Repr, Inhabited

/-- What a firing holds for commit step 3, in program order (R151, R152, R411, R413). A store record is one
granule's part of a store: its bytes each with a dross bit, the number of the store it is a part of, and the
accesses that a fence puts before it (R218). A posted record only serves the forwarding of R350. -/
inductive CItem
  | store (sp : Space) (addr cls grp : Nat) (tgt : Target) (bytes : List (Byte × Bool)) (after : List Nat)
  | posted (sp : Space) (addr : Nat) (bytes : List (Byte × Bool))
  | atomic (addr cls : Nat) (tgt : Target) (op : AtomOp) (data : W64) (dross : Bool) (after : List Nat)
  | fence (mask : Nat) (domain : Bool)
  deriving DecidableEq, Repr, Inhabited

/-- What a firing holds for commit step 6, in program order (R404, R405, R203). -/
inductive Eff6
  | arm (port tmpl : Nat) (on : Bool)
  | bind (port tmpl : Nat) (on : Bool)
  | kick (port : Nat) (kr : V512) (dross : Bool)
  | kickReg (va port q : Nat) (kr : V512) (dross : Bool)
  deriving DecidableEq, Repr, Inhabited

/-- A device-side launch that a firing has reserved (R105, R421). -/
structure Launch where
  image : W64
  args : W64
  argLen : Nat
  sigOp : Nat
  sigAddr : W64
  sigVal : W64
  jobTag : W64
  spawn : W64
  deriving DecidableEq, Repr, Inhabited

/-- A token that a firing has sent (R357): endpoint, token, class mask, and the accesses issued before it that
its release covers (R213). -/
structure OutTok where
  ep : Nat
  tok : Token
  mask : Nat
  ids : List Nat := []
  deriving DecidableEq, Repr, Inhabited

/-- An undo-log entry (R154): a tile-store row or a 256-byte piece of a slot, with its prior contents. -/
structure Undo where
  slot : Option Nat
  piece : Nat
  old : List (Byte × Bool)
  deriving DecidableEq, Repr, Inhabited

/-- Where a row stream takes its rows (R396, R397). -/
inductive RowSrc
  | tstore (row : Nat)
  | chan (ep tok : Nat)
  | node (n : Nat)
  deriving DecidableEq, Repr, Inhabited

/-- Asynchronous matrix work of a firing, in issue order (R392, R400). -/
inductive MWork
  | rows (c : Nat) (slot : Nat) (src : RowSrc) (base left : Nat) (pc : Int) (issue : Nat)
  | zero (c : Nat)
  | drain (c row base left fmt : Nat) (sat : Bool)
  deriving DecidableEq, Repr, Inhabited

/-- A latch between two neighbouring elements, or an element's result (R188). -/
structure Latch where
  null : Bool
  val : W32
  dross : Bool
  deriving DecidableEq, Repr, Inhabited

/-- A stream run (R383): its length, the offset and number of its vsgo, firings done by each element, the first token
index of each inbound endpoint and the first send of each outbound one, the latches toward the east and the west,
draw base and raised flags. -/
structure Run where
  k : Nat
  pc : Int := 0
  issue : Nat := 0
  fired : Tab Nat := []
  first : Tab Nat := []
  base : Tab Nat := []
  east : Tab Latch := []
  west : Tab Latch := []
  gctr : W64 := 0
  draws : Bool := false
  flags : BitVec 5 := 0
  deriving DecidableEq, Repr, Inhabited

/-- Why a firing is not executing its next instruction. `commit` counts the step of R155 it is in. -/
inductive FPhase
  | running
  | commit (step : Nat) (ends : Bool)
  | bar (b : Nat) (passed : Bool)
  | claim (h : Nat)
  | swait (cxid : W64)
  | vswt
  deriving DecidableEq, Repr, Inhabited

/-- A firing in progress on a tile (R148, R151, R354). `first` is the
lowest number of an access of its own. `failed` lists the pages whose ticket was failed for it
(R232), `fenced` the fences it has executed with the accesses before each (R218), `gens` the generation of each
barrier it has reached (R169), `icount` the instructions it has executed and `origin` the first arising of dross
with the number of its instruction (R277). `mark` is the lowest number of an access that its commit has made.
`again` is the address that waits on its ticket, and whether it is written (R230), `ahead` lists the committed stores that a fence puts before the firing's
releases (R218), and `waited` the copies that it has waited for in swait (R160). -/
structure Firing where
  job : Nat := 0
  aid : Nat := 0
  kind : FKind := .ordinary
  phase : FPhase := .running
  first : Nat := 0
  regs : Regs := {}
  w0 : Tab Ingot := []
  w1 : Tab Ingot := []
  gctr : W64 := 0
  fflags : BitVec 5 := 0
  lane : LaneSet := {}
  staging : LaneSet := {}
  drained : Bool := false
  words0 : Tab W32 := []
  nodes0 : Tab RepNode := []
  gens : Tab Nat := []
  replay : Bool := true
  ridx : Tab Nat := []
  lnull : Tab Bool := []
  ldross : Tab Bool := []
  sent : Tab Nat := []
  out : List OutTok := []
  cbuf : List CItem := []
  eff6 : List Eff6 := []
  launches : List Launch := []
  tags : List (Nat × Bool) := []
  rels : List Nat := []
  claims : List Nat := []
  undo : List Undo := []
  ckpt : Tab Mctx := []
  mwork : List MWork := []
  bbind : Tab Nat := []
  run : Option Run := none
  icount : Nat := 0
  origin : Option (Nat × W64) := none
  drossOut : Bool := false
  mark : Option Nat := none
  nomem : Option Cause := none
  ticket : Option Nat := none
  again : Option (Nat × Bool) := none
  failed : List Nat := []
  fenced : List (Nat × List Nat) := []
  ahead : List Nat := []
  waited : List Nat := []
  deriving DecidableEq, Repr, Inhabited

/-- What moves next: the sequencer of a tile, or a Silt engine. -/
inductive Agent
  | tile (t : Nat)
  | engine (e : Nat)
  deriving DecidableEq, Repr, Inhabited

/-- A move in progress (R132): target, step reached, swap and reason. -/
structure Move where
  dst : Nat
  step : Nat := 1
  swap : Bool := false
  rebal : Bool := false
  forAssay : Bool := false
  deriving DecidableEq, Repr, Inhabited

/-- An assay bank (R297, R299), with the stamp that orders banks by age. -/
structure Bank where
  rank : Nat
  unit : Nat
  assay : Nat := 0
  count : Nat := 0
  aid : Nat := 0
  cause : Nat
  addr : W64
  synd : W64
  stamp : Nat := 0
  deriving DecidableEq, Repr, Inhabited

/-- A compute tile or port tile as a block: thermal, ageing, assay and clock state (R119 to R141, R146, R300). `half` tells that
half-row mode is in force on it (R127), `hist` holds its last 30 ageing measurements: the age of the part in hours, and DRIFT (R140). -/
structure Block where
  spent : Bool := false
  ceilLoss : Nat := 0
  temp : Nat := 0
  tstep : Nat := 68
  stopped : Bool := false
  drift : Nat := 0
  life : Nat := 255
  aged : Bool := false
  half : Bool := false
  hist : List (Nat × Nat) := []
  assaying : Bool := false
  running : Bool := false
  corrected : Nat := 0
  banks : Tab Bank := []
  stamp : Nat := 0
  ovf : Nat := 0
  corr : Nat := 0
  deriving DecidableEq, Repr, Inhabited

/-- A compute tile's sequencer: the firing in progress, the slot that fired last, the causes to take at the
next boundary and the move it is the source of. -/
structure Tile where
  firing : Option Firing := none
  last : Nat := 15
  causes : List (Nat × Cause) := []
  move : Option Move := none
  deriving DecidableEq, Repr, Inhabited

/-- A relocation entry in use (R53, R54, R58): old and new tile and slot, and the copies and the tags (requester and number) of the old
pair that were outstanding. -/
structure Reloc where
  old : Nat × Nat := (0, 0)
  new : Nat × Nat := (0, 0)
  copies : List Nat := []
  tags : List (Nat × Nat) := []
  deriving DecidableEq, Repr, Inhabited

/-- The copy that a Silt engine is running (R199, R201): `dross` once an element has read poison (R176),
`subs` the subscribers of its broadcast (R166). -/
structure Copy where
  job : Nat
  aid : Nat
  tmpl : Nat
  uid : Nat
  cxid : W64
  kr : V512
  ticket : Option Nat := none
  again : Option (Nat × Bool) := none
  failed : List Nat := []
  fenced : List (Nat × List Nat) := []
  buf : Memory := {}
  seg : Nat := 0
  dross : Bool := false
  subs : List Nat := []
  deriving DecidableEq, Repr, Inhabited

/-- A copy that has ended while writes of its own are on their way: its completion waits for them (R199, R221). -/
structure Ending where
  uid : Nat
  job : Nat
  aid : Nat
  cxst : BitVec 2
  deriving DecidableEq, Repr, Inhabited

/-- A Silt engine (R197, R201, R203): registers, microcode, kick queue, named queues and their owners. -/
structure Engine where
  regs : Regs := {}
  mcode : Memory := {}
  kicks : List Kick := []
  late : List Kick := []
  named : Tab (List (V512 × Bool)) := []
  owner : Tab Nat := []
  copy : Option Copy := none
  ending : List Ending := []
  deriving DecidableEq, Repr, Inhabited

/-- A request that a port has taken for a graph that is gone, and that its node has not translated (R55): the job, the requester's
number and the request. -/
structure Orphan where
  job : Nat
  req : Nat
  e : TagEntry
  deriving DecidableEq, Repr, Inhabited

/-- A port tile (R14): its memory-port registers, requesters, trace, relocation table and engine. `orphans` are the requests of graphs
that are gone, and `markers` the relocation markers on their way, oldest first: the pair that was left and the new one (R54). -/
structure Port where
  errcnt : Nat := 0
  lastReq : Nat := 0
  lastTag : Nat := 0
  lastStat : Nat := 0
  reqs : Tab Requester := []
  trace : List (Nat × Nat × Nat) := []
  reloc : Tab Reloc := []
  markers : List ((Nat × Nat) × (Nat × Nat)) := []
  orphans : List Orphan := []
  eng : Engine := {}
  deriving DecidableEq, Repr, Inhabited

/-- A link port (R31), with the translations of the domain that it has cached (R25). -/
structure LinkPort where
  lanes : Nat := 0
  rate : Nat := 0
  en : Bool := false
  pre : List TlbEntry := []
  deriving DecidableEq, Repr, Inhabited

/-- A host link (R18, R19): mode, training, AtomicOp Requester Enable and whether ATS is enabled. -/
structure HostLink where
  mode : Nat := 0
  lanes : Nat := 0
  rate : Nat := 0
  atomicEn : Bool := false
  ats : Bool := false
  deriving DecidableEq, Repr, Inhabited

/-- The states of a peer (R30). -/
inductive PeerState
  | disabled | active | isolated
  deriving DecidableEq, Repr, Inhabited

/-- A peer table entry (R33). -/
structure Peer where
  epoch : Nat := 0
  busy : Nat := 0
  ocount : Nat := 0
  icount : Nat := 0
  ibudget : Nat := 64
  obudget : Nat := 64
  ordpath : Bool := false
  fewin : Bool := false
  poison : Bool := false
  st : PeerState := .disabled
  deriving DecidableEq, Repr, Inhabited

/-- Who made a global access (R209, R231): an actor, a copy of an engine with its number, its job and its issuer, or an element of
a stream; `inbound` is a request of a peer (R21) or of a host's BAR2 (R208), and `own` a request of the Kiln or of the fault-queue block, for the job that it
concerns. -/
inductive Src
  | firing (job aid : Nat)
  | engine (port uid job aid : Nat)
  | stream (job n e part : Nat)
  | inbound (peer id : Nat)
  | own (job : Option Nat)
  deriving DecidableEq, Repr, Inhabited

/-- Which register or buffer bytes a read fills (R348, R352, R407): the register, the byte it starts at, and
for a scalar the access size and whether it is sign-extended. -/
inductive Dest
  | none
  | scalar (d lo : Nat) (size : Nat) (signed : Bool)
  | vector (d lo : Nat)
  | burst (lo : Nat)
  deriving DecidableEq, Repr, Inhabited

/-- What a travelling access does at its target. -/
inductive AKind
  | load (n : Nat)
  | store (bytes : List (Byte × Bool))
  | atomic (op : AtomOp) (data cmp : W64) (dross : Bool) (size : Nat)
  | fence (mask : Nat)
  deriving DecidableEq, Repr, Inhabited

/-- A global access on its way to its owning node (R211, R219), one granule each; `sent` once an external
party has been asked, `after` the accesses a fence puts before it, `fwd` the bytes forwarded to a load (R350),
`grp` common to granules that have no order among them, `req` to those of one access, `quiet` once another granule
of the same access has raised NOMEM (R206), and `node` the port tile that has translated it, in a PASID (R241). -/
structure Access where
  id : Nat
  grp : Nat := 0
  req : Nat := 0
  quiet : Bool := false
  node : Option Nat := none
  pasid : Nat := 0
  src : Src
  cls : Nat
  kind : AKind
  va : Nat := 0
  tgt : Target
  dest : Dest := .none
  world : Bool := false
  sent : Bool := false
  tag : Nat := 0
  after : List Nat := []
  fwd : List (Option (Byte × Bool)) := []
  deriving DecidableEq, Repr, Inhabited

/-- A request to a peer (R26, R28), for the accesses `accs`: the granules of one access within one 256-byte block. -/
structure OutReq where
  id : Nat
  accs : List Nat
  peer : Nat
  cls : Nat
  port : Nat := 0
  sent : Bool := false
  epoch : Nat := 0
  read : Bool := false
  fence : Bool := false
  deriving DecidableEq, Repr, Inhabited

/-- A request of a peer in progress, or from number 4096 on of a host link's BAR2 (R21, R27, R208): its accesses, each with its length and
what it has returned, whether it is to be aborted, and whether it broke a world. -/
structure InReq where
  id : Nat
  peer : Nat
  addr : Nat
  read : Bool
  parts : List (Nat × Nat × Option (List (Byte × Bool)))
  err : Bool := false
  broke : Bool := false
  deriving DecidableEq, Repr, Inhabited

/-- Who waits on a translation ticket (R230). A replayable firing waits with the cause to take if the ticket is
failed (R232). -/
inductive Waiter
  | firing (job aid : Nat) (c : Option Cause)
  | elem (job stream idx : Nat)
  | req (port r tag : Nat)
  | engine (port : Nat)
  | load (job : Nat)
  | verify (job : Nat)
  | ring (q : Nat)
  deriving DecidableEq, Repr, Inhabited

/-- A read of a peer's memory that the Kiln makes for itself (R21, R71, R75, R81): the access that asks, for whom, where in the
peer's window, how long, and the answer once it is there. -/
structure OwnRead where
  id : Nat
  who : Waiter
  peer : Nat
  addr : Nat
  len : Nat
  got : Option (List (Byte × Bool)) := none
  deriving DecidableEq, Repr, Inhabited

/-- An open translation ticket (R230). -/
structure Ticket where
  pasid : Nat
  page : Nat
  kind : Nat
  world : Bool := false
  waiters : List Waiter := []
  deriving DecidableEq, Repr, Inhabited

/-- A translation that a host is asked for (R233), with the access that waits for it and whether the host has
refused. -/
structure AtsReq where
  id : Nat
  link : Nat
  pasid : Nat
  page : Nat
  write : Bool
  who : Waiter
  pri : Bool := false
  denied : Bool := false
  deriving DecidableEq, Repr, Inhabited

/-- A flux in progress (R240): its range, the ports it has not emerged from, and the host link that asked for
it, if one did. -/
structure Flux where
  scope : Nat
  pasid : Nat
  va : Nat
  sh : Nat
  left : List Nat
  ats : Option Nat := none
  deriving DecidableEq, Repr, Inhabited

/-- What a fault record holds besides its phase. -/
structure Rec where
  abort : Bool := false
  wr : Bool := false
  ticket : Option Nat := none
  queue : Nat := 0
  aid : Nat := 0
  tpc : Nat := 0
  cause : Nat
  tval : W64 := 0
  jobTag : W64 := 0
  pasid : Nat := 0
  index : Nat := 0
  deriving DecidableEq, Repr

/-- A host fault queue (R291). Where its ring lies in a peer's window, `wait` holds the records that are not written yet, and `posted` names
the write of the oldest of them (R290). -/
structure FaultQueue where
  base : W64 := 4
  tail : W32 := 0
  head : W32 := 0
  vec : Nat := 0
  irqEn : Bool := false
  en : Bool := false
  lost : Nat := 0
  wait : List Rec := []
  posted : Option Nat := none
  deriving DecidableEq, Repr, Inhabited

/-- The states of a hardware queue (R67). -/
inductive QState
  | disabled | running | draining | halted
  deriving DecidableEq, Repr, Inhabited

/-- A hardware work queue (R67): QBASE and QCFG as written, the indices, the first error, the state, the status its
last job retired with (R91), whether a function reset waits for its killed jobs to retire (R61), and the doublewords of the
next record that have been read (R72). -/
structure Queue where
  base : W64 := 4
  cfg : W64 := 0x00000000FFE00000
  tail : W32 := 0
  head : W32 := 0
  retire : W32 := 0
  err : Nat := 0
  st : QState := .disabled
  last : Option Nat := none
  flr : Bool := false
  got : Tab (List (Byte × Bool)) := []
  deriving DecidableEq, Repr, Inhabited

/-- The job states of R88; a Retired job is gone from the state. -/
inductive JState
  | fetched | waiting | candidate | earmarked | loading | resident | parked | stalled | ended
  deriving DecidableEq, Repr, Inhabited

/-- The fields of a job record or launch descriptor that a job keeps (R74, R422). -/
structure JobRec where
  instId : W32 := 0
  pweight : Nat := 0
  prio : Nat := 0
  dep : Bool := false
  weld : Bool := false
  secure : Bool := false
  variant : Nat := 0
  nop : Bool := false
  image : W64 := 0
  args : W64 := 0
  argLen : Nat := 0
  quota : Nat := 0
  lease : Nat := 0
  key : List W32 := []
  sigAddr : W64 := 0
  sigVal : W64 := 0
  vec : Nat := 0
  irq : Bool := false
  sigOp : Nat := 0
  jobTag : W64 := 0
  deriving DecidableEq, Repr, Inhabited

/-- The shape of one variant (R90, R96): width, height, tiles used at each offset. -/
structure Shape where
  wp : Nat
  hp : Nat
  n : List Nat
  deriving DecidableEq, Repr, Inhabited

/-- A section of a verified image (R81). -/
structure Section where
  ty : Nat
  var : Nat
  body : List Byte
  deriving DecidableEq, Repr, Inhabited

/-- The verified copy of a graph image (R81). -/
structure Image where
  nvar : Nat := 1
  secure : Bool := false
  weldable : Bool := false
  recheck : Nat := 0
  rotn : Nat := 0
  argArea : Nat := 0
  sects : List Section := []
  shapes : List Shape := []
  bytes : Nat := 0
  deriving DecidableEq, Repr, Inhabited

/-- A job (R88): of a queue, or a child from the pool when `parent` is given. `failedPages` lists the pages of its image, its
arguments or its member bitmaps whose ticket was failed, each with the translation cause (R75, R81); `quotaStall` marks a
graph that was saved with an empty account (R110), also while it is a candidate; `assays` lists the tiles that the graph has left with
an assay pending (R307); `retStage` is 1 once DW15 and 2 once the signal
is on its way to a peer (R77, R78). DEDUCED, notes/assumptions/16.md -/
structure Job where
  queue : Nat := 0
  index : W32 := 0
  parent : Option Nat := none
  depth : Nat := 0
  jr : JobRec := {}
  st : JState := .fetched
  status : Option (Nat × Nat) := none
  fail : Option (Nat × Nat) := none
  image : Option Image := none
  eff : Nat := 0
  passes : Nat := 0
  held : Option Nat := none
  started : Bool := false
  marked : Bool := false
  everLoaded : Bool := false
  account : Option Nat := none
  lease : Nat := 0
  saveUnits : List Nat := []
  saveWarned : Bool := false
  unplaceable : Bool := false
  resume : Option Nat := none
  quotaStall : Bool := false
  target : Option (Nat × Nat) := none
  victims : List Nat := []
  assays : List Nat := []
  welded : Option Nat := none
  retStage : Nat := 0
  copyWarned : Bool := false
  failedPages : List (Nat × Nat) := []
  deriving DecidableEq, Repr, Inhabited

/-- The Kiln's registers and its own state (R80, R92 to R95, R114 to R118, R142 to R145). -/
structure Kiln where
  refused : Nat := 0
  depthHwm : Nat := 0
  poolHwm : Nat := 0
  poolCnt : Nat := 0
  halt : Bool := false
  weldEn : Bool := true
  preempt : Bool := false
  plotw : Nat := 32
  cap : Nat := 10500
  capBind : Bool := false
  acctQ : Nat := 0
  leaseFree : Nat := 0
  anctl : W64 := 0x0000005F0340C00B
  rots : Nat := 0
  rotSkip : Nat := 0
  rbs : Nat := 0
  rbSkip : Nat := 0
  credits : Tab Int := []
  failed : Tab Nat := []
  bound : Bool := false
  calm : Nat := 0
  deriving DecidableEq, Repr, Inhabited

/-- The mailbox (R66). -/
structure Mailbox where
  status : Nat := 0
  cmd : Nat := 0
  done : Bool := false
  busy : Bool := false
  addr : W64 := 0
  len : W32 := 0
  result : Option Nat := none
  seq : Nat := 0
  deriving DecidableEq, Repr, Inhabited

/-- The levels of a cooling excursion (R17). -/
inductive Cooling
  | ok | warning | cap | shutdown
  deriving DecidableEq, Repr, Inhabited

/-- A change of a world bit or region entry that waits (R86). -/
inductive WorldChange
  | plot (p : Nat) (w : Bool)
  | region (r : Nat) (a b : W64)
  deriving DecidableEq, Repr, Inhabited

/-- The board block (R64 to R66, R244 to R249, R303), the fuses and keys (R82, R83), the attestation key with its certificate
(R84), the worlds (R85, R87), the save area (R304) and the memory map of the second tier (R39, R20); `upDone` holds once bring-up
has been complete (R62, R64). DESIGN CHOICE, notes/assumptions/6.md -/
structure Board where
  held : Bool := false
  limit : Nat := 0
  rcause : Nat := 0
  fwstate : Nat := 0
  svn : Nat := 0
  capLow : Bool := false
  coolFault : Bool := false
  ready : Bool := false
  cooling : Cooling := .ok
  island : Bool := false
  mb : Mailbox := {}
  fwPend : Option (Nat × Nat × BitVec 256) := none
  fwDigest : BitVec 256 := 0
  attest : Option (List Byte × List Byte) := none
  upDone : Bool := false
  owner : Option (BitVec 256) := none
  arCount : Nat := 0
  keys : Tab (List Byte) := []
  hpctl : BitVec 4 := 0
  trptab : W64 := 0
  domid : Nat := 0
  tren : Bool := false
  trinva : W64 := 0
  invScope : Nat := 0
  invPasid : Nat := 0
  faults : Nat := 0
  invDrop : Bool := false
  svcDrop : Bool := false
  asel : Nat := 0
  tmo : Nat := 2000
  wplot : Tab W64 := []
  wport : Tab W64 := []
  wrega : Tab W64 := []
  wregb : Tab W64 := []
  worldPend : List WorldChange := []
  svbase : W64 := 0
  svlen : W64 := 0
  lpddr : List (Nat × Nat × Nat) := []
  expanders : List (Nat × Nat × Nat × Nat × Bool) := []
  deriving DecidableEq, Repr, Inhabited

/-- What the part sends to the outside (R66, R78, R84, R21, R233, R303). -/
inductive Out
  | msix (link fn vec : Nat)
  | hostRead (link addr n : Nat)
  | hostWrite (link addr : Nat) (bytes : List (Byte × Bool))
  | hostAtomic (link addr : Nat) (op : AtomOp) (data cmp : W64) (poison : Bool)
  | hostCache (link addr : Nat) (op : AtomOp) (data cmp : W64) (size : Nat) (poison : Bool)
  | unsupported (link : Nat)
  | bar2 (link off : Nat) (data : List Byte) (poison abort : Bool)
  | peerReply (q : Nat) (data : List Byte) (poison error busy : Bool)
  | peerReq (q port cls : Nat) (addr : Nat) (kind : AKind)
  | regReply (v : W64)
  | ats (link pasid page : Nat) (write pri : Bool)
  | atsDone (link : Nat)
  | spdm (response : List Byte) (signature : List Byte)
  | reduceSend (tag op : Nat) (data : List (Byte × Bool))
  deriving DecidableEq, Repr, Inhabited

/-- Which agent's turn it is next, or which event happens next. -/
inductive Turn
  | run (a : Agent)
  | event (i : Instr)
  deriving DecidableEq, Repr

/-- The whole part. `agenda` is the order in which agents and events take their turns, oldest first; `fresh`
counts the free values that have been used; `nextId` numbers accesses, requests and jobs. -/
structure State where
  agenda : List Turn := []
  focus : Agent := .tile 0
  fresh : Nat := 0
  nextId : Nat := 1
  board : Board := {}
  kiln : Kiln := {}
  queues : Tab Queue := []
  jobs : Tab Job := []
  graphs : Tab Graph := []
  tiles : Tab Tile := []
  blocks : Tab Block := []
  ports : Tab Port := []
  linkPorts : Tab LinkPort := []
  hostLinks : Tab HostLink := []
  peers : Tab Peer := []
  mem : Memory := {}
  inflight : List Access := []
  outreqs : List OutReq := []
  ownReads : List OwnRead := []
  inreqs : List InReq := []
  tickets : Tab Ticket := []
  tlb : List TlbEntry := []
  ats : List AtsReq := []
  flux : Option Flux := none
  fq : FaultQueue := {}
  fqs : FaultQueue := {}
  out : List Out := []
  deriving DecidableEq, Repr

/-- The reasons a step can stop with a fault. -/
inductive Fault
  /-- Raised by an event row whose own condition in the spec does not hold in this state, with the row's
  mnemonic: the event is no behaviour of the part there. Safe: the model allows no step the part has. -/
  | notEnabled (row : String)
  /-- Raised by a control word that is executed while the agent in focus runs no firing and no copy: there
  is nothing to execute it. Safe, for the same reason. -/
  | noFiring
  deriving DecidableEq, Repr

/-- The reasons a step can be refused. -/
inductive Refusal
  /-- The instruction has no meaning in the model yet, with its mnemonic. Safe: nothing follows from it. -/
  | notModelled (mnemonic : String)
  deriving DecidableEq, Repr

/-- The part right after power-on reset, which it has left since every limit of R16 holds: the boot ROM waits in FWSTATE 0 with standby power (R61, R62), every
register of the register space at its Reset value, no job, no graph, and memory with nothing listed. -/
def State.reset : State := {}

end Sys2Proof.Machine
end

