-- ==== Sys2Proof/Machine/Ops.lean ====
section
/-! DEFINITION. The named operations over memories, registers and the parts of the state, fault records, and the
taking of a trap with the return from one (R156, R284 to R290). -/

namespace Sys2Proof.Machine

/-- The outcome of an instruction or an event. -/
abbrev Res := Host.Outcome State Fault Refusal

/-- An event that cannot happen in this state. DESIGN CHOICE, notes/assumptions/3.md -/
def disabled (row : String) : Res := .fault (.notEnabled row)

/-- A step of an event that may have to wait: nothing happens where nothing changed. -/
def orWait (row : String) (s s' : State) : Res := if s' = s then disabled row else .next s'

/-! Bytes. -/

/-- Bytes, each with its dross. -/
abbrev Bytes := List (Byte × Bool)

/-- The number that bytes stand for, the least significant first (R4). -/
def leNat : List Byte → Nat
  | [] => 0
  | b :: t => b.toNat + 256 * leNat t

/-- The low `n` bytes of a number, the least significant first (R4). -/
def leBytes : Nat → Nat → List Byte
  | 0, _ => []
  | n + 1, x => BitVec.ofNat 8 x :: leBytes n (x / 256)

/-- Bytes without dross. -/
def clean (bs : List Byte) : Bytes := bs.map (fun b => (b, false))

/-- Bytes with one dross bit for all. -/
def marked (x : Bool) (bs : List Byte) : Bytes := bs.map (fun b => (b, x))

/-- The number of bytes that carry dross, whatever they are. -/
def anyDross (bs : Bytes) : Bool := bs.any (·.2)

/-- The number that a list of bits stands for, the least significant first. -/
def bitsNat : List Bool → Nat
  | [] => 0
  | b :: t => (if b then 1 else 0) + 2 * bitsNat t

/-- Byte lane `j` of a vector (R185). -/
def laneOf (v : V512) (j : Nat) : Byte := v.extractLsb' (8 * j) 8

/-- The 64 bytes of a vector with their lanes' dross bits. -/
def vBytes (v : V512) (x : W64) : Bytes := (List.range 64).map (fun j => (laneOf v j, x.getLsbD j))

/-- A vector of 64 bytes. -/
def vOf (bs : List Byte) : V512 := BitVec.ofNat 512 (leNat bs)

/-- A mask of 64 bits. -/
def maskOf (l : List Bool) : W64 := BitVec.ofNat 64 (bitsNat l)

/-- Field `hi:lo` of doubleword `n` of 64 bytes. -/
def dwf (v : V512) (n hi lo : Nat) : Nat := bitsOf v.toNat (64 * n + hi) (64 * n + lo)

/-- The parts of the bytes from `a` for `n` bytes, one for each granule they touch (R209). -/
def pieces : Nat → Nat → Nat → List (Nat × Nat)
  | 0, _, _ => []
  | k + 1, a, n =>
    if n = 0 then [] else
    let l := min n (8 - a % 8)
    (a, l) :: pieces k (a + l) (n - l)

/-! Memories. -/

/-- Puts a number into a rising list. -/
def addNum (n : Nat) : List Nat → List Nat
  | [] => [n]
  | k :: t => if n < k then n :: k :: t else if n = k then k :: t else k :: addNum n t

/-- A byte as the cells hold it, poisoned or not. -/
def Memory.byte (m : Memory) (a : Nat) : Byte := Tab.get 0 m.cells a

/-- Whether a granule is poisoned (R49, R296). -/
def Memory.isBad (m : Memory) (g : Nat) : Bool := m.bad.contains g

/-- A byte as a read returns it: a poisoned granule reads as zero with dross (R50, R296). -/
def Memory.read (m : Memory) (a : Nat) : Byte × Bool :=
  if m.isBad (a / 8) then (0, true) else (m.byte a, false)

/-- Bytes as a read returns them. -/
def Memory.reads (m : Memory) (a n : Nat) : Bytes := (List.range n).map (fun i => m.read (a + i))

/-- Sets one byte and keeps the poison marks. -/
def Memory.setByte (m : Memory) (a : Nat) (b : Byte) : Memory := { m with cells := Tab.put 0 m.cells a b }

/-- Marks a granule poisoned, or clears the mark. -/
def Memory.setBad (m : Memory) (g : Nat) (x : Bool) : Memory :=
  { m with bad := if x then addNum g m.bad else m.bad.filter (· ≠ g) }

/-- Sets bytes from an address on and keeps the poison marks. -/
def Memory.setBytes (m : Memory) (a : Nat) : List Byte → Memory
  | [] => m
  | b :: t => (m.setByte a b).setBytes (a + 1) t

/-- A write of some bytes of one granule of a tile memory or a burst buffer: dross poisons the granule, a clean
write of all eight bytes clears the mark, and the bytes are written either way (R352, R402). -/
def Memory.storePiece (m : Memory) (a : Nat) (bs : Bytes) : Memory :=
  let m' := m.setBytes a (bs.map (·.1))
  if anyDross bs then m'.setBad (a / 8) true
  else if bs.length = 8 then m'.setBad (a / 8) false else m'

/-- A write into a tile memory or a burst buffer, granule by granule (R352, R402, R409). -/
def Memory.store (m : Memory) (a : Nat) (bs : Bytes) : Memory :=
  (pieces bs.length a bs.length).foldl
    (fun m p => m.storePiece p.1 ((bs.drop (p.1 - a)).take p.2)) m

/-- A masked write of one granule of global memory (R49): the new memory, and whether it met poison. -/
def Memory.writeGranule (m : Memory) (g : Nat) (bs : List (Option (Byte × Bool))) : Memory × Bool :=
  let on := bs.filterMap id
  if on = [] then (m, false)
  else if on.length < 8 && m.isBad g then (m, true)
  else
    let m' := (bs.zipIdx).foldl (fun m e => match e.1 with
      | some b => m.setByte (8 * g + e.2) b.1
      | none => m) m
    (m'.setBad g (anyDross on), false)

/-- Bytes of one granule as a masked write of it. -/
def granuleMask (a : Nat) (bs : Bytes) : List (Option (Byte × Bool)) :=
  List.replicate (a % 8) none ++ bs.map some ++ List.replicate (8 - a % 8 - bs.length) none

/-- A write of bytes within one granule of global memory (R49). -/
def Memory.writePiece (m : Memory) (a : Nat) (bs : Bytes) : Memory :=
  (m.writeGranule (a / 8) (granuleMask a bs)).1

/-- A write of bytes into global memory, granule by granule (R49, R209). -/
def Memory.write (m : Memory) (a : Nat) (bs : Bytes) : Memory :=
  (pieces bs.length a bs.length).foldl
    (fun m p => m.writePiece p.1 ((bs.drop (p.1 - a)).take p.2)) m

/-- A doubleword of memory as the cells hold it, in one pass. -/
def Memory.word (m : Memory) (a : Nat) : Nat :=
  m.cells.foldl (fun acc c => if a ≤ c.1 ∧ c.1 < a + 8 then acc + c.2.toNat <<< (8 * (c.1 - a)) else acc) 0

/-- Puts back bytes with the dross they had (R156). -/
def Memory.restore (m : Memory) (a : Nat) (bs : Bytes) : Memory :=
  (bs.zipIdx).foldl (fun m e => if (a + e.2) % 8 = 0 then m.setBad ((a + e.2) / 8) e.1.2 else m)
    (m.setBytes a (bs.map (·.1)))

/-- The contents from `lo` up to `hi` moved down to 0. -/
def Memory.cut (m : Memory) (lo hi : Nat) : Memory :=
  { cells := (m.cells.filter (fun c => lo ≤ c.1 ∧ c.1 < hi)).map (fun c => (c.1 - lo, c.2)),
    bad := (m.bad.filter (fun g => lo ≤ 8 * g ∧ 8 * g < hi)).map (fun g => g - lo / 8) }

/-- The contents from `lo` up to `hi` cleared, marks included. -/
def Memory.clearRange (m : Memory) (lo hi : Nat) : Memory :=
  { cells := m.cells.filter (fun c => ¬ (lo ≤ c.1 ∧ c.1 < hi)),
    bad := m.bad.filter (fun g => ¬ (lo ≤ 8 * g ∧ 8 * g < hi)) }

/-- The contents from `a` on for `n` bytes replaced by the first `n` bytes of another memory, marks included;
both ends lie on granules. -/
def Memory.splice (m : Memory) (a n : Nat) (src : Memory) : Memory :=
  let m' := m.clearRange a (a + n)
  let m'' := (src.cells.filter (fun c => c.1 < n)).foldl (fun m c => m.setByte (a + c.1) c.2) m'
  (src.bad.filter (fun g => 8 * g < n)).foldl (fun m g => m.setBad (a / 8 + g) true) m''

/-! Registers. -/

/-- A scalar register; s0 reads as a clean 0 (R330). -/
def Regs.rd (r : Regs) (n : BitVec 5) : SReg := if n = 0 then {} else Tab.get {} r.s n.toNat

/-- The value of a scalar register. -/
def Regs.val (r : Regs) (n : BitVec 5) : W64 := (r.rd n).val

/-- The dross bit of a scalar register. -/
def Regs.drossS (r : Regs) (n : BitVec 5) : Bool := (r.rd n).dross

/-- Writes a scalar register; a write to s0 is discarded (R330). -/
def Regs.wr (r : Regs) (d : BitVec 5) (v : W64) (x : Bool) : Regs :=
  if d = 0 then r else { r with s := Tab.set r.s d.toNat { val := v, dross := x } }

/-- A vector register. -/
def Regs.rdV (r : Regs) (n : BitVec 5) : VReg := Tab.get {} r.v n.toNat

/-- Writes a vector register. -/
def Regs.wrV (r : Regs) (d : BitVec 5) (v : V512) (x : W64) : Regs :=
  { r with v := Tab.set r.v d.toNat { val := v, dross := x } }

/-- A predicate register. -/
def Regs.rdP (r : Regs) (n : Nat) : W64 := Tab.get 0 r.p n

/-- Writes a predicate register. -/
def Regs.wrP (r : Regs) (d : Nat) (v : W64) : Regs := { r with p := Tab.set r.p d v }

/-- Whether a register among those given still waits for an access (R348). -/
def Regs.busy (r : Regs) (ss vs : List (BitVec 5)) : Bool :=
  ss.any (fun n => (r.rd n).pend ≠ []) || vs.any (fun n => (r.rdV n).pend ≠ [])

/-- The program counter past the word (R308). -/
def Regs.advance (r : Regs) : Regs := { r with pc := r.pc + 4 }

/-! Parts of the state. -/

/-- A tile. -/
def State.tile (s : State) (t : Nat) : Tile := Tab.get {} s.tiles t
/-- Sets a tile. -/
def State.setTile (s : State) (t : Nat) (x : Tile) : State := { s with tiles := Tab.set s.tiles t x }
/-- A port tile. -/
def State.port (s : State) (p : Nat) : Port := Tab.get {} s.ports p
/-- Sets a port tile. -/
def State.setPort (s : State) (p : Nat) (x : Port) : State := { s with ports := Tab.set s.ports p x }
/-- A block (R297). -/
def State.block (s : State) (b : Nat) : Block := Tab.get {} s.blocks b
/-- Sets a block. -/
def State.setBlock (s : State) (b : Nat) (x : Block) : State := { s with blocks := Tab.set s.blocks b x }
/-- A queue. -/
def State.queue (s : State) (q : Nat) : Queue := Tab.get {} s.queues q
/-- Sets a queue. -/
def State.setQueue (s : State) (q : Nat) (x : Queue) : State := { s with queues := Tab.set s.queues q x }
/-- A job. -/
def State.job (s : State) (j : Nat) : Job := Tab.get {} s.jobs j
/-- Sets a job. -/
def State.setJob (s : State) (j : Nat) (x : Job) : State := { s with jobs := Tab.set s.jobs j x }
/-- A graph. -/
def State.graph (s : State) (j : Nat) : Graph := Tab.get {} s.graphs j
/-- Sets a graph. -/
def State.setGraph (s : State) (j : Nat) (g : Graph) : State := { s with graphs := Tab.set s.graphs j g }
/-- Whether a job has a graph placed or saved. -/
def State.hasGraph (s : State) (j : Nat) : Bool := (Tab.find s.graphs j).isSome
/-- An actor of a graph. -/
def Graph.actor (g : Graph) (aid : Nat) : Actor := Tab.get {} g.actors aid
/-- Sets an actor of a graph. -/
def Graph.setActor (g : Graph) (aid : Nat) (a : Actor) : Graph := { g with actors := Tab.set g.actors aid a }
/-- An actor of a job's graph. -/
def State.actor (s : State) (j aid : Nat) : Actor := (s.graph j).actor aid
/-- Sets an actor of a job's graph. -/
def State.setActor (s : State) (j aid : Nat) (a : Actor) : State := s.setGraph j ((s.graph j).setActor aid a)
/-- A channel of a graph. -/
def Graph.chan (g : Graph) (c : Nat) : Chan := Tab.get {} g.chans c
/-- Sets a channel of a graph. -/
def Graph.setChan (g : Graph) (c : Nat) (x : Chan) : Graph := { g with chans := Tab.set g.chans c x }
/-- A stream of a graph. -/
def Graph.stream (g : Graph) (n : Nat) : Stream := Tab.get {} g.streams n
/-- Sets a stream of a graph. -/
def Graph.setStream (g : Graph) (n : Nat) (x : Stream) : Graph := { g with streams := Tab.set g.streams n x }
/-- A host link. -/
def State.hostLink (s : State) (n : Nat) : HostLink := Tab.get {} s.hostLinks n
/-- Sets a host link. -/
def State.setHostLink (s : State) (n : Nat) (x : HostLink) : State := { s with hostLinks := Tab.set s.hostLinks n x }
/-- A peer. -/
def State.peer (s : State) (q : Nat) : Peer := Tab.get {} s.peers q
/-- Sets a peer. -/
def State.setPeer (s : State) (q : Nat) (x : Peer) : State := { s with peers := Tab.set s.peers q x }
/-- A link port. -/
def State.linkPort (s : State) (n : Nat) : LinkPort := Tab.get {} s.linkPorts n
/-- Sets a link port. -/
def State.setLinkPort (s : State) (n : Nat) (x : LinkPort) : State := { s with linkPorts := Tab.set s.linkPorts n x }
/-- Sets the firing of a tile. -/
def State.setFiring (s : State) (t : Nat) (f : Firing) : State := s.setTile t { s.tile t with firing := some f }
/-- Sets the engine of a port tile. -/
def State.setEngine (s : State) (p : Nat) (e : Engine) : State := s.setPort p { s.port p with eng := e }
/-- The actor at an end of a channel. -/
def EndPt.aid? : EndPt → Option Nat
  | .actor a _ => some a
  | .node a _ _ => some a
  | .stream _ => none

/-- The channels that a stream sends on: the branches of one fork (R165, R328). -/
def Graph.outsOf (g : Graph) (n : Nat) : List Nat := (g.chans.filter (fun e => e.2.src = .stream n)).map (·.1)

/-- Sends something to the outside. -/
def State.emit (s : State) (o : Out) : State := { s with out := s.out ++ [o] }
/-- A fresh number for an access, a request or a copy. -/
def State.newId (s : State) : Nat × State := (s.nextId, { s with nextId := s.nextId + 1 })

/-- A choice that the spec leaves unspecified, among `n` (R8). DESIGN CHOICE, notes/assumptions/2.md -/
def State.choose (s : State) (n : Nat) : Nat × State :=
  (Config.freeChoice s.fresh % n, { s with fresh := s.fresh + 1 })

/-- A 64-bit value that the spec does not state. -/
def State.freeValue (s : State) : W64 × State := (Config.freeWord s.fresh, { s with fresh := s.fresh + 1 })

/-- The coordinate of a tile, 64 · y + x, as tcoord gives it (R176) and as R298 numbers blocks. -/
def tcoord (t : Nat) : W64 := BitVec.ofNat 64 t

/-- The block index of a port tile (R298). -/
def portBlock (p : Nat) : Nat := 4096 + p

/-- Whether the oscillator of a port tile has stopped (R121, R123): what runs in the tile waits. DEDUCED, notes/assumptions/88.md -/
def State.portStopped (s : State) (p : Nat) : Bool := (s.block (portBlock p)).stopped

/-! Port tiles (R14, R52). -/

/-- What a port tile serves: memory port m, UALink port n, or a position of a host link. -/
inductive PortKind
  | mem (m : Nat)
  | link (n : Nat)
  | host (link pos : Nat)
  deriving DecidableEq, Repr

/-- The kind of a port tile (R14). -/
def portKind (p : Nat) : PortKind :=
  let side := p / 64
  let pos := p % 64
  if pos < 24 then .mem (48 * side + pos)
  else if pos < 30 then .link (12 * side + (pos - 24))
  else if pos < 34 then .host side (pos - 30)
  else if pos < 40 then .link (12 * side + 6 + (pos - 34))
  else .mem (48 * side + 24 + (pos - 40))

/-- The port tile of a memory port, or of a host port as number 192 and up (R38, R52). -/
def memTile (m : Nat) : Nat :=
  if m < 192 then
    let r := m % 48
    64 * (m / 48) + (if r < 24 then r else 16 + r)
  else 64 * ((m - 192) / 4) + 30 + (m - 192) % 4

/-- The port tile of a UALink port. -/
def linkTile (n : Nat) : Nat := 64 * (n / 12) + (if n % 12 < 6 then 24 + n % 12 else 28 + n % 12)

/-! Physical addresses (R37, R206, R207). -/

/-- Whether a part of the second tier is mapped at an address, and where: the stack of LPDDR. -/
def State.inLpddr (s : State) (pa : Nat) : Option Nat :=
  (s.board.lpddr.find? (fun e => e.1 ≤ pa ∧ pa < e.1 + e.2.1)).map (·.2.2)

/-- The expander of an address: its link, its number and whether it has failed (R20, R52). -/
def State.inExpander (s : State) (pa : Nat) : Option (Nat × Nat × Bool) :=
  (s.board.expanders.find? (fun e => e.1 ≤ pa ∧ pa < e.1 + e.2.1)).map (fun e => (e.2.2.1, e.2.2.2.1, e.2.2.2.2))

/-- Whether a host window holds memory: its link is up and not in mode 2 (R206). -/
def State.hostUp (s : State) (n : Nat) : Bool := (s.hostLink n).mode ≠ 2 && (s.hostLink n).rate ≠ 0

/-- Whether an address lies in the save area (R304). -/
def State.inSave (s : State) (pa : Nat) : Bool :=
  decide (s.board.svbase.toNat ≤ pa) && decide (pa < s.board.svbase.toNat + 2 ^ 21 * fld s.board.svlen 19 0)

/-- Where a physical address below the host windows leads (R206): the save area cannot be addressed (R172). DEDUCED,
notes/assumptions/82.md -/
def State.lowTarget (s : State) (pa : Nat) : Target :=
  if pa < 0x18000000000 then (if s.inSave pa then .none pa else .loc pa)
  else if pa < 0x18000800000 then .reg (pa - 0x18000000000)
  else if 0x20000000000 ≤ pa ∧ pa < 0x40000000000 then
    if (s.inLpddr pa).isSome || (s.inExpander pa).isSome then .loc pa else .none pa
  else .none pa

/-- Where a physical address leads (R206, R207). DEDUCED, notes/assumptions/61.md -/
def State.target (s : State) (pa : Nat) : Target :=
  if pa < 0x1000000000000 then s.lowTarget pa
  else if pa < 0x2000000000000 then
    let n := (pa - 0x1000000000000) / 0x400000000000
    if s.hostUp n then .host n ((pa - 0x1000000000000) % 0x400000000000) else .none pa
  else if 0x40000000000000 ≤ pa ∧ pa < 0x80000000000000 then
    let q := (pa - 0x40000000000000) / 0x40000000000
    let o := (pa - 0x40000000000000) % 0x40000000000
    if q = s.board.domid then s.lowTarget o else .peer q o
  else .none pa

/-- Whether a local physical address is secure (R85). -/
def State.secureAt (s : State) (pa : Nat) : Bool :=
  (List.range 64).any (fun r =>
    let a := Tab.get 0 s.board.wrega r
    let b := Tab.get 0 s.board.wregb r
    a.getLsbD 63 && a.getLsbD 62 && decide (fld a 33 0 ≤ pa / 0x200000) &&
      decide (pa / 0x200000 < fld a 33 0 + fld b 33 0))

/-- Whether plot `p` is secure (R85, R87). -/
def State.plotSecure (s : State) (p : Nat) : Bool := (Tab.get 0 s.board.wplot (p / 64)).getLsbD (p % 64)

/-- Whether port tile `n` is secure (R85, R87). -/
def State.portSecure (s : State) (n : Nat) : Bool := (Tab.get 0 s.board.wport (n / 64)).getLsbD (n % 64)

/-- The plot of a compute tile (R96). -/
def plotOf (t : Nat) : Nat := 16 * (t / 64 / 4) + t % 64 / 4

/-- Whether a block is secure. -/
def State.blockSecure (s : State) (b : Nat) : Bool :=
  if b < 4096 then s.plotSecure (plotOf b) else s.portSecure (b - 4096)

/-! Fault records (R289, R290). -/

/-- The 32 bytes of a record (R289). -/
def Rec.bytes (r : Rec) (phase : Bool) : List Byte :=
  leBytes 8 (inFld (if phase then 1 else 0) 63 63 + inFld (if r.abort then 1 else 0) 62 62
    + inFld (if r.wr then 1 else 0) 61 61 + inFld (if r.ticket.isSome then 1 else 0) 60 60
    + inFld r.queue 59 48 + inFld r.aid 47 32 + inFld r.tpc 31 16 + inFld r.cause 8 0)
  ++ leBytes 8 r.tval.toNat ++ leBytes 8 r.jobTag.toNat
  ++ leBytes 8 (inFld r.pasid 63 44 + inFld (r.ticket.getD 0) 41 32 + inFld r.index 31 0)

/-- Records a ring of a fault queue holds: 2^LOG2N (R291). -/
def FaultQueue.size (q : FaultQueue) : Nat := 2 ^ fld q.base 3 0

/-- Whether the ring is full (R290). -/
def FaultQueue.full (q : FaultQueue) : Bool := decide ((q.tail - q.head).toNat = q.size)

/-- One fault queue of the two: the secure or the non-secure one. -/
def State.faultQ (s : State) (sec : Bool) : FaultQueue := if sec then s.fqs else s.fq

/-- Sets a fault queue. -/
def State.setFaultQ (s : State) (sec : Bool) (q : FaultQueue) : State :=
  if sec then { s with fqs := q } else { s with fq := q }

/-- The slice that translates a direct access (R231). -/
def sliceOf (pasid va : Nat) : Nat :=
  bitsOf va 28 21 ^^^ bitsOf va 36 29 ^^^ bitsOf va 44 37 ^^^ bitsOf va 52 45 ^^^ bitsOf va 56 53
    ^^^ bitsOf pasid 7 0 ^^^ bitsOf pasid 15 8 ^^^ bitsOf pasid 19 16

/-- Puts a request of the part's own to a peer into the peer's queue (R21, R26), translated from an address in a PASID if one is given
(R241). It travels in class 0, which the spec leaves open. DESIGN CHOICE, notes/assumptions/63.md -/
def State.ownAsk (s : State) (job : Option Nat) (q addr : Nat) (kind : AKind) (read : Bool) (at? : Option (Nat × Nat) := none) : Nat × State :=
  let (id, s) := s.newId
  let (rid, s) := s.newId
  let a : Access := { id := id, grp := id, req := id, src := .own job, cls := 0, kind := kind, tgt := .peer q addr,
                      node := at?.map (fun x => sliceOf x.1 x.2), pasid := (at?.map (·.1)).getD 0, va := (at?.map (·.2)).getD 0 }
  let o : OutReq := { id := rid, accs := [id], peer := q, cls := 0, read := read }
  (id, { s with inflight := s.inflight ++ [a], outreqs := s.outreqs ++ [o] })

/-- A write or an atomic of the part's own to a peer: one that is not active completes it at once (R29). -/
def State.ownSend (s : State) (job : Option Nat) (q addr : Nat) (kind : AKind) (at? : Option (Nat × Nat) := none) : State :=
  if (s.peer q).st = .active then (s.ownAsk job q addr kind false at?).2 else s

/-- A write of the Fewin's own at a physical address, which for a peer is only begun: none when it reaches no memory. -/
def State.ownWrite (s : State) (job : Option Nat) (pa : Nat) (bs : Bytes) (at? : Option (Nat × Nat) := none) : Option State :=
  match s.target pa with
  | .loc a =>
    match s.inExpander a with
    | some (_, _, true) => none
    | _ => some { s with mem := s.mem.write a bs }
  | .host n a => some (s.emit (.hostWrite n a bs))
  | .peer q a => some (s.ownSend job q a (.store bs) at?)
  | .reg _ => none
  | .none _ => none

/-- Counts a record that is not written (R290). -/
def State.loseRecord (s : State) (sec : Bool) : State :=
  let q := s.faultQ sec
  s.setFaultQ sec { q with lost := satAdd 0xFFFF q.lost 1 }

/-- A record that has been written: FQTAIL goes on, and its interrupt is sent (R290). -/
def State.recordIn (s : State) (sec : Bool) (r : Rec) : State :=
  let q := s.faultQ sec
  let s := s.setFaultQ sec { q with tail := q.tail + 1 }
  if q.irqEn || (194 ≤ r.cause ∧ r.cause ≤ 197) then s.emit (.msix 0 0 q.vec) else s

/-- Sends a record to a host fault queue (R290). In a peer's window its write is only begun, and later records wait for it. -/
def State.pushRecord (s : State) (sec : Bool) (r : Rec) : State :=
  let q := s.faultQ sec
  if q.wait ≠ [] then s.setFaultQ sec { q with wait := q.wait ++ [r] }
  else if !q.en || q.full then s.loseRecord sec else
  let pa := 4096 * fld q.base 54 12 + 32 * (q.tail.toNat % q.size)
  let bs := clean (r.bytes (decide (q.tail.toNat / q.size % 2 = 0)))
  match s.target pa with
  | .peer p a =>
    if (s.peer p).st ≠ .active then s.loseRecord sec
    else
      let (id, s) := s.ownAsk none p a (.store bs) false
      s.setFaultQ sec { s.faultQ sec with wait := [r], posted := some id }
  | _ =>
    match s.ownWrite none pa bs with
    | none => s.loseRecord sec
    | some s => s.recordIn sec r

/-- The end of a record's write in a peer's window: the records that have waited for it follow (R290). -/
def State.settleRecord (s : State) (sec : Bool) (id : Nat) (ok : Bool) : State :=
  let q := s.faultQ sec
  match q.wait with
  | r :: rest =>
    if q.posted ≠ some id then s else
    let s := s.setFaultQ sec { q with wait := [], posted := none }
    rest.foldl (fun s x => s.pushRecord sec x) (if ok then s.recordIn sec r else s.loseRecord sec)
  | [] => s

/-- The end of a write of a record, if an access is one. -/
def State.settleRecords (s : State) (id : Nat) (ok : Bool) : State := (s.settleRecord false id ok).settleRecord true id ok

/-- The queued ancestor of a job (R79). -/
def State.root (s : State) (j : Nat) : Nat :=
  (List.range 25).foldl (fun k _ => ((s.job k).parent).getD k) j

/-- Whether a job runs in the secure world (R81, R106). -/
def State.jobSecure (s : State) (j : Nat) : Bool := (s.queue (s.job (s.root j)).queue).cfg.getLsbD 20

/-- The PASID of a job's accesses (R205). -/
def State.pasidOf (s : State) (j : Nat) : Nat := fld (s.queue (s.job (s.root j)).queue).cfg 63 44

/-- The codes of causes (R283). -/
def causeOf (origin kind : Nat) : Nat := 48 * origin + kind

/-- Whether a cause is a memory cause, whose record carries a PASID (R289). -/
def isMemCause (c : Nat) : Bool := 49 ≤ c && c ≤ 58

/-- A record about a job (R289). -/
def State.jobRec (s : State) (j : Nat) (c : Cause) (abort : Bool) : Rec :=
  let q := s.job (s.root j)
  { abort := abort, wr := c.wr, queue := q.queue, aid := c.aid, tpc := c.tpc % 65536, cause := c.code,
    tval := c.tval, jobTag := (s.job j).jr.jobTag,
    pasid := if isMemCause c.code then c.pasid else 0, index := q.index.toNat }

/-- A notice that concerns no job (R284). -/
def State.notice (s : State) (sec : Bool) (code : Nat) (tval : W64) : State :=
  s.pushRecord sec { cause := code, tval := tval }

/-- A notice about a block, on the queue of the block's world (R284). -/
def State.blockNotice (s : State) (b code : Nat) : State :=
  s.notice (s.blockSecure b) code (BitVec.ofNat 64 b)

/-- A notice about a job's graph (R284). DEDUCED, notes/assumptions/19.md -/
def State.jobNotice (s : State) (j : Nat) (c : Cause) : State :=
  s.pushRecord (s.jobSecure j) (s.jobRec j c false)

/-! Requests that a port has taken (R42, R46, R48, R49, R55). -/

/-- What a port tile serves (R43, R52): a stack with its LPDDR, or the expanders of a link. -/
def State.serves (s : State) (p pa : Nat) : Bool :=
  match portKind p with
  | .mem m => (pa < 0x18000000000 && pa / 2 ^ 36 = m / 8) || s.inLpddr pa = some (m / 8)
  | .host n _ => (s.inExpander pa).any (fun e => e.1 = n)
  | .link _ => false

/-- The enabled bytes of one granule of a WRITE. -/
def TagEntry.granule (t : TagEntry) (g : Nat) : List (Option (Byte × Bool)) :=
  (List.range 8).map (fun i =>
    if t.mask.getLsbD (8 * g + i) then some (laneOf t.data.data (8 * g + i), t.data.dross) else none)

/-- One granule of a request, performed on memory (R47, R49, R50, R209). -/
def State.performGranule (s : State) (t : TagEntry) (g : Nat) : TagEntry × State :=
  match t.tgt with
  | some (.loc pa) =>
    if t.write then
      let (m, bad) := s.mem.writeGranule (pa / 8 + g) (t.granule g)
      ({ t with part := Tab.set t.part g [], met := t.met || bad }, { s with mem := m })
    else ({ t with part := Tab.set t.part g (s.mem.reads (pa + 8 * g) 8) }, s)
  | _ => (t, s)

/-- Whether a request breaks a world, and at which address (R86). DEDUCED, notes/assumptions/49.md -/
def State.breaksWorld (s : State) (p job : Nat) (t : TagEntry) : Option Nat :=
  match t.bad, t.tgt with
  | none, some (.loc pa) => if s.serves p pa && !s.jobSecure job && s.secureAt pa then some pa else none
  | _, _ => none

/-- Logs a completion (R48, R56). -/
def Port.log (p : Port) (r tag st : Nat) : Port :=
  let p := { p with trace := (p.trace ++ [(r, tag, st)]).drop (p.trace.length + 1 - 64) }
  if st = 0 then p else { p with errcnt := satAdd 0xFFFFFFFF p.errcnt 1, lastReq := r, lastTag := tag, lastStat := st }

/-- A status reply (R42). -/
def statusReply (st : Nat) : Token := { data := BitVec.ofNat 512 st, dross := st ≠ 0 }

/-- A request that fails with a status: a READ returns zeros (R42). -/
def TagEntry.failed (t : TagEntry) (st : Nat) : Nat × Token := (st, if t.write then statusReply st else { dross := true })

/-- Whether every granule of a request has been performed (R209). -/
def TagEntry.performed (t : TagEntry) : Bool := t.reply.isSome || t.part.length = 8

/-- Whether an earlier request of a requester holds back a later one (R46): they share a block, or may share one where the earlier is
not translated yet, or are WRITEs of one class. DEDUCED, notes/assumptions/67.md -/
def TagEntry.holds (a b : TagEntry) : Bool :=
  a.seq < b.seq && !a.performed && a.bad.isNone && b.bad.isNone &&
    (a.addr / 64 = b.addr / 64 || (if a.tgt.isNone then a.addr / 64 % 64 = b.addr / 64 % 64 else a.tgt = b.tgt) ||
      (a.write && b.write && a.cls = b.cls))

/-- A request that a port settles without its memory: its status and its reply (R42). None where memory is to be read or written.
The spec states no bytes for a READ whose header carried dross, nor for a request whose OP names no operation: they are a free
value of the header. DESIGN CHOICE, notes/assumptions/23.md -/
def State.settled (s : State) (p : Nat) (t : TagEntry) : Option (Nat × Token) :=
  let no := fun (st : Nat) => some (t.failed st)
  match t.bad, t.tgt with
  | some st, _ =>
    if !t.write && (st = 1 || t.noOp) then some (st, { data := Config.openReply t.data.data, dross := true }) else no st
  | none, some (.loc pa) =>
    if !s.serves p pa then no 3
    else match s.inExpander pa with
      | some (_, _, true) => no 5
      | _ => none
  | none, some (.host _ _) => no 3
  | none, some (.peer _ _) => no 3
  | none, _ => match portKind p with
    | .host _ _ => no 3
    | _ => no 2

/-- A request of a graph that is gone: it is performed, and its reply is discarded (R55). One that its node has not translated, or that
such a one holds back, stays behind as an orphan; one that waits on a ticket is discarded (R243). It is logged as any other. DEDUCED,
notes/assumptions/70.md -/
def State.performDead (p r job : Nat) (s : State) (t : TagEntry) : State :=
  if t.ticket.isSome then s
  else if (t.bad.isNone && t.tgt.isNone) || (s.port p).orphans.any (fun o => o.job = job && o.req = r && o.e.holds t) then
    s.setPort p { s.port p with orphans := (s.port p).orphans ++ [{ job := job, req := r, e := t }] }
  else
  match s.breaksWorld p job t, s.settled p t with
  | some pa, _ => s.pushRecord false { cause := if t.write then 338 else 337, tval := BitVec.ofNat 64 pa, wr := t.write }
  | none, some x => s.setPort p ((s.port p).log r t.tag x.1)
  | none, none =>
    let (t, s) := ((List.range 8).filter (fun g => (Tab.find t.part g).isNone)).foldl (fun x g => x.2.performGranule x.1 g) (t, s)
    s.setPort p ((s.port p).log r t.tag (if t.met || t.part.any (fun e => anyDross e.2) then 1 else 0))

/-- The requests that ports have taken for a job, performed as its graph goes: each requester's in issue order (R46, R55). -/
def State.performTaken (s : State) (j : Nat) : State :=
  s.ports.foldl (fun s e => (e.2.reqs.filter (fun r => r.2.job = j)).foldl (fun s r =>
    (r.2.tags.filter (fun t => t.reply.isNone)).foldl (State.performDead e.1 r.1 j) s) s) s

/-- The relocation entries of a port, without those whose traffic has all come home (R54). -/
def State.clearReloc (s : State) (p : Nat) : State :=
  let x := s.port p
  let live := fun (e : Nat × Reloc) =>
    e.2.tags.any (fun k => (Tab.find x.reqs k.1).any (fun r => r.tags.any (fun t => t.seq = k.2))) ||
      e.2.copies.any (fun u => s.graphs.any (fun g => g.2.sb.any (fun b => b.uid = u) ||
        g.2.actors.any (fun a => a.2.comps.any (fun c => c.uid = u && !c.done))))
  s.setPort p { x with reloc := x.reloc.filter live }

/-! The end of a graph. -/

/-- The job that a source belongs to: a firing of it, a stream of it, or a copy that was made for it. -/
def Src.job : Src → Option Nat
  | .firing j _ => some j
  | .engine _ _ j _ => some j
  | .stream j _ _ _ => some j
  | .inbound _ _ => none
  | .own _ => none

/-- Whether a source is a copy of an engine. -/
def Src.ofEngine (p : Nat) : Src → Bool
  | .engine q _ _ _ => p = q
  | _ => false

/-- Whether a source is a given copy of an engine. -/
def Src.ofCopy (p uid : Nat) : Src → Bool
  | .engine q u _ _ => p = q && uid = u
  | _ => false

/-- Whether an access in flight writes. -/
def Access.writes (a : Access) : Bool :=
  match a.kind with
  | .load _ => false
  | .store _ => true
  | .atomic _ _ _ _ _ => true
  | .fence _ => false

/-- Whether an access survives the end of its graph: a store or an atomic that has been issued (R153, R424). -/
def Access.survives (a : Access) : Bool := a.writes

/-- Accesses that are not made after all. A request to a peer that has not been sent loses them, and goes with the last of them;
one that has been sent stays outstanding until its response or its expiry (R26, R28). -/
def State.dropIf (s : State) (p : Access → Bool) : State :=
  let left := s.inflight.filter (fun a => !p a)
  let keep := fun (o : OutReq) => if o.sent then some o else
    let accs := o.accs.filter (fun i => left.any (fun a => a.id = i))
    if accs = [] then none else some { o with accs := accs }
  { s with inflight := left, outreqs := s.outreqs.filterMap keep }

/-- The waiters of a ticket that do not belong to a job (R243). -/
def Waiter.ofJob (j : Nat) (s : State) : Waiter → Bool
  | .firing k _ _ => k = j
  | .elem k _ _ => k = j
  | .req p r _ => (Tab.find (s.port p).reqs r).any (·.job = j)
  | .engine p => (s.port p).eng.copy.any (·.job = j)
  | .load k => k = j
  | .verify k => k = j
  | .ring _ => false

/-- An engine with some kicks, oldest first: 16 in its queue, and the others wait in the fabric (R201). -/
def Engine.queued (e : Engine) (ks : List Kick) : Engine := { e with kicks := ks.take 16, late := ks.drop 16 }

/-- A port tile without a job's copy, kicks, queues and requesters (R55, R203, R429). -/
def Port.dropJob (p : Port) (j : Nat) : Port :=
  { p with
    eng := { p.eng.queued ((p.eng.kicks ++ p.eng.late).filter (·.job ≠ j)) with
      copy := p.eng.copy.filter (·.job ≠ j),
      ending := p.eng.ending.filter (·.job ≠ j),
      named := p.eng.named.filter (fun e => Tab.find p.eng.owner e.1 ≠ some j),
      owner := p.eng.owner.filter (fun e => e.2 ≠ j) },
    reqs := p.reqs.filter (fun e => e.2.job ≠ j) }

/-- Frees a firing's launch reservations (R105). -/
def State.freeLaunches (s : State) (n : Nat) : State :=
  { s with kiln := { s.kiln with poolCnt := s.kiln.poolCnt - n } }

/-- A tile without a job's firing and causes. -/
def Tile.dropJob (t : Tile) (j : Nat) : Tile :=
  { t with firing := t.firing.filter (·.job ≠ j), causes := t.causes.filter (·.1 ≠ j) }

/-- The launches that a job's firings hold (R105). -/
def State.heldLaunches (s : State) (j : Nat) : Nat :=
  (s.tiles.map (fun e => match e.2.firing with
    | some f => if f.job = j then f.launches.length else 0
    | none => 0)).foldl (· + ·) 0

/-- Stops the moves that no actor takes part in any more: a kill stops a move at its step (R133). -/
def State.stopMoves (s : State) : State :=
  let on := fun t => s.graphs.any (fun g => g.2.phase ≠ .saved && g.2.actors.any (fun a => a.2.tile = t))
  { s with tiles := s.tiles.map (fun (e : Nat × Tile) => (e.1, { e.2 with
      move := e.2.move.filter (fun m => on e.1 || (m.swap && on m.dst)) })) }

/-- Removes a graph and everything of it that does not outlive it (R54, R55, R203, R243, R424). -/
def State.dropGraph (s : State) (j : Nat) : State :=
  let s := ((s.performTaken j).freeLaunches (s.heldLaunches j)).dropIf (fun a => a.src.job = some j && !a.survives)
  let s := State.stopMoves { s with
    tickets := s.tickets.map (fun e => (e.1, { e.2 with waiters := e.2.waiters.filter (fun w => !w.ofJob j s) })),
    tiles := s.tiles.map (fun e => (e.1, e.2.dropJob j)),
    ports := s.ports.map (fun e => (e.1, e.2.dropJob j)),
    graphs := Tab.erase s.graphs j }
  (s.ports.map (·.1)).foldl State.clearReloc s

/-- The job states in which a job's status is decided (R88). -/
def JState.over : JState → Bool
  | .ended => true
  | _ => false

/-- Ends a job with a failure of its own graph: the first failure to reach it stands (R76, R79, R105). An entry
of the pool whose job never entered Loading leaves the pool (R106). DEDUCED, notes/assumptions/60.md -/
def State.failJob (s : State) (j status cause : Nat) : State :=
  let b := s.job j
  let s := if b.parent.isSome && !b.everLoaded then s.freeLaunches 1 else s
  let b := { b with st := .ended, fail := b.fail.or (some (status, cause)), started := true, passes := 0,
                    held := none, victims := [], target := none, everLoaded := true }
  s.setJob j b

/-- Status codes of R76. -/
def stOK : Nat := 0
/-- Record refused. -/
def stBadRec : Nat := 1
/-- Image refused. -/
def stBadImage : Nat := 2
/-- Trap that aborted the graph. -/
def stFault : Nat := 3
/-- Killed. -/
def stKilled : Nat := 4
/-- Predecessor not OK. -/
def stAborted : Nat := 5
/-- Launch chain too deep. -/
def stDepth : Nat := 6
/-- Uncorrectable error. -/
def stUncorr : Nat := 7
/-- World violation. -/
def stWorld : Nat := 8
/-- Killed while stalled for quota. -/
def stQuota : Nat := 9

/-- Aborts a graph with a fatal cause: the record goes to the host fault queue, the graph with all that belongs
to it is gone, and the job will retire with the status (R284, R76). The record of a world cause goes to the
non-secure queue (R86). -/
def State.abortGraph (s : State) (j status : Nat) (c : Cause) : State :=
  if !s.hasGraph j then s else
  let sec := s.jobSecure j && !(c.code = 337 || c.code = 338)
  let s := s.pushRecord sec (s.jobRec j c true)
  (s.dropGraph j).failJob j status c.code

/-! The abort of a firing (R156). -/

/-- Puts back the undo log of a firing, the oldest entry last, so that the first write's contents stand (R154). -/
def Actor.undo (a : Actor) (log : List Undo) : Actor :=
  log.foldr (fun u a => match u.slot with
    | none => { a with tstore := a.tstore.restore (256 * u.piece) u.old }
    | some h => { a with slots := Tab.modify a.slots h (fun x => { x with mem := x.mem.restore (256 * u.piece) u.old }) }) a

/-- Puts back the checkpointed contexts; the count of row firings goes on (R154, R294). -/
def Actor.restoreCtxs (a : Actor) (ck : Tab Mctx) : Actor :=
  ck.foldl (fun a e => { a with ctxs := Tab.modify a.ctxs e.1 (fun m => { e.2 with count := m.count }) }) a

/-- Puts back the context words (R420). -/
def Actor.restoreWords (a : Actor) (ws : Tab W32) : Actor :=
  ws.foldl (fun a e => { a with ctxs := Tab.modify a.ctxs e.1 (fun m => { m with word := e.2 }) }) a

/-- Releases slot claims: the contents are discarded (R395). -/
def Actor.releaseSlots (a : Actor) (hs : List Nat) : Actor :=
  hs.foldl (fun a h => { a with slots := Tab.modify a.slots h (fun x => { x with claimed := false, mem := {} }) }) a

/-- Ends a firing without a trace: the actor's state is as at firing start, its loads are dropped, and its launch
reservations are freed (R156, R395, R420). -/
def State.rollback (s : State) (t : Nat) (f : Firing) : State :=
  let a := s.actor f.job f.aid
  let a := ((a.undo f.undo).restoreCtxs f.ckpt).restoreWords f.words0
  let a := { a.releaseSlots f.claims with nodes := if f.nodes0 = [] then a.nodes else f.nodes0 }
  let s := (s.setActor f.job f.aid a).freeLaunches f.launches.length
  let s := s.dropIf (fun x => x.src = Src.firing f.job f.aid && !x.writes)
  s.setTile t { s.tile t with firing := none }

/-- Puts a cause into the list that the next boundary of a tile takes (R286). -/
def State.postCause (s : State) (t j : Nat) (c : Cause) : State :=
  s.setTile t { s.tile t with causes := (s.tile t).causes ++ [(j, c)] }

/-- A cause at the instruction that a firing executes (R283, R289). -/
def Firing.cause (f : Firing) (code : Nat) (tval : W64) : Cause :=
  { code := code, tval := tval, tpc := (f.regs.pc % 65536).toNat, aid := f.aid }

/-- The physical address of a load that leads to no memory (R206). -/
def Access.nowhere (s : State) (a : Access) : Option Nat :=
  match a.kind, a.tgt with
  | .load _, .none pa => some pa
  | .load _, .host n x => if s.hostUp n then none else some (0x1000000000000 + n * 0x400000000000 + x)
  | _, _ => none

/-- The physical address of a load of the non-secure world in secure memory (R86). -/
def Access.foul (s : State) (a : Access) : Option Nat :=
  match a.kind, a.tgt with
  | .load _, .loc pa => if !a.world && s.secureAt pa then some pa else none
  | _, _ => none

/-- The physical address of a load in a failed expander (R52). -/
def Access.cut (s : State) (a : Access) : Option Nat :=
  match a.kind, a.tgt with
  | .load _, .loc pa => if !(a.foul s).isSome && (s.inExpander pa).any (fun e => e.2.2) then some pa else none
  | _, _ => none

/-- The accesses of a firing itself that are still on their way. -/
def State.unperformed (s : State) (f : Firing) : List Access :=
  s.inflight.filter (fun a => a.src = Src.firing f.job f.aid && decide (f.first ≤ a.id))

/-- The NOMEM of a firing that ends before commit step 3: a load is performed at issue (R348), so one that is still on its way and
leads to no memory raises it too (R206). -/
def State.lateNomem (s : State) (f : Firing) : Option Cause :=
  f.nomem.or ((s.unperformed f).findSome? (fun a => (a.nowhere s).map (fun pa =>
    { code := 56, tval := BitVec.ofNat 64 pa, aid := f.aid, pasid := s.pasidOf f.job, tpc := (f.regs.pc % 65536).toNat })))

/-- The world violation of a firing that ends before commit step 3, by a load that it has issued (R86, R348). -/
def State.lateFoul (s : State) (f : Firing) : Option Cause :=
  (s.unperformed f).findSome? (fun a => (a.foul s).map (fun pa => { code := 337, tval := BitVec.ofNat 64 pa, aid := f.aid }))

/-- The notices that the loads on their way raise as their firing ends before commit step 3 (R52, R348). -/
def State.lateNotices (s : State) (f : Firing) : State :=
  ((s.unperformed f).filterMap (fun a => a.cut s)).foldl (fun s pa =>
    s.jobNotice f.job { code := 58, tval := BitVec.ofNat 64 pa, aid := f.aid, pasid := s.pasidOf f.job }) s

/-- Raises a firing cause in a firing (R331): a replayable firing aborts and the cause is taken at the boundary
that follows, the graph of another is aborted, and a fault firing aborts its graph with FAULTACTOR (R287). A
NOMEM that the firing has met already is the first cause (R288), and so is that of a load which it has issued (R348). DEDUCED,
notes/assumptions/12.md -/
def State.raiseC (s : State) (t : Nat) (f : Firing) (c : Cause) : State :=
  let c := ((s.lateNomem f).map (fun n => { n with suspends := true })).getD c
  match s.lateFoul f with
  | some w => s.abortGraph f.job stWorld w
  | none =>
    let s := s.lateNotices f
    match f.kind with
    | .fault _ => s.abortGraph f.job stFault { code := 101, tval := BitVec.ofNat 64 f.aid }
    | _ =>
      if f.replay then (s.rollback t f).postCause t f.job c
      else s.abortGraph f.job stFault c

/-- Raises BOUNDS for the write of an instruction (R177, R289). -/
def State.raiseWrite (s : State) (t : Nat) (f : Firing) (ea : Int) : State :=
  s.raiseC t f { f.cause 4 (BitVec.ofInt 64 ea) with wr := true }

/-- Raises a firing cause at the instruction that a firing executes (R331). -/
def State.raise (s : State) (t : Nat) (f : Firing) (code : Nat) (tval : W64) : State :=
  s.raiseC t f (f.cause code tval)

/-- Raises CONFIG in a firing: a fatal cause (R284). -/
def State.raiseConfig (s : State) (f : Firing) : State :=
  s.abortGraph f.job stFault
    { code := 97, tval := BitVec.ofNat 64 f.aid, tpc := (f.regs.pc % 65536).toNat, aid := f.aid }

/-! Taking a trap (R284 to R287). -/

/-- Whether the graph has a fault actor that takes deliveries (R287). -/
def Graph.takes (g : Graph) : Option FaultActor :=
  g.fault.filter (fun fa => !(g.actor fa.aid).ended)

/-- Takes a firing cause at a boundary: the trapping actor is suspended and a delivery joins the fault actor's
queue of 16, or, with no fault actor, the graph is aborted (R284, R286). Once a quench has saved the fault actor's node, the delivery is
discarded and the trapping actor is not suspended (R288). -/
def State.takeCause (s : State) (j : Nat) (c : Cause) : State :=
  if !s.hasGraph j then s else
  let g := s.graph j
  match g.takes with
  | none => s.abortGraph j stFault c
  | some fa =>
    if g.quench.any (·.saved.contains fa.aid) then s
    else if (g.actor fa.aid).deliveries.length ≥ 16 then
      s.abortGraph j stFault { code := 101, tval := BitVec.ofNat 64 fa.aid }
    else
      let g := if c.suspends then g.setActor c.aid { g.actor c.aid with suspended := true } else g
      let a := g.actor fa.aid
      s.setGraph j (g.setActor fa.aid { a with deliveries := a.deliveries ++ [c] })

/-- Releases the trapping actor of a delivery (R287, R288). -/
def State.releaseTrapped (s : State) (j : Nat) (c : Cause) : State :=
  if c.suspends then s.setActor j c.aid { s.actor j c.aid with suspended := false } else s

/-- Removes a settled delivery from the fault actor's queue and releases its trapping actor: the return from a
trap by commit or aend (R287). -/
def State.settle (s : State) (j aid : Nat) (c : Cause) : State :=
  let a := s.actor j aid
  let s := s.setActor j aid { a with deliveries := a.deliveries.erase c }
  s.releaseTrapped j c

/-- The record that is written into the trap area before a fault firing (R286, R289). -/
def State.trapRecord (s : State) (j : Nat) (c : Cause) : List Byte := (s.jobRec j c false).bytes true

/-- Starts a fault firing: the trap area holds the record, and the firing begins at the trap handler with
tcause, tval and tpc set (R286, R337). -/
def State.startFault (s : State) (t j : Nat) (fa : FaultActor) (c : Cause) : State :=
  let a := s.actor j fa.aid
  let a := { a with hram := a.hram.store fa.area (clean (s.trapRecord j c)) }
  let s := s.setActor j fa.aid a
  s.setFiring t
    { job := j, aid := fa.aid, kind := .fault c, first := s.nextId, regs := { pc := fa.handler },
      w0 := a.w0, w1 := a.w1, gctr := a.gctr, fflags := a.fflags, lane := a.lane,
      words0 := a.ctxs.map (fun e => (e.1, e.2.word)), nodes0 := a.nodes, gens := a.gens }

/-! The end of a copy. -/

/-- Marks the oldest unreleased completion of a copy released, with its status (R160, R176, R201). -/
def Actor.release (a : Actor) (uid : Nat) (st : BitVec 2) : Actor :=
  { a with comps := a.comps.map (fun c => if c.uid = uid then { c with released := true, cxst := st } else c) }

/-- Gives the issuer of a copy that has ended its mailbox release, once no write of the copy is on its way (R199, R201, R221). -/
def State.settleEnding (s : State) (p uid : Nat) : State :=
  let e := (s.port p).eng
  match e.ending.find? (·.uid = uid) with
  | none => s
  | some x =>
    if s.inflight.any (fun a => a.src.ofCopy p uid) then s else
    let s := s.setEngine p { e with ending := e.ending.filter (·.uid ≠ uid) }
    if s.hasGraph x.job then s.setActor x.job x.aid ((s.actor x.job x.aid).release uid x.cxst) else s

/-- Ends the copy of an engine: its mailbox release, with the completion status (R201, R316), after its last write. -/
def State.endCopy (s : State) (p : Nat) (c : Copy) (st : BitVec 2) : State :=
  let s := s.dropIf (fun x => x.src.ofCopy p c.uid && !x.writes)
  let e := (s.port p).eng
  (s.setEngine p { e with copy := none, ending := { uid := c.uid, job := c.job, aid := c.aid, cxst := st } :: e.ending.filter (·.uid ≠ c.uid) }).settleEnding
    p c.uid

/-- Posts a cause of a copy for its issuing actor, taken at the actor's next boundary; the kicking firing has
committed, so the actor is not suspended (R286). DEDUCED, notes/assumptions/13.md -/
def State.postCopyCause (s : State) (j aid code : Nat) (tval : W64) (wr : Bool := false) : State :=
  s.postCause (s.actor j aid).tile j { code := code, tval := tval, aid := aid, suspends := false, wr := wr }

/-- Ends a copy before its last element: the completion carries PARTIAL and DROSS, and a cause is raised for
the issuing actor (R176, R199, R316); `wr` where a write broke it (R289). -/
def State.breakCopy (s : State) (p : Nat) (c : Copy) (code : Nat) (tval : W64) (wr : Bool := false) : State :=
  (s.endCopy p c 3).postCopyCause c.job c.aid code tval wr

/-- Ends a copy with MCODE, whose value is the microcode offset (R316). -/
def State.mcode (s : State) (p : Nat) (c : Copy) : State :=
  s.breakCopy p c 147 (BitVec.ofInt 64 (s.port p).eng.regs.pc)

/-! The agent that executes a control word. -/

/-- The firing whose instruction the sequencer in focus executes. A firing in commit executes none (R342). -/
def State.seq? (s : State) : Option (Nat × Firing) :=
  match s.focus with
  | .engine _ => none
  | .tile t =>
    match (s.tile t).firing with
    | none => none
    | some f => match f.phase with
      | .commit _ _ => none
      | _ => some (t, f)

/-- The copy whose microcode the engine in focus executes. -/
def State.copy? (s : State) : Option (Nat × Copy) :=
  match s.focus with
  | .tile _ => none
  | .engine p => (s.port p).eng.copy.map (fun c => (p, c))

/-- Gives a firing new registers and moves past the word. -/
def State.stepFiring (s : State) (t : Nat) (f : Firing) (r : Regs) : State :=
  s.setFiring t { f with regs := r.advance, icount := f.icount + 1 }

/-- Gives an engine new registers and moves past the word. -/
def State.stepEngine (s : State) (p : Nat) (r : Regs) : State :=
  s.setEngine p { (s.port p).eng with regs := r.advance }

/-- An instruction of the sequencer and of microcode that only changes registers; it waits for those it reads. -/
def onRegs (s : State) (ss : List (BitVec 5)) (k : Regs → Regs) : Res :=
  match s.seq? with
  | some (t, f) => if f.regs.busy ss [] then .next s else .next (s.stepFiring t f (k f.regs))
  | none =>
    match s.copy? with
    | some (p, _) =>
      let r := (s.port p).eng.regs
      if r.busy ss [] then .next s else .next (s.stepEngine p (k r))
    | none => .fault .noFiring

/-- An instruction of the sequencer only: in microcode it ends the copy with MCODE (R316). It waits for the
registers it reads. -/
def onSeq (s : State) (ss vs : List (BitVec 5)) (k : Nat → Firing → Res) : Res :=
  match s.seq? with
  | some (t, f) => if f.regs.busy ss vs then .next s else k t f
  | none =>
    match s.copy? with
    | some (p, c) => .next (s.mcode p c)
    | none => .fault .noFiring

/-- An instruction with one meaning for a firing and one for a copy. It waits for the registers it reads. -/
def onEither (s : State) (ss vs : List (BitVec 5)) (k : Nat → Firing → Res)
    (m : Nat → Copy → Regs → Res) : Res :=
  match s.seq? with
  | some (t, f) => if f.regs.busy ss vs then .next s else k t f
  | none =>
    match s.copy? with
    | some (p, c) =>
      let r := (s.port p).eng.regs
      if r.busy ss vs then .next s else m p c r
    | none => .fault .noFiring

/-- Raises a cause at the instruction of a firing. -/
def trapAt (s : State) (t : Nat) (f : Firing) (code : Nat) (tval : W64) : Res := .next (s.raise t f code tval)

/-- Raises DROSSUSE for the agent in focus: a firing traps (R330); a copy ends as at a microcode error, with
DROSSUSE for the issuing actor. DEDUCED, notes/assumptions/14.md -/
def drossUse (s : State) (w : W64) : Res :=
  match s.seq? with
  | some (t, f) => trapAt s t f 7 w
  | none =>
    match s.copy? with
    | some (p, c) => .next (s.breakCopy p c 7 w)
    | none => .fault .noFiring

/-- An instruction over registers whose listed sources may not carry dross (R330). -/
def onRegsClean (w : W64) (s : State) (ss : List (BitVec 5)) (k : Regs → Regs) : Res :=
  match s.seq? with
  | some (t, f) =>
    if f.regs.busy ss [] then .next s
    else if ss.any f.regs.drossS then trapAt s t f 7 w
    else .next (s.stepFiring t f (k f.regs))
  | none =>
    match s.copy? with
    | some (p, c) =>
      let r := (s.port p).eng.regs
      if r.busy ss [] then .next s
      else if ss.any r.drossS then .next (s.breakCopy p c 7 w)
      else .next (s.stepEngine p (k r))
    | none => .fault .noFiring

end Sys2Proof.Machine
end

