-- ==== Sys2Proof/Machine/Numerics.lean ====
section
/-! DEFINITION. Number formats, rounding, exact sums, microscaled blocks, SD8, ingots and grit (R250 to R282). -/

namespace Sys2Proof.Machine

/-! Flags of R176, as bits. -/

/-- Invalid. -/
def flNV : BitVec 5 := 16
/-- Divide-by-zero. -/
def flDZ : BitVec 5 := 8
/-- Overflow. -/
def flOF : BitVec 5 := 4
/-- Underflow. -/
def flUF : BitVec 5 := 2
/-- Inexact. -/
def flNX : BitVec 5 := 1

/-- A flag when a condition holds. -/
def flIf (c : Bool) (f : BitVec 5) : BitVec 5 := if c then f else 0

/-! Formats (R190, R250, R252). -/

/-- A floating-point format of R250: its fields, its bias, the code of the largest finite value, whether it has
infinities, and its canonical NaN if it has one. -/
structure FFmt where
  ebits : Nat
  mbits : Nat
  bias : Nat
  maxFin : Nat
  hasInf : Bool
  nan : Option Nat
  deriving DecidableEq, Repr

/-- The floating-point format of a code of R190. -/
def ffmt : Nat → Option FFmt
  | 0x7 => some ⟨8, 23, 127, 0x7F7FFFFF, true, some 0x7FC00000⟩
  | 0x5 => some ⟨5, 10, 15, 0x7BFF, true, some 0x7E00⟩
  | 0x6 => some ⟨8, 7, 127, 0x7F7F, true, some 0x7FC0⟩
  | 0x3 => some ⟨4, 3, 7, 0x7E, false, some 0x7F⟩
  | 0x4 => some ⟨5, 2, 15, 0x7B, true, some 0x7E⟩
  | 0x9 => some ⟨2, 1, 1, 0x7, false, none⟩
  | _ => none

/-- The width in bits of an integer format of R252. -/
def ifmt : Nat → Option Nat
  | 0x0 => some 8
  | 0x1 => some 16
  | 0x2 => some 32
  | 0xA => some 4
  | _ => none

/-- The width in bits of one element of a format (R190); the microscaled formats without their scale. -/
def fmtBits : Nat → Nat
  | 0x0 => 8
  | 0x1 => 16
  | 0x2 => 32
  | 0x3 => 8
  | 0x4 => 8
  | 0x5 => 16
  | 0x6 => 16
  | 0x7 => 32
  | 0x8 => 8
  | 0x9 => 4
  | 0xA => 4
  | 0xB => 8
  | 0xC => 4
  | 0xD => 8
  | _ => 0

/-- Bits of a floating-point format. -/
def FFmt.width (f : FFmt) : Nat := 1 + f.ebits + f.mbits

/-- An exact value: NaN, an infinity, or ± mag · 2^ex, a zero with its sign. -/
inductive XV
  | nan
  | inf (neg : Bool)
  | fin (neg : Bool) (mag : Nat) (ex : Int)
  deriving DecidableEq, Repr

/-- The value of a floating-point code (R250). -/
def FFmt.decode (f : FFmt) (c : Nat) : XV :=
  let neg := decide (bitsOf c (f.ebits + f.mbits) (f.ebits + f.mbits) = 1)
  let e := bitsOf c (f.ebits + f.mbits - 1) f.mbits
  let m := bitsOf c (f.mbits - 1) 0
  let top := 2 ^ f.ebits - 1
  if e = top && f.hasInf then if m = 0 then .inf neg else .nan
  else if e = top && f.nan.isSome && m = 2 ^ f.mbits - 1 then .nan
  else if e = 0 then .fin neg m (1 - (f.bias : Int) - f.mbits)
  else .fin neg (2 ^ f.mbits + m) ((e : Int) - f.bias - f.mbits)

/-- The value of an integer, exactly. -/
def XV.ofInt (v : Int) : XV := .fin (decide (v < 0)) v.natAbs 0

/-- The value of a code in a floating-point or integer format (R250, R252). -/
def decodeFmt (fmt c : Nat) : XV :=
  match ffmt fmt with
  | some f => f.decode c
  | none => match ifmt fmt with
    | some n => .ofInt (sgn n c)
    | none => .nan

/-! Rounding (R258, R265). -/

/-- 2^k as a number for k ≥ 0, else 1. -/
def pow2 (k : Int) : Nat := 2 ^ k.toNat

/-- ⌊log2 (num / den)⌋ for positive numbers. -/
def ilog2 (num den : Nat) : Int :=
  let g : Int := (Nat.log2 num : Int) - Nat.log2 den
  if num * pow2 (-g) < den * pow2 g then g - 1 else g

/-- Which of the two candidates n and n + 1 a rounding takes, true for the one of larger magnitude, given the
remainder r / d of n (R258 step 2, R265). -/
def roundUp (mode : Nat) (neg : Bool) (h n r d : Nat) : Bool :=
  if r = 0 then false else
  match mode with
  | 0 => decide (d < 2 * r) || (decide (d = 2 * r) && n % 2 = 1)
  | 1 => false
  | 2 => neg
  | 3 => !neg
  | _ => decide (2 ^ 16 ≤ r * 2 ^ 16 / d + h)

/-- num / den · 2^ex in units of 2^q: the quotient, the remainder and its divisor. -/
def scaleTo (num den : Nat) (ex q : Int) : Nat × Nat × Nat :=
  let n := num * pow2 (ex - q)
  let d := den * pow2 (q - ex)
  (n / d, n % d, d)

/-- The code of n · 2^q without its sign, for n below 2^(mbits + 1) or equal to it. -/
def FFmt.pack (f : FFmt) (n : Nat) (q : Int) : Nat :=
  let n' := if n = 2 ^ (f.mbits + 1) then 2 ^ f.mbits else n
  let q' := if n = 2 ^ (f.mbits + 1) then q + 1 else q
  if n' < 2 ^ f.mbits then n'
  else (q' + f.mbits + f.bias).toNat * 2 ^ f.mbits + (n' - 2 ^ f.mbits)

/-- The sign bit of a format. -/
def FFmt.sign (f : FFmt) (neg : Bool) : Nat := if neg then 2 ^ (f.ebits + f.mbits) else 0

/-- An infinity as a result (R258 step 3, R260): the format's infinity, or the canonical NaN of E4M3. -/
def FFmt.infCode (f : FFmt) (neg : Bool) : Nat :=
  if f.hasInf then f.sign neg + (2 ^ f.ebits - 1) * 2 ^ f.mbits
  else f.nan.getD (f.sign neg + f.maxFin)

/-- Rounds ± num / den · 2^ex once into a float format (R258, R265): the code and the flags. -/
def FFmt.round (f : FFmt) (mode : Nat) (sat : Bool) (h : Nat) (neg : Bool) (num den : Nat) (ex : Int) :
    Nat × BitVec 5 :=
  if num = 0 then (f.sign neg, 0) else
  let e := ilog2 num den + ex
  let emin : Int := 1 - (f.bias : Int)
  let q := max (e - f.mbits) (emin - f.mbits)
  let (n0, r, d) := scaleTo num den ex q
  let up := roundUp mode neg h n0 r d
  let n := if up then n0 + 1 else n0
  let code := f.pack n q
  let inexact := decide (r ≠ 0)
  if f.maxFin < code then
    let toInf := match mode with
      | 1 => false
      | 2 => neg
      | 3 => !neg
      | _ => true
    (if sat || f.nan.isNone || !toInf then f.sign neg + f.maxFin else f.infCode neg, flOF ||| flNX)
  else
    let tiny :=
      if e < emin then
        let (n1, r1, d1) := scaleTo num den ex (e - f.mbits)
        let up1 := if mode = 4 then up && decide (r1 ≠ 0) else roundUp mode neg h n1 r1 d1
        decide ((if up1 then n1 + 1 else n1) < pow2 (emin - e + f.mbits))
      else false
    (f.sign neg + code, flIf inexact flNX ||| flIf (inexact && tiny) flUF)

/-- What a conversion gives: the code, the flags, and whether dross arises (R275). -/
structure Conv where
  code : Nat
  flags : BitVec 5 := 0
  arises : Bool := false
  deriving DecidableEq, Repr

/-- The helper rnd_f of R329: rounds an exact value into a float format, special values under R260. -/
def FFmt.ofXV (f : FFmt) (mode : Nat) (sat : Bool) (h : Nat) : XV → Conv
  | .nan => match f.nan with
    | some c => ⟨c, 0, false⟩
    | none => ⟨0, flNV, true⟩
  | .inf neg =>
    if f.hasInf then ⟨f.infCode neg, 0, false⟩
    else if f.nan.isSome && !sat then ⟨f.infCode neg, flNV, false⟩
    else ⟨f.sign neg + f.maxFin, flNX, false⟩
  | .fin neg m e => let r := f.round mode sat h neg m 1 e; ⟨r.1, r.2, false⟩

/-- Rounds num / den · 2^ex to an integer (R262): the magnitude and whether it changed. -/
def roundInt (mode : Nat) (neg : Bool) (num den : Nat) (ex : Int) : Nat × Bool :=
  let (n, r, d) := scaleTo num den ex 0
  (if roundUp (if mode = 4 then 0 else mode) neg 0 n r d then n + 1 else n, decide (r ≠ 0))

/-- Signed range of n bits. -/
def inRange (n : Nat) (v : Int) : Bool := decide (-(2 ^ (n - 1) : Int) ≤ v) && decide (v < 2 ^ (n - 1))

/-- The clamp of R329 `sat` with signed 1: the value and whether it clamped. -/
def clampS (n : Nat) (v : Int) : Int × Bool :=
  if v < -(2 ^ (n - 1) : Int) then (-(2 ^ (n - 1)), true)
  else if (2 ^ (n - 1) : Int) ≤ v then (2 ^ (n - 1) - 1, true) else (v, false)

/-- An exact value into an integer format (R260, R262). Inexact tells of the rounding, invalid of the range.
DEDUCED, notes/assumptions/20.md -/
def intOfXV (n mode : Nat) (sat : Bool) : XV → Conv
  | .nan => ⟨0, flNV, true⟩
  | .inf neg => ⟨wrapN n (if neg then -(2 ^ (n - 1)) else 2 ^ (n - 1) - 1), flNV, false⟩
  | .fin neg m e =>
    let (k, ch) := roundInt mode neg m 1 e
    let v : Int := if neg then -k else k
    let fl := flIf ch flNX
    if inRange n v then ⟨wrapN n v, fl, false⟩
    else ⟨wrapN n (if sat then (clampS n v).1 else v), fl ||| flNV, false⟩

/-- Fits an exact integer into n bits (R261): the pattern and the flags. -/
def fitInt (n : Nat) (sat : Bool) (v : Int) : Nat × BitVec 5 :=
  if sat then (wrapN n (clampS n v).1, flIf (clampS n v).2 flOF) else (wrapN n v, 0)

/-- A value of one format into another (R263, R372): float or integer target. -/
def intoFmt (fmt mode : Nat) (sat : Bool) (h : Nat) (v : XV) : Conv :=
  match ffmt fmt with
  | some f => f.ofXV mode sat h v
  | none => match ifmt fmt with
    | some n => intOfXV n mode sat v
    | none => ⟨0, 0, false⟩

/-- A plain conversion of a code from one format to another (R263, R372). -/
def convert (src dst mode : Nat) (sat : Bool) (h c : Nat) : Conv :=
  match ifmt src, ifmt dst with
  | some m, some n => let r := fitInt n (sat && decide (n < m)) (sgn m c); ⟨r.1, r.2, false⟩
  | _, _ => intoFmt dst mode sat h (decodeFmt src c)

/-! Exact arithmetic. -/

/-- The sign of a value. -/
def XV.neg : XV → Bool
  | .nan => false
  | .inf n => n
  | .fin n _ _ => n

/-- Whether a value is a zero. -/
def XV.isZero : XV → Bool
  | .fin _ 0 _ => true
  | _ => false

/-- Whether a value is finite. -/
def XV.isFin : XV → Bool
  | .fin _ _ _ => true
  | _ => false

/-- The negated value; a NaN has no sign. -/
def XV.flip : XV → XV
  | .nan => .nan
  | .inf n => .inf (!n)
  | .fin n m e => .fin (!n) m e

/-- A finite value as an integer in units of 2^q, for q at most its exponent. -/
def XV.units (q : Int) : XV → Int
  | .fin n m e => if n then -((m * pow2 (e - q) : Nat) : Int) else (m * pow2 (e - q) : Nat)
  | _ => 0

/-- The exponent of a finite value. -/
def XV.ex : XV → Int
  | .fin _ _ e => e
  | _ => 0

/-- The exact product; 0 · ∞ is NaN with invalid (R251, R370). -/
def mulX : XV → XV → XV × BitVec 5
  | .nan, _ => (.nan, 0)
  | _, .nan => (.nan, 0)
  | .inf a, y => if y.isZero then (.nan, flNV) else (.inf (a != y.neg), 0)
  | x, .inf b => if x.isZero then (.nan, flNV) else (.inf (x.neg != b), 0)
  | .fin a m e, .fin b n f => (.fin (a != b) (m * n) (e + f), 0)

/-- The exact sum of terms (R258 step 5, R269): NaN, infinities, and the sign of a zero. -/
def sumX (mode : Nat) (ts : List XV) : XV × BitVec 5 :=
  if ts.any (· = .nan) then (.nan, 0)
  else
    let pi := ts.any (· = .inf false)
    let ni := ts.any (· = .inf true)
    if pi && ni then (.nan, flNV)
    else if pi then (.inf false, 0)
    else if ni then (.inf true, 0)
    else
      let q := ts.foldl (fun a t => min a t.ex) 0
      let v : Int := (ts.map (XV.units q)).foldl (· + ·) 0
      if v = 0 then
        let neg :=
          if ts.all (fun t => t.isZero && t.neg) && ts ≠ [] then true
          else if ts.all (fun t => t.isZero && !t.neg) then false
          else decide (mode = 2)
        (.fin neg 0 0, 0)
      else (.fin (decide (v < 0)) v.natAbs q, 0)

/-- x < y for values other than NaN. -/
def ltX : XV → XV → Bool
  | .nan, _ => false
  | _, .nan => false
  | .inf a, .inf b => a && !b
  | .inf a, _ => a
  | _, .inf b => !b
  | x, y => let q := min x.ex y.ex; decide (x.units q < y.units q)

/-- x = y; −0 equals +0, a NaN equals nothing (R370). -/
def eqX : XV → XV → Bool
  | .nan, _ => false
  | _, .nan => false
  | .inf a, .inf b => a = b
  | .inf _, _ => false
  | _, .inf _ => false
  | x, y => let q := min x.ex y.ex; decide (x.units q = y.units q)

/-- The quotient x / y rounded once into a float format, with the special cases of R370. -/
def FFmt.div (f : FFmt) (mode : Nat) (sat : Bool) (h : Nat) : XV → XV → Conv
  | .nan, _ => f.ofXV mode sat h .nan
  | _, .nan => f.ofXV mode sat h .nan
  | .inf _, .inf _ => let c := f.ofXV mode sat h .nan; { c with flags := c.flags ||| flNV }
  | .inf a, y => f.ofXV mode sat h (.inf (a != y.neg))
  | x, .inf b => f.ofXV mode sat h (.fin (x.neg != b) 0 0)
  | .fin a m e, .fin b n g =>
    if n = 0 then
      if m = 0 then let c := f.ofXV mode sat h .nan; { c with flags := c.flags ||| flNV }
      else let c := f.ofXV mode sat h (.inf (a != b)); { c with flags := c.flags ||| flDZ }
    else let r := f.round mode sat h (a != b) m n (e - g); ⟨r.1, r.2, false⟩

/-- The integer square root below 2^bits. -/
def isqrt : Nat → Nat → Nat → Nat
  | 0, _, r => r
  | k + 1, n, r => isqrt k n (if (r + 2 ^ k) * (r + 2 ^ k) ≤ n then r + 2 ^ k else r)

/-- The square root rounded once into a float format (R369, R370): 80 bits of the root and a sticky bit below
them decide every rounding. -/
def FFmt.sqrt (f : FFmt) (mode : Nat) (sat : Bool) (h : Nat) : XV → Conv
  | .nan => f.ofXV mode sat h .nan
  | .inf neg => if neg then let c := f.ofXV mode sat h .nan; { c with flags := c.flags ||| flNV }
      else f.ofXV mode sat h (.inf false)
  | .fin neg m e =>
    if m = 0 then f.ofXV mode sat h (.fin neg 0 0)
    else if neg then let c := f.ofXV mode sat h .nan; { c with flags := c.flags ||| flNV }
    else
      let m' := if e % 2 = 0 then m else 2 * m
      let e' := if e % 2 = 0 then e else e - 1
      let n := m' * 2 ^ 160
      let r := isqrt 100 n 0
      let s := 2 * r + (if r * r = n then 0 else 1)
      let c := f.round mode sat h false s 1 (e' / 2 - 81)
      ⟨c.1, c.2, false⟩

/-- The class code of a float value (R370). -/
def FFmt.classOf (f : FFmt) (c : Nat) : Nat :=
  let e := bitsOf c (f.ebits + f.mbits - 1) f.mbits
  match f.decode c with
  | .nan => 8
  | .inf neg => if neg then 0 else 7
  | .fin neg m _ =>
    if m = 0 then if neg then 3 else 4
    else if e = 0 then if neg then 2 else 5
    else if neg then 1 else 6

/-- vfmin and vfmax on codes (R370). -/
def FFmt.minmax (f : FFmt) (isMax : Bool) (x y : Nat) : Nat :=
  let vx := f.decode x
  let vy := f.decode y
  match vx, vy with
  | .nan, .nan => f.nan.getD 0
  | .nan, _ => y
  | _, .nan => x
  | _, _ =>
    let less := fun u v : XV => ltX u v || (u.isZero && v.isZero && u.neg && !v.neg)
    if (if isMax then less vx vy else less vy vx) then y else x

/-- The scaled narrowing of R264: x / s with its special scales, into a float or an integer format. -/
def scaledNarrow (fmt mode : Nat) (sat : Bool) (h : Nat) (x s : XV) : Conv :=
  let plus := fun (c : Conv) (f : BitVec 5) => { c with flags := c.flags ||| f }
  match x, s with
  | .nan, _ => intoFmt fmt mode sat h .nan
  | _, .nan => intoFmt fmt mode sat h .nan
  | .inf _, .inf _ => plus (intoFmt fmt mode sat h .nan) flNV
  | .fin a _ _, .inf b => intoFmt fmt mode sat h (.fin (a != b) 0 0)
  | .inf a, .fin b _ _ => intoFmt fmt mode sat h (.inf (a != b))
  | .fin a m e, .fin b n g =>
    if n = 0 then
      if m = 0 then plus (intoFmt fmt mode sat h .nan) flNV
      else plus (intoFmt fmt mode sat h (.inf (a != b))) flDZ
    else match ffmt fmt with
      | some f => let r := f.round mode sat h (a != b) m n (e - g); ⟨r.1, r.2, false⟩
      | none => match ifmt fmt with
        | none => ⟨0, 0, false⟩
        | some w =>
          let (k, ch) := roundInt mode (a != b) m n (e - g)
          let v : Int := if (a != b) then -k else k
          if inRange w v then ⟨wrapN w v, flIf ch flNX, false⟩
          else ⟨wrapN w (if sat then (clampS w v).1 else v), flIf ch flNX ||| flNV, false⟩

/-! Microscaled blocks (R253, R267). -/

/-- The element format of a microscaled code: E4M3, E2M1 or INT8. -/
def mxElem (fmt : Nat) : Nat := if fmt = 0xB then 0x3 else if fmt = 0xC then 0x9 else 0x0

/-- The value of element code c under scale code s, and whether it is a microscaled NaN (R253). -/
def mxDecode (fmt s c : Nat) : XV × Bool :=
  if s = 0xFF then (.nan, true) else
  let k : Int := (s : Int) - 127
  if fmt = 0xD then
    let v := sgn 8 c
    (.fin (decide (v < 0)) v.natAbs (k - 6), false)
  else match decodeFmt (mxElem fmt) c with
    | .fin n m e => (.fin n m (e + k), false)
    | _ => (.nan, true)

/-- One element of a block encoded at scale 2^k under a mode (R267): the code and its flags; a result beyond the
element maximum is clamped with inexact only. -/
def mxElement (fmt mode h : Nat) (k : Int) (v : XV) : Nat × BitVec 5 :=
  match v with
  | .fin n m e =>
    if fmt = 0xD then
      let (x, r, d) := scaleTo m 1 (e + 6 - k) 0
      let y := if roundUp mode n h x r d then x + 1 else x
      let y' := min y 127
      (wrapN 8 (if n then -(y' : Int) else y'), flIf (decide (r ≠ 0) || decide (127 < y)) flNX)
    else match ffmt (mxElem fmt) with
      | some f =>
        let r := f.round mode true h n m 1 (e - k)
        (r.1, r.2 &&& ~~~flOF)
      | none => (0, 0)
  | .inf n =>
    if fmt = 0xD then (wrapN 8 (if n then -127 else 127), flOF ||| flNX)
    else match ffmt (mxElem fmt) with
      | some f => (f.sign n + f.maxFin, flOF ||| flNX)
      | none => (0, 0)
  | .nan => (0, 0)

/-- The encoding of a block (R267): the scale, the element codes with their flags, and whether a NaN was there.
`rnd` and `half` give each element's mode and half-word. -/
def mxEncode (fmt : Nat) (rnd half : Nat → Nat) (vs : List XV) : Nat × List (Nat × BitVec 5) × Bool :=
  if vs.any (· = .nan) then (0xFF, vs.map (fun _ => (0, 0)), true)
  else if vs.all XV.isZero then (0, vs.map (fun _ => (0, 0)), false)
  else
    let emax : Int := if fmt = 0xB then 8 else if fmt = 0xC then 2 else 0
    let hasInf := vs.any (fun v => !v.isFin)
    let lg := (vs.filterMap (fun v => match v with
      | .fin _ m e => if m = 0 then none else some ((Nat.log2 m : Int) + e)
      | _ => none)).foldl (fun (a : Option Int) x => some (max (a.getD x) x)) none
    let k : Int := if hasInf then 127 else max (-127) (min 127 (lg.getD 0 - emax))
    ((k + 127).toNat, (vs.zipIdx).map (fun e => mxElement fmt (rnd e.2) (half e.2) k e.1), false)

/-! SD8 (R254 to R256, R268). -/

/-- A digit code's value, and whether it is illegal (R254). -/
def sdDigit (c : Nat) : Int × Bool :=
  match c with
  | 0 => (0, false)
  | 1 => (1, false)
  | 2 => (2, false)
  | 6 => (-2, false)
  | 7 => (-1, false)
  | _ => (0, true)

/-- The code of a digit. -/
def sdCode (d : Int) : Nat := wrapN 3 d

/-- The digits of N, most significant first (R268 step 5). -/
def sdDigits : Nat → Int → List Int → List Int
  | 0, _, acc => acc
  | k + 1, n, acc =>
    let m := n % 4
    let d : Int := if m ≤ 1 then m else if m = 3 then -1 else if 0 < n then 2 else -2
    sdDigits k ((n - d) / 4) (d :: acc)

/-- The number N of eight digits, most significant first. -/
def sdNumber (ds : List Int) : Int := ds.foldl (fun a d => 4 * a + d) 0

/-- The exact value of an SD8 number: N · 4^(e − 8) (R254). -/
def sdValue (e n : Int) : XV := .fin (decide (n < 0)) n.natAbs (2 * (e - 8))

/-- v / 4^(e − 8) rounded to an integer under mode 0 (R268 step 1), and whether it changed. -/
def sdRound (e : Int) : XV → Int × Bool
  | .fin neg m x =>
    let (k, ch) := roundInt 0 neg m 1 (x - 2 * (e - 8))
    (if neg then -k else k, ch)
  | _ => (0, false)

/-- One value as an SD8 group holds it (R268): N, its flags, and whether dross arises at it. -/
structure SdRes where
  num : Int
  flags : BitVec 5 := 0
  arises : Bool := false
  deriving DecidableEq, Repr

/-- The underflow of a value that its group holds inexactly. R258 asks for the smallest normal, and the spec names none for
SD8: where the value is small enough to lie below one, the flag is a free function of it.
DESIGN CHOICE, notes/assumptions/21.md -/
def sdTiny (m : Nat) (x : Int) : BitVec 5 :=
  flIf (!ltX (.fin false 43690 (-272)) (.fin false m x) && Config.sdUnderflow m x) flUF

/-- The encoding of 64 values (R268): the exponent and each value. -/
def sdEncode (vs : List XV) : Int × List SdRes :=
  let fits := fun e : Int => vs.all (fun v => decide ((sdRound e v).1.natAbs ≤ 43690))
  let e? := ((List.range 256).map (fun k => (k : Int) - 128)).find? fits
  let e := e?.getD 127
  let one := fun v : XV => match v with
    | .nan => { num := 0, flags := flNV, arises := true }
    | .inf neg => { num := if neg then (-43690 : Int) else 43690, flags := flOF ||| flNX }
    | .fin _ m x =>
      let (n, ch) := sdRound e v
      if 43690 < n.natAbs then { num := if n < 0 then -43690 else 43690, flags := flOF ||| flNX }
      else { num := n, flags := if ch then flNX ||| sdTiny m x else 0 }
  (e, vs.map one)

/-! Ingots (R272 to R274). -/

/-- Adds a value to a lane (R273). -/
def Ingot.add (g : Ingot) (v : XV) (x : Bool) : Ingot :=
  match v with
  | .nan => { g with nan := true, dross := g.dross || x }
  | .inf true => { g with ninf := true, dross := g.dross || x }
  | .inf false => { g with pinf := true, dross := g.dross || x }
  | .fin _ _ _ => { g with sum := g.sum + BitVec.ofInt 310 (v.units (-149)), dross := g.dross || x }

/-- Adds two lanes (R378 wcpy). -/
def Ingot.join (g h : Ingot) : Ingot :=
  { sum := g.sum + h.sum, pinf := g.pinf || h.pinf, ninf := g.ninf || h.ninf, nan := g.nan || h.nan,
    dross := g.dross || h.dross }

/-- FP32. -/
def fp32 : FFmt := ⟨8, 23, 127, 0x7F7FFFFF, true, some 0x7FC00000⟩

/-- Reads a lane out as FP32 (R274). -/
def Ingot.readOut (g : Ingot) (mode : Nat) (sat : Bool) (h : Nat) : Conv :=
  if g.nan then ⟨0x7FC00000, 0, false⟩
  else if g.pinf && g.ninf then ⟨0x7FC00000, flNV, false⟩
  else if g.pinf then fp32.ofXV mode sat h (.inf false)
  else if g.ninf then fp32.ofXV mode sat h (.inf true)
  else fp32.ofXV mode sat h (.fin (decide (g.sum.toInt < 0)) g.sum.toInt.natAbs (-149))

/-! Grit (R278 to R282). -/

/-- One half round of grit on four words. DEDUCED, notes/assumptions/53.md -/
def gritRound (key : Nat → W32) (q : Nat) (x : W32 × W32 × W32 × W32) : W32 × W32 × W32 × W32 :=
  let (x0, x1, x2, x3) := x
  let x0 := x0 + (x1 ^^^ key (q % 4))
  let x3 := (x3 ^^^ x0).rotateLeft 11
  let x2 := x2 + x3 + 0x9E3779B9#32 * BitVec.ofNat 32 (q + 1)
  let x1 := (x1 ^^^ x2).rotateLeft 19
  let x0 := x0 + x1
  let x3 := (x3 ^^^ x0).rotateLeft 5
  let x2 := x2 + x3
  let x1 := (x1 ^^^ x2).rotateLeft 23
  (x0, x1, x2, x3)

/-- A draw of 128 bits, o0 least significant (R279). -/
def grit (key : List W32) (i0 i1 : W32) (ctr : W64) : BitVec 128 :=
  let c0 : W32 := ctr.extractLsb' 0 32
  let c1 : W32 := ctr.extractLsb' 32 32
  let k := fun n => key.getD n 0
  let (x0, x1, x2, x3) := (List.range 10).foldl (fun x q => gritRound k q x) (c0, c1, i0, i1)
  (x3 + i1) ++ (x2 + i0) ++ (x1 + c1) ++ (x0 + c0)

/-- Half-word h of a draw. -/
def halfWord (g : BitVec 128) (h : Nat) : Nat := (g.extractLsb' (16 * h) 16).toNat

/-- The half-words of n positions from a counter (R280). -/
def halves (key : List W32) (i0 i1 : W32) (ctr : W64) (n : Nat) : List Nat :=
  let draws := (List.range ((n + 7) / 8)).map (fun m => grit key i0 i1 (ctr + BitVec.ofNat 64 m))
  (List.range n).map (fun e => halfWord (draws.getD (e / 8) 0) (e % 8))

/-! Sampling keys and masses by bounded arithmetic (R387, R388). -/

/-- An interval of numbers in units of 2^-prec. -/
abbrev Iv := Int × Int

/-- 2 · atanh(num / den) for num / den at most 1/3, in units of 2^-prec, by its series, with bounds on the rest. -/
def atanh2 (prec num den : Nat) : Iv :=
  let n := prec / 3 + 4
  let z := num * 2 ^ prec / den
  let r := (List.range n).foldl (fun (a : Nat × Nat) i =>
    (a.1 + a.2 / (2 * i + 1), a.2 * num * num / (den * den))) (0, z)
  ((2 * r.1 : Nat), (2 * r.1 + 4 * n + 8 : Nat))

/-- ln of a positive rational. -/
def lnIv (prec num den : Nat) : Iv :=
  let k := ilog2 num den
  let n := num * pow2 (-k)
  let d := den * pow2 k
  let a := atanh2 prec (n - d) (n + d)
  let l2 := atanh2 prec 1 3
  if 0 ≤ k then (a.1 + k * l2.1, a.2 + k * l2.2) else (a.1 + k * l2.2, a.2 + k * l2.1)

/-- −ln(−ln u) for u = (2 h + 1) / 2^17. -/
def gumbel (prec h : Nat) : Iv :=
  let l := lnIv prec (2 ^ 17) (2 * h + 1)
  let lo := lnIv prec (max 1 l.1.toNat) (2 ^ prec)
  let hi := lnIv prec (max 1 l.2.toNat) (2 ^ prec)
  (-hi.2, -lo.1)

/-- The key of a candidate, in units of 2^-prec; prec is at least the −exponent of any logit (R387). -/
def keyIv (prec : Nat) (x : XV) (h : Nat) : Iv :=
  let g := gumbel prec h
  let u := x.units (-(prec : Int))
  (u + g.1, u + g.2)

/-- A number that stands for a logit. -/
def XV.code : XV → Int × Nat
  | .fin n m e => (if n then -(m : Int) else m, (e + 400).toNat)
  | _ => (0, 0)

/-- A decision at a precision that is doubled until it is certain, at most n times over. -/
def refine (judge : Nat → Option Bool) : Nat → Nat → Option Bool
  | 0, _ => none
  | n + 1, prec => match judge prec with
    | some b => some b
    | none => refine judge n (2 * prec)

/-- Whether candidate a has a greater key than b: bounded arithmetic at a precision that is doubled until it separates keys that are not
equal, and a free decision where 2^39 bits do not. DESIGN CHOICE, notes/assumptions/22.md -/
def keyGreater (a b : XV × Nat) : Bool :=
  if eqX a.1 b.1 && a.2 = b.2 then false else
  let judge := fun p =>
    let ka := keyIv p a.1 a.2
    let kb := keyIv p b.1 b.2
    if kb.2 < ka.1 then some true else if ka.2 < kb.1 then some false else none
  (refine judge 32 192).getD (Config.keyOrder a.2 b.2 (a.1.code.1 - b.1.code.1) (a.1.code.2 * 1024 + b.1.code.2))

/-- e^(−t) for t = n / 2^prec ≥ 0, in units of 2^-prec. -/
def expNeg (prec n : Nat) : Iv :=
  let l2 := (atanh2 prec 1 3)
  let k := n / l2.2.toNat
  if prec + 2 < k then (0, 1) else
  let r : Nat := n - k * l2.2.toNat
  let rh : Nat := n - k * l2.1.toNat
  let series := fun (y : Nat) => (List.range (prec + 8)).foldl
    (fun (a : Int × Int × Nat) i => (a.1 + a.2.1, -(a.2.1 * y) / ((2 ^ prec : Nat) * (i + 1) : Nat), i)) (0, 2 ^ prec, 0)
  let lo := (series rh).1 - (2 * prec + 32)
  let hi := (series r).1 + (2 * prec + 32)
  (max 0 (lo / 2 ^ k), hi / 2 ^ k + 1)

/-- The different numbers of a list. -/
def distinctX (l : List XV) : List XV := l.foldl (fun d x => if d.any (eqX x) then d else d ++ [x]) []

/-- Whether the mass of the kept candidates is below P = pn / 2^pe, given every logit (R388): the sign of the sum of c(x) · e^x over the
different logits, where c(x) is 2^pe times the kept ones less pn times all of them. Such a sum vanishes only where every c(x) is zero.
Bounded arithmetic decides its sign at a precision that is doubled as need be, and the decision is free where 2^39 bits do not separate it
from zero. DESIGN CHOICE, notes/assumptions/22.md -/
def massBelow (kept all : List XV) (pn pe : Nat) : Bool :=
  let count := fun (l : List XV) x => (l.filter (fun y => eqX x y)).length
  let c := fun (x : XV) => ((count kept x * 2 ^ pe : Nat) : Int) - (pn * count all x : Nat)
  let live := (distinctX all).filter (fun x => c x ≠ 0)
  if live = [] then false else
  let q := live.foldl (fun a t => min a t.ex) 0
  let top := (live.map (XV.units q)).foldl max ((live.map (XV.units q)).headD 0)
  let judge := fun (prec : Nat) =>
    let d := live.foldl (fun (d : Iv) x =>
      let e := expNeg prec ((top - x.units q).toNat * pow2 (prec + q) / pow2 (-(prec + q)))
      if 0 < c x then (d.1 + c x * e.1, d.2 + c x * e.2) else (d.1 + c x * e.2, d.2 + c x * e.1)) (0, 0)
    if d.2 < 0 then some true else if 0 < d.1 then some false else none
  (refine judge 32 192).getD (Config.massBelow ((kept ++ all).map XV.code) (pn * 1024 + pe))

end Sys2Proof.Machine
end

