-- ==== Sys2Proof/Machine/Operands.lean ====
section
/-! DEFINITION. Operand forms: immediates, targets and addresses (R310, R313, R347), endpoints (R354), lane values
under the configuration set (R185, R361), tile-store addresses and the control words that registers carry. -/

namespace Sys2Proof.Machine

/-! Immediates and targets. -/

/-- IMM sign-extended to 64 bits (R313). -/
def immS (i : BitVec 16) : W64 := i.signExtend 64
/-- IMM zero-extended to 64 bits (R313). -/
def immZ (i : BitVec 16) : W64 := i.zeroExtend 64
/-- The shift amount of a register: s[b][5:0] (R334). -/
def shamt (x : W64) : Nat := fld x 5 0
/-- The target of a branch: pc + 4 · sext(OFF, 64) (R338). -/
def branchTarget (pc : Int) (o : BitVec 16) : Int := pc + 4 * o.toInt
/-- The target of jal (R339). -/
def jalTarget (pc : Int) (o : BitVec 21) : Int := pc + 4 * o.toInt
/-- The target of jalr: s[a] unsigned plus sext(IMM, 64), exactly (R339). DEDUCED, notes/assumptions/24.md -/
def jalrTarget (x : W64) (i : BitVec 16) : Int := (x.toNat : Int) + i.toInt

/-! Addresses. -/

/-- The effective address of a memory form, exactly: s[a] unsigned plus OFF times the size (R347). -/
def effAddr (x : W64) (o : BitVec 10) (scale : Nat) : Int := (x.toNat : Int) + o.toInt * scale

/-- Whether a span lies in an allocation of a length (R177, R347). -/
def inAlloc (ea : Int) (size len : Nat) : Bool := decide (0 ≤ ea) && decide (ea + size ≤ len)

/-- Whether a global address is canonical: bits 63:57 equal bit 56 (R205). -/
def canonical (va : Nat) : Bool := va / 2 ^ 56 = 0 || va / 2 ^ 56 = 0xFF

/-- Whether the bytes from an address on are canonical and lie below 2^64 (R347). -/
def canonicalSpan (ea : Int) (size : Nat) : Bool :=
  decide (0 ≤ ea) && decide (ea + size ≤ 2 ^ 64) && canonical ea.toNat && canonical (ea.toNat + size - 1)

/-- A tile-store word address (R401 introduction): row ta[18:6], col ta[5:0]. -/
structure TsAddr where
  row : Nat
  col : Nat
  deriving DecidableEq, Repr

/-- The tile-store address in a register, if bits 63:19 are zero. -/
def tsAddr (x : W64) : Option TsAddr :=
  if fld x 63 19 = 0 then some ⟨fld x 18 6, fld x 5 0⟩ else none

/-- The byte offset of a tile-store address in the actor's rows (R177). -/
def TsAddr.byte (t : TsAddr) : Nat := 256 * t.row + 4 * t.col

/-! Endpoints (R147, R354). -/

/-- The consumption of an inbound endpoint, if the actor's rates bind it. -/
def Actor.cRate (a : Actor) (n : Nat) : Option Nat := Tab.find a.ins n
/-- The production of an outbound endpoint, if the actor's rates bind it. -/
def Actor.pRate (a : Actor) (n : Nat) : Option Nat := Tab.find a.outs n
/-- The channel of an inbound endpoint. -/
def Graph.inChan (g : Graph) (a : Actor) (n : Nat) : Chan := g.chan (Tab.get 0 a.inCh n)
/-- The channels of an outbound endpoint: the branches of a fork, or one (R165). -/
def Graph.outChans (_g : Graph) (a : Actor) (n : Nat) : List Nat := Tab.get [] a.outCh n
/-- w(N) of an inbound endpoint (R354). -/
def Graph.wIn (g : Graph) (a : Actor) (n : Nat) : Nat := (g.inChan a n).width
/-- w(N) of an outbound endpoint: the greatest width among the branches (R165, R354). -/
def Graph.wOut (g : Graph) (a : Actor) (n : Nat) : Nat :=
  (g.outChans a n).foldl (fun w c => max w (g.chan c).width) 0
/-- Token i of an inbound endpoint, counted from the oldest (R354). -/
def Graph.token (g : Graph) (a : Actor) (n i : Nat) : Token := (g.inChan a n).buf.getD i {}

/-- The low bytes of a token (R356). -/
def Token.bytes (t : Token) (w : Nat) : List Byte := (List.range w).map (laneOf t.data)

/-- A token of w bytes (R357). -/
def tokenOf (w : Nat) (x : Nat) (dross : Bool) : Token := { data := BitVec.ofNat 512 (x % 2 ^ (8 * w)), dross := dross }

/-! Lane values (R185, R186, R361). -/

/-- The configuration word of an element. -/
def LaneSet.word (l : LaneSet) (n : Nat) : W32 := Tab.get 0 l.cfg n
/-- The stream operation word of an element; its reset value selects pass (R317). -/
def LaneSet.opWord (l : LaneSet) (n : Nat) : W32 := Tab.get 0x7F000000 l.op n
/-- The switch halves of an element: SWI and SWO (R318). -/
def LaneSet.swi (l : LaneSet) (n : Nat) : BitVec 16 := Tab.get 0 l.sw (2 * n)
/-- SWO. -/
def LaneSet.swo (l : LaneSet) (n : Nat) : BitVec 16 := Tab.get 0 l.sw (2 * n + 1)
/-- MAIN of an element. -/
def LaneSet.main (l : LaneSet) (n : Nat) : Nat := bitsOf (l.word n).toNat 31 28
/-- ALT of an element. -/
def LaneSet.alt (l : LaneSet) (n : Nat) : Nat := bitsOf (l.word n).toNat 27 24
/-- RND of an element. -/
def LaneSet.rnd (l : LaneSet) (n : Nat) : Nat := bitsOf (l.word n).toNat 23 21
/-- SAT of an element. -/
def LaneSet.sat (l : LaneSet) (n : Nat) : Bool := (l.word n).getLsbD 20
/-- MODE of an element. -/
def LaneSet.mode (l : LaneSet) (n : Nat) : Nat := bitsOf (l.word n).toNat 19 18
/-- The value width in bytes, from the WIDTH of element 0 (R361). -/
def LaneSet.w (l : LaneSet) : Nat := 2 ^ bitsOf (l.word 0).toNat 17 16
/-- The number of values. -/
def LaneSet.n (l : LaneSet) : Nat := 64 / l.w
/-- E(i): the element of value i for values of w bytes. -/
def elemOf (w i : Nat) : Nat := i * w / 4

/-- SIMD mode (R362). -/
def LaneSet.simd (l : LaneSet) : Bool :=
  (List.range 15).all (fun n => l.mode n = 0) && (l.mode 15 = 0 || l.mode 15 = 3)
/-- Online mode (R362). -/
def LaneSet.online (l : LaneSet) : Bool := (List.range 16).all (fun n => l.mode n = 2)
/-- Stream mode (R362). -/
def LaneSet.stream (l : LaneSet) : Bool :=
  (List.range 16).any (fun n => l.mode n = 1) &&
    (List.range 16).all (fun n => l.mode n = 1 || l.mode n = 0 || (n = 15 && l.mode n = 3))
/-- Join mode (R362). -/
def LaneSet.join (l : LaneSet) : Bool := l.mode 15 = 3

/-- The integer class (R363). -/
def isIntFmt (f : Nat) : Bool := f = 0 || f = 1 || f = 2
/-- The float class (R363). -/
def isFloatFmt (f : Nat) : Bool := f = 3 || f = 4 || f = 5 || f = 6 || f = 7

/-- Value i of a vector for values of w bytes, as a pattern. -/
def vGet (v : V512) (w i : Nat) : Nat := bitsOf v.toNat (8 * w * i + 8 * w - 1) (8 * w * i)
/-- The dross of value i: any of its lanes (R276). -/
def vDross (x : W64) (w i : Nat) : Bool := bitsOf x.toNat (w * i + w - 1) (w * i) ≠ 0

/-- A vector with some of its values of w bytes replaced; every lane of a value takes the value's dross (R364). -/
def vBuild (w : Nat) (old : VReg) (new : List (Option (Nat × Bool))) : VReg :=
  { val := BitVec.ofNat 512 ((new.zipIdx).foldl (fun a e =>
      a + (match e.1 with
        | some x => x.1 % 2 ^ (8 * w)
        | none => vGet old.val w e.2) <<< (8 * w * e.2)) 0),
    dross := BitVec.ofNat 64 ((new.zipIdx).foldl (fun a e =>
      a + (match e.1 with
        | some x => if x.2 then 2 ^ w - 1 else 0
        | none => bitsOf old.dross.toNat (w * e.2 + w - 1) (w * e.2)) <<< (w * e.2)) 0) }

/-- A vector of 64 lanes, each a byte with its dross. -/
def vLanes (bs : Bytes) : VReg := { val := vOf (bs.map (·.1)), dross := maskOf (bs.map (·.2)) }

/-- A predicate with all w bits of some values replaced (R364). -/
def pBuild (w : Nat) (old : W64) (new : List (Option Bool)) : W64 :=
  BitVec.ofNat 64 ((new.zipIdx).foldl (fun a e =>
    a + (match e.1 with
      | some b => if b then 2 ^ w - 1 else 0
      | none => bitsOf old.toNat (w * e.2 + w - 1) (w * e.2)) <<< (w * e.2)) 0)

/-- Whether byte lane j is enabled by the predicate field (R175, R310). -/
def laneOn (r : Regs) (p : Option (BitVec 3)) (j : Nat) : Bool :=
  match p with
  | none => true
  | some k => (r.rdP k.toNat).getLsbD j

/-- Whether value i is enabled for a SIMD instruction: by the predicate, and not in lanes 60 to 63 while element 15
is in MODE 3 (R361, R362). -/
def valueOn (l : LaneSet) (r : Regs) (p : Option (BitVec 3)) (i : Nat) : Bool :=
  laneOn r p (l.w * i) && !(decide (60 ≤ l.w * i) && l.mode 15 = 3)

/-! Control words in registers. -/

/-- The row descriptor of mrow, mrowc and mrep (R396): base and count. -/
def rowDesc (x : W64) : Option (Nat × Nat) :=
  if fld x 63 22 = 0 ∧ fld x 15 14 = 0 ∧ fld x 13 0 ≤ 8192 then some (fld x 21 16, fld x 13 0) else none

/-- The drain descriptor of mdrain (R398): SAT, format, count and base. -/
def drainDesc (acc : Bool) (x : W64) : Option (Bool × Nat × Nat × Nat) :=
  let f := fld x 19 16
  let ok := if acc then f = 0 ∨ f = 1 ∨ f = 2 else f = 3 ∨ f = 4 ∨ f = 5 ∨ f = 6 ∨ f = 7
  if fld x 63 21 = 0 ∧ fld x 15 15 = 0 ∧ fld x 7 6 = 0 ∧ fld x 14 8 ≤ 64 ∧ ok then
    some (x.getLsbD 20, f, fld x 14 8, fld x 5 0) else none

/-- The Silt selector (R403): template and port. -/
def siltSel (x : W64) : Option (Nat × Nat) :=
  if fld x 63 14 = 0 then some (fld x 13 8, fld x 7 0) else none

/-- The burst control word (R407): space and length. -/
def burstWord (x : W64) : Option (Nat × Nat) :=
  if fld x 63 18 = 0 ∧ fld x 15 13 = 0 ∧ fld x 12 0 ≤ 4096 then some (fld x 17 16, fld x 12 0) else none

/-- The first vector register of an SD8 group and its exponent register (R374). -/
def sdGroup (g : BitVec 5) : Option (Nat × BitVec 5) :=
  if g.toNat % 8 = 0 then some (g.toNat, BitVec.ofNat 5 (24 + g.toNat / 8)) else none

/-- The eight vector registers of an SD8 group. -/
def sdRegs (g : BitVec 5) : List (BitVec 5) := (List.range 8).map (fun k => g + BitVec.ofNat 5 k)

end Sys2Proof.Machine
end

