-- ==== Sys2Proof/Machine/Flags.lean ====
section
/-! DEFINITION. The flags of a firing and of a context (R176, R259), origin words of dross (R277), error records
(R297), and the draws of a firing (R280, R365). -/

namespace Sys2Proof.Machine

/-- ORs flags into a firing's fflags (R259). -/
def Firing.flag (f : Firing) (fl : BitVec 5) : Firing := { f with fflags := f.fflags ||| fl }

/-- ORs flags into a context's flag register (R183). -/
def Mctx.flag (m : Mctx) (fl : BitVec 5) : Mctx := { m with flags := m.flags ||| fl }

/-- The origin word of an arising (R277). -/
def originWord (aid : Nat) (pc : Int) (unit index kind : Nat) : W64 :=
  BitVec.ofNat 64 (inFld aid 63 48 + inFld (pc % 65536).toNat 47 32 + inFld unit 31 28 + inFld index 27 16
    + inFld kind 15 8)

/-- Captures an origin word, the work of the earlier instruction winning and then, where `low` asks for it, the
lower index (R277). -/
def Firing.capture (f : Firing) (issue : Nat) (w : W64) (low : Bool) : Firing :=
  match f.origin with
  | none => { f with origin := some (issue, w) }
  | some (i, o) =>
    if issue < i || (low && issue = i && decide (fld w 27 16 < fld o 27 16)) then { f with origin := some (issue, w) }
    else f

/-- Captures the origin word of an arising at the instruction that a firing executes (R277). -/
def Firing.arise (f : Firing) (unit index kind : Nat) : Firing :=
  f.capture f.icount (originWord f.aid f.regs.pc unit index kind) true

/-- Captures the origin word of the lowest of the lane values at which dross arises (R277). -/
def Firing.ariseOf (f : Firing) (unit kind : Nat) (l : List Nat) : Firing :=
  match l.min? with
  | some i => f.arise unit i kind
  | none => f

/-- Captures the origin word of the lowest value of a list at which dross arises (R277). -/
def Firing.ariseAt (f : Firing) (unit kind : Nat) (l : List Bool) : Firing :=
  match l.findIdx? id with
  | some i => f.arise unit i kind
  | none => f

/-- What a new record does to the banks of a block (R297): it merges, takes a free bank, displaces the oldest of
strictly lower rank, or is dropped. -/
def Block.addBank (b : Block) (r : Bank) : Block :=
  let r := { r with stamp := b.stamp }
  let b := { b with stamp := b.stamp + 1 }
  match b.banks.find? (fun e => e.2.rank = r.rank && e.2.unit = r.unit && e.2.addr = r.addr) with
  | some e =>
    { b with banks := Tab.set b.banks e.1 { e.2 with count := satAdd 0xFFFF e.2.count 1, assay := if r.assay = 0 then e.2.assay else r.assay } }
  | none =>
    match (List.range 4).find? (fun i => (Tab.find b.banks i).isNone) with
    | some i => { b with banks := Tab.set b.banks i r }
    | none =>
      let low := b.banks.filter (fun e => e.2.rank < r.rank)
      let oldest := low.foldl (fun (a : Option (Nat × Bank)) e => match a with
        | some x => if e.2.stamp < x.2.stamp then some e else some x
        | none => some e) none
      match oldest with
      | some e => { b with banks := Tab.set b.banks e.1 r }
      | none => { b with ovf := satAdd 0xFFFF b.ovf 1 }

/-- Makes an error record in a block: an uncorrected record, and each 256th corrected one, asks for an assay
(R297, R300). -/
def State.addRecord (s : State) (blk rank unit cause aid : Nat) (addr synd : W64) : State :=
  let b := s.block blk
  let b := if rank = 1 then { b with corr := satAdd 0xFFFF b.corr 1, corrected := b.corrected + 1 } else b
  let asks := rank = 3 || (rank = 1 && b.corrected % 256 = 0)
  let r : Bank := { rank := rank, unit := unit, assay := if asks then 1 else 0, aid := aid, cause := cause,
                    addr := addr, synd := synd }
  let b := b.addBank r
  s.setBlock blk (if asks then { b with assaying := true } else b)

/-- The half-words of n positions of a firing's draws at its gctr (R278, R280). -/
def State.draws (s : State) (f : Firing) (n : Nat) : List Nat :=
  let g := s.graph f.job
  halves g.key g.instId (BitVec.ofNat 32 f.aid) f.gctr n

/-- A draw of a firing at a counter (R386). -/
def State.gritAt (s : State) (f : Firing) (ctr : W64) : BitVec 128 :=
  let g := s.graph f.job
  grit g.key g.instId (BitVec.ofNat 32 f.aid) ctr

/-- Advances gctr past n positions (R280). -/
def Firing.drew (f : Firing) (n : Nat) : Firing := { f with gctr := f.gctr + BitVec.ofNat 64 ((n + 7) / 8) }

end Sys2Proof.Machine
end

