-- ==== Sys2Proof/Machine/Fetch.lean ====
section
/-! DEFINITION. Fetching an instruction (R308, R340, R201, R342), and a state that holds one word to fetch. -/

namespace Sys2Proof.Machine

/-- What a fetch gives: nothing to run, the state after a trap of the fetch itself, or four bytes. -/
inductive Fetch
  | idle
  | outside (s : State)
  | word (bs : List Byte)

/-- The word of fetched bytes. -/
def fetched : List Byte → W32
  | [b0, b1, b2, b3] => wordOfBytes b0 b1 b2 b3
  | _ => 0

/-- Four bytes of code at an address. -/
def codeAt (m : Memory) (a : Nat) : List Byte := [m.byte a, m.byte (a + 1), m.byte (a + 2), m.byte (a + 3)]

/-- The fetch of the agent in focus. A stopped tile executes nothing (R123). The sequencer traps with BOUNDS where the
program counter leaves the actor's code, the value being the target modulo 2^64 (R340). An engine that leaves its microcode ends its copy (R316). -/
def State.fetch (s : State) : Fetch :=
  match s.focus with
  | .tile t =>
    match (s.tile t).firing with
    | none => .idle
    | some f =>
      if (s.block t).stopped then .idle else
      match f.phase with
      | .commit _ _ => .idle
      | _ =>
        let a := s.actor f.job f.aid
        if f.regs.pc % 4 = 0 && inAlloc f.regs.pc 4 a.codeLen then .word (codeAt a.code f.regs.pc.toNat)
        else .outside (s.raise t f 4 (BitVec.ofInt 64 f.regs.pc))
  | .engine p =>
    let e := (s.port p).eng
    match e.copy with
    | none => .idle
    | some c =>
      if s.portStopped p then .idle else
      if e.regs.pc % 4 = 0 && inAlloc e.regs.pc 4 65536 then .word (codeAt e.mcode e.regs.pc.toNat)
      else .outside (s.mcode p c)

/-- The state with tile 0 in focus, running a firing of actor 0 of job 0 whose code is the given bytes. -/
def State.placeWord (s : State) (bs : List Byte) : State :=
  let a : Actor := { loaded := true, code := Memory.setBytes {} 0 bs, codeLen := 4, ramLen := 16384 }
  let s := s.setGraph 0 { phase := .resident, used := [0], actors := [(0, a)] }
  let s := s.setJob 0 { st := .resident, everLoaded := true, started := true }
  let s := s.setFiring 0 { job := 0, aid := 0 }
  { s with agenda := [], focus := .tile 0 }

end Sys2Proof.Machine
end

