-- ==== Sys2Proof/Machine/Alu.lean ====
section
/-! DEFINITION. Integer arithmetic on scalar registers: the group ALU (R334, R335), the immediate forms (R336) and
the conditional branches and jumps (R338, R339). -/

namespace Sys2Proof.Machine

/-! Results of R334 that take more than one word operation. -/

/-- The bit patterns that a comparison writes. -/
def bit (c : Bool) : W64 := if c then 1 else 0

/-- The bits above the highest 1 (R334 clz). -/
def clz64 (x : W64) : W64 := BitVec.ofNat 64 (if x = 0 then 64 else 63 - Nat.log2 x.toNat)

/-- The bits below the lowest 1 (R334 ctz). -/
def ctz64 (x : W64) : W64 := BitVec.ofNat 64 ((List.range 64).find? (fun i => x.getLsbD i) |>.getD 64)

/-- The number of 1 bits (R334 popc). -/
def popc64 (x : W64) : W64 := BitVec.ofNat 64 ((List.range 64).filter (fun i => x.getLsbD i)).length

/-- The bits 127:64 of an exact product (R334 mulh, mulhu). -/
def high (p : Int) : W64 := BitVec.ofInt 64 (p / 2 ^ 64)

/-- The signed quotient, truncated toward zero and saturated (R335). -/
def divS (x y : W64) : W64 :=
  if y = 0 then if x = 0 then 0 else if x.slt 0 then 0x8000000000000000 else 0x7FFFFFFFFFFFFFFF
  else BitVec.ofInt 64 (min (2 ^ 63 - 1) (x.toInt.tdiv y.toInt))

/-- The unsigned quotient, saturated (R335). -/
def divU (x y : W64) : W64 :=
  if y = 0 then if x = 0 then 0 else 0xFFFFFFFFFFFFFFFF else x / y

/-- The remainder of signed division (R335). -/
def remS (x y : W64) : W64 := if y = 0 then 0 else BitVec.ofInt 64 (x.toInt.tmod y.toInt)

/-- The remainder of unsigned division (R335). -/
def remU (x y : W64) : W64 := if y = 0 then 0 else x % y

/-- ⌊signed x / 2^k⌋ (R334 sra). -/
def sra64 (x : W64) (k : Nat) : W64 := BitVec.ofInt 64 (x.toInt / 2 ^ k)

/-! The shapes of R334, R336 and R338. -/

/-- A result of two registers: dross of either passes to the result (R330). -/
def onTwo (s : State) (d a b : BitVec 5) (k : W64 → W64 → W64) : Res :=
  onRegs s [a, b] (fun r => r.wr d (k (r.val a) (r.val b)) (r.drossS a || r.drossS b))

/-- A result of one register. -/
def onOne (s : State) (d a : BitVec 5) (k : W64 → W64) : Res :=
  onRegs s [a] (fun r => r.wr d (k (r.val a)) (r.drossS a))

/-- A conditional branch: a source with dross raises DROSSUSE whether or not it would be taken (R338). -/
def onBranch (w : W64) (s : State) (a b : BitVec 5) (o : BitVec 16) (k : W64 → W64 → Bool) : Res :=
  onRegsClean w s [a, b] (fun r =>
    if k (r.val a) (r.val b) then { r with pc := branchTarget r.pc o - 4 } else r)

/-- add (R334). -/
def execAdd (d a b : BitVec 5) (s : State) : Res := onTwo s d a b (fun x y => x + y)

/-- sub (R334). -/
def execSub (d a b : BitVec 5) (s : State) : Res := onTwo s d a b (fun x y => x - y)

/-- and (R334). -/
def execAnd (d a b : BitVec 5) (s : State) : Res := onTwo s d a b (fun x y => x &&& y)

/-- or (R334). -/
def execOr (d a b : BitVec 5) (s : State) : Res := onTwo s d a b (fun x y => x ||| y)

/-- xor (R334). -/
def execXor (d a b : BitVec 5) (s : State) : Res := onTwo s d a b (fun x y => x ^^^ y)

/-- sll (R334). -/
def execSll (d a b : BitVec 5) (s : State) : Res := onTwo s d a b (fun x y => x <<< shamt y)

/-- srl (R334). -/
def execSrl (d a b : BitVec 5) (s : State) : Res := onTwo s d a b (fun x y => x >>> shamt y)

/-- sra (R334). -/
def execSra (d a b : BitVec 5) (s : State) : Res := onTwo s d a b (fun x y => sra64 x (shamt y))

/-- rol (R334). -/
def execRol (d a b : BitVec 5) (s : State) : Res := onTwo s d a b (fun x y => x.rotateLeft (shamt y))

/-- ror (R334). -/
def execRor (d a b : BitVec 5) (s : State) : Res := onTwo s d a b (fun x y => x.rotateLeft (64 - shamt y))

/-- slt (R334). -/
def execSlt (d a b : BitVec 5) (s : State) : Res := onTwo s d a b (fun x y => bit (x.slt y))

/-- sltu (R334). -/
def execSltu (d a b : BitVec 5) (s : State) : Res := onTwo s d a b (fun x y => bit (x.ult y))

/-- min (R334). -/
def execMin (d a b : BitVec 5) (s : State) : Res := onTwo s d a b (fun x y => if x.slt y then x else y)

/-- max (R334). -/
def execMax (d a b : BitVec 5) (s : State) : Res := onTwo s d a b (fun x y => if x.slt y then y else x)

/-- minu (R334). -/
def execMinu (d a b : BitVec 5) (s : State) : Res := onTwo s d a b (fun x y => if x.ult y then x else y)

/-- maxu (R334). -/
def execMaxu (d a b : BitVec 5) (s : State) : Res := onTwo s d a b (fun x y => if x.ult y then y else x)

/-- mul (R334). -/
def execMul (d a b : BitVec 5) (s : State) : Res := onTwo s d a b (fun x y => x * y)

/-- mulh (R334). -/
def execMulh (d a b : BitVec 5) (s : State) : Res := onTwo s d a b (fun x y => high (x.toInt * y.toInt))

/-- mulhu (R334). -/
def execMulhu (d a b : BitVec 5) (s : State) : Res := onTwo s d a b (fun x y => high ((x.toNat : Int) * y.toNat))

/-- div (R335). -/
def execDiv (d a b : BitVec 5) (s : State) : Res := onTwo s d a b (fun x y => divS x y)

/-- divu (R335). -/
def execDivu (d a b : BitVec 5) (s : State) : Res := onTwo s d a b (fun x y => divU x y)

/-- rem (R335). -/
def execRem (d a b : BitVec 5) (s : State) : Res := onTwo s d a b (fun x y => remS x y)

/-- remu (R335). -/
def execRemu (d a b : BitVec 5) (s : State) : Res := onTwo s d a b (fun x y => remU x y)

/-- andn (R334). -/
def execAndn (d a b : BitVec 5) (s : State) : Res := onTwo s d a b (fun x y => x &&& ~~~y)

/-- clz (R334). -/
def execClz (d a : BitVec 5) (s : State) : Res := onOne s d a (fun x => clz64 x)

/-- ctz (R334). -/
def execCtz (d a : BitVec 5) (s : State) : Res := onOne s d a (fun x => ctz64 x)

/-- popc (R334). -/
def execPopc (d a : BitVec 5) (s : State) : Res := onOne s d a (fun x => popc64 x)

/-- sextb (R334). -/
def execSextb (d a : BitVec 5) (s : State) : Res := onOne s d a (fun x => (x.setWidth 8).signExtend 64)

/-- sexth (R334). -/
def execSexth (d a : BitVec 5) (s : State) : Res := onOne s d a (fun x => (x.setWidth 16).signExtend 64)

/-- sextw (R334). -/
def execSextw (d a : BitVec 5) (s : State) : Res := onOne s d a (fun x => (x.setWidth 32).signExtend 64)

/-- addw (R334). -/
def execAddw (d a b : BitVec 5) (s : State) : Res := onTwo s d a b (fun x y => ((x + y).setWidth 32).signExtend 64)

/-- subw (R334). -/
def execSubw (d a b : BitVec 5) (s : State) : Res := onTwo s d a b (fun x y => ((x - y).setWidth 32).signExtend 64)

/-- addi (R336). -/
def execAddi (d a : BitVec 5) (i : BitVec 16) (s : State) : Res := onOne s d a (fun x => x + immS i)

/-- andi (R336). -/
def execAndi (d a : BitVec 5) (i : BitVec 16) (s : State) : Res := onOne s d a (fun x => x &&& immZ i)

/-- ori (R336). -/
def execOri (d a : BitVec 5) (i : BitVec 16) (s : State) : Res := onOne s d a (fun x => x ||| immZ i)

/-- xori (R336). -/
def execXori (d a : BitVec 5) (i : BitVec 16) (s : State) : Res := onOne s d a (fun x => x ^^^ immZ i)

/-- slti (R336). -/
def execSlti (d a : BitVec 5) (i : BitVec 16) (s : State) : Res := onOne s d a (fun x => bit (x.slt (immS i)))

/-- sltiu (R336). -/
def execSltiu (d a : BitVec 5) (i : BitVec 16) (s : State) : Res := onOne s d a (fun x => bit (x.ult (immZ i)))

/-- lui (R336): IMM · 2^16 with IMM as two's complement. -/
def execLui (d : BitVec 5) (i : BitVec 16) (s : State) : Res := onRegs s [] (fun r => r.wr d (immS i <<< 16) false)

/-- slli (R336). -/
def execSlli (d a : BitVec 5) (n : BitVec 6) (s : State) : Res := onOne s d a (fun x => x <<< n.toNat)

/-- srli (R336). -/
def execSrli (d a : BitVec 5) (n : BitVec 6) (s : State) : Res := onOne s d a (fun x => x >>> n.toNat)

/-- srai (R336). -/
def execSrai (d a : BitVec 5) (n : BitVec 6) (s : State) : Res := onOne s d a (fun x => sra64 x n.toNat)

/-- roli (R336). -/
def execRoli (d a : BitVec 5) (n : BitVec 6) (s : State) : Res := onOne s d a (fun x => x.rotateLeft n.toNat)

/-- beq (R338). -/
def execBeq (b a : BitVec 5) (o : BitVec 16) (s : State) : Res :=
  onBranch (wordOf (.beq b a o)) s a b o (fun x y => x = y)

/-- bne (R338). -/
def execBne (b a : BitVec 5) (o : BitVec 16) (s : State) : Res :=
  onBranch (wordOf (.bne b a o)) s a b o (fun x y => x ≠ y)

/-- blt (R338). -/
def execBlt (b a : BitVec 5) (o : BitVec 16) (s : State) : Res :=
  onBranch (wordOf (.blt b a o)) s a b o (fun x y => x.slt y)

/-- bge (R338). -/
def execBge (b a : BitVec 5) (o : BitVec 16) (s : State) : Res :=
  onBranch (wordOf (.bge b a o)) s a b o (fun x y => !x.slt y)

/-- bltu (R338). -/
def execBltu (b a : BitVec 5) (o : BitVec 16) (s : State) : Res :=
  onBranch (wordOf (.bltu b a o)) s a b o (fun x y => x.ult y)

/-- bgeu (R338). -/
def execBgeu (b a : BitVec 5) (o : BitVec 16) (s : State) : Res :=
  onBranch (wordOf (.bgeu b a o)) s a b o (fun x y => !x.ult y)

/-- jal (R339). -/
def execJal (d : BitVec 5) (o : BitVec 21) (s : State) : Res :=
  onRegs s [] (fun r => { (r.wr d (BitVec.ofInt 64 (r.pc + 4)) false) with pc := jalTarget r.pc o - 4 })

/-- jalr (R339). -/
def execJalr (d a : BitVec 5) (i : BitVec 16) (s : State) : Res :=
  onRegsClean (wordOf (.jalr d a i)) s [a] (fun r =>
    { (r.wr d (BitVec.ofInt 64 (r.pc + 4)) false) with pc := jalrTarget (r.val a) i - 4 })

/-- nop (R341). -/
def execNop (s : State) : Res := onRegs s [] id

end Sys2Proof.Machine
end

