-- ==== Sys2Proof/Machine/Template.lean ====
section
/-! DEFINITION. Silt templates (R197) and kick records (R198). -/

namespace Sys2Proof.Machine

/-! Templates (R197). -/

/-- Doubleword `n` of a template's block. -/
def Template.dw (t : Template) (n : Nat) : W64 := t.params.getD n 0
/-- CHANDLER. -/
def Template.handler (t : Template) : Nat := fld (t.dw 0) 63 48
/-- MCODE. -/
def Template.mcode (t : Template) : Nat := fld (t.dw 0) 47 32
/-- CLASS. -/
def Template.cls (t : Template) : Nat := fld (t.dw 0) 31 28
/-- Element bytes. -/
def Template.esize (t : Template) : Nat := 2 ^ fld (t.dw 0) 27 26
/-- SKIND. -/
def Template.skind (t : Template) : Nat := fld (t.dw 0) 25 24
/-- DKIND. -/
def Template.dkind (t : Template) : Nat := fld (t.dw 0) 23 22
/-- BSIDE: the bounds apply to the destination. -/
def Template.bside (t : Template) : Bool := (t.dw 0).getLsbD 21
/-- BTAG. -/
def Template.btag (t : Template) : Nat := fld (t.dw 0) 15 0
/-- The bounds of dimension `d`: LO and HI. -/
def Template.bounds (t : Template) (d : Nat) : Int × Int :=
  (sgn 32 (fld (t.dw (4 + d)) 31 0), sgn 32 (fld (t.dw (4 + d)) 63 32))
/-- The stride of dimension `d` on the source or the destination side. -/
def Template.stride (t : Template) (d : Nat) (src : Bool) : Int := (t.dw ((if src then 8 else 12) + d)).toInt
/-- The base of the source or the destination side. -/
def Template.base (t : Template) (src : Bool) : Nat := (t.dw (if src then 1 else 2)).toNat

/-- Whether two templates are declared on one channel, or on one named queue of one engine (R203, R404). -/
def Template.shares (t x : Template) : Bool :=
  (t.declCh.isSome && x.declCh = t.declCh) || (t.declQ.isSome && x.declQ = t.declQ && x.port = t.port)

/-- A template of a graph in an engine. -/
def Graph.template? (g : Graph) (p n : Nat) : Option Template :=
  g.templates.find? (fun t => t.port = p && t.num = n)

/-- The template that an engine holds under a number, with its job. -/
def State.loaded? (s : State) (p n : Nat) : Option (Nat × Template) :=
  (s.graphs.filter (fun e => e.2.phase ≠ .saved)).findSome? (fun e => (e.2.template? p n).map (fun t => (e.1, t)))

/-- Changes a template of a graph. -/
def Graph.modTemplate (g : Graph) (p n : Nat) (k : Template → Template) : Graph :=
  { g with templates := g.templates.map (fun t => if t.port = p && t.num = n then k t else t) }

/-! Kick records (R198). -/

/-- TEMPLATE of a record. -/
def krTemplate (kr : V512) : Nat := dwf kr 0 63 58
/-- TAG of a record. -/
def krTag (kr : V512) : Nat := dwf kr 0 31 0
/-- ORIGIN(d). -/
def krOrigin (kr : V512) (d : Nat) : Int := sgn 32 (dwf kr (1 + d / 2) (32 * (d % 2) + 31) (32 * (d % 2)))
/-- COUNT(d). -/
def krCount (kr : V512) (d : Nat) : Nat := dwf kr (3 + d / 2) (32 * (d % 2) + 31) (32 * (d % 2))
/-- Whether a reserved bit of a record is set. -/
def krBad (kr : V512) : Bool := dwf kr 0 57 32 ≠ 0 || bitsOf kr.toNat 511 320 ≠ 0

end Sys2Proof.Machine
end

