-- ==== Sys2Proof/Machine/Xlate.lean ====
section
/-! DEFINITION. Translation: the walk (R224 to R227), cached translations (R228, R231), ATS (R233) and translation
tickets (R230, R232). -/

namespace Sys2Proof.Machine

/-- The outcome of a walk or of a cached entry: a translation with its page, a serviceable fault (its cause code),
or a page that the host of a link translates. -/
inductive Walk
  | page (pa sh : Nat) (w : Bool)
  | fault (code : Nat)
  | host (link : Nat) (w : Bool)
  deriving DecidableEq, Repr

/-- The outcome of a translation for one access: the physical address, a serviceable fault, a refusal of the host,
or a wait for the host. -/
inductive Xl
  | ok (pa : Nat)
  | fault (code : Nat)
  | deny
  | wait
  deriving DecidableEq, Repr

/-- The page size exponent of a SIZE code (R227). -/
def pageSh (c : Nat) : Nat := [12, 14, 16, 18, 20, 21, 22, 24, 26, 28, 30, 34].getD c 0

/-- The SIZE codes that a level allows (R225). -/
def sizeAllowed (level c : Nat) : Bool :=
  match level with
  | 0 => decide (c ≤ 4)
  | 1 => decide (5 ≤ c) && decide (c ≤ 9)
  | 2 => decide (c = 10) || decide (c = 11)
  | _ => false

/-- The bits that an entry of a level spans (R225). -/
def levelSh (level : Nat) : Nat := 12 + 9 * level

/-- A doubleword of local memory as a walk reads it; none where it is poisoned (R229 WALKDROSS), where an expander has
failed (R52). -/
def State.walkRead (s : State) (pa : Nat) : Option Nat :=
  if s.mem.isBad (pa / 8) then none
  else match s.inExpander pa with
    | some (_, _, true) => none
    | _ => some (s.mem.word pa)

/-- Whether a table lies in local memory (R225, R227). -/
def State.tableOk (s : State) (pa : Nat) : Bool :=
  match s.lowTarget pa with
  | .loc _ => true
  | _ => false

/-- The indices of the entries of a table that hold something: an entry that is not zero or that is poisoned. -/
def State.listed (s : State) (table : Nat) : List Nat :=
  ((s.mem.cells.filter (fun c => table ≤ c.1 ∧ c.1 < table + 4096)).map (fun c => (c.1 - table) / 8) ++
    (s.mem.bad.filter (fun g => table ≤ 8 * g ∧ 8 * g < table + 4096)).map (fun g => g - table / 8)).dedup

/-- Whether an entry is a leaf of a size larger than the span of its level: the exponent of its group (R227). -/
def groupOf (level : Nat) (e : Option Nat) : Option Nat :=
  match e with
  | none => none
  | some x =>
    let c := bitsOf x 11 8
    if bitsOf x 1 0 = 3 ∧ sizeAllowed level c ∧ levelSh level < pageSh c then some (pageSh c - levelSh level) else none

/-- The entries that an address in entry `i` of a table may be translated with (R227): its own, and those of every
group around it that a leaf of the group claims, each once. -/
def State.choices (s : State) (level table i : Nat) : List (Option Nat) :=
  let read := fun j => s.walkRead (table + 8 * j)
  let own := read i
  let on := s.listed table
  let groups := (on.filterMap (fun j => (groupOf level (read j)).bind (fun g =>
    if j / 2 ^ g = i / 2 ^ g then some g else none))).dedup
  match groups.foldl max 0 with
  | 0 => [own]
  | g =>
    let members := on.filter (fun j => j / 2 ^ g = i / 2 ^ g)
    let others := members.map read ++ (if members.length < 2 ^ g then [some 0] else [])
    (own :: others).dedup

/-- What an entry that has been chosen gives at a level (R226, R227, R231): the next table, or an outcome, for the part of its page
that a cache takes as one. -/
def State.judge (s : State) (level : Nat) (va : Nat) (e : Option Nat) : Nat ⊕ Walk :=
  match e with
  | none => .inr (.fault 54)
  | some x =>
    let pa := 4096 * bitsOf x 54 12
    if x % 2 = 0 then .inr (.fault 51)
    else if bitsOf x 63 55 ≠ 0 ∨ bitsOf x 4 3 ≠ 0 then .inr (.fault 53)
    else if bitsOf x 1 1 = 0 then
      if level = 0 ∨ !s.tableOk pa then .inr (.fault 53) else .inl pa
    else
      let c := bitsOf x 11 8
      if !sizeAllowed level c then .inr (.fault 53)
      else if bitsOf x 5 5 = 1 then
        let n := bitsOf x 7 6
        if (s.hostLink n).mode = 2 ∨ pa % 2 ^ pageSh c ≠ 0 then .inr (.fault 53) else .inr (.host n (x.testBit 2))
      else if pa % 2 ^ pageSh c ≠ 0 then .inr (.fault 53)
      else .inr (.page (pa + va % 2 ^ pageSh c) (min 21 (pageSh c)) (x.testBit 2))

/-- Picks one of the outcomes that the spec leaves open, asking for a free choice only where they differ. -/
def State.pick {α : Type} (s : State) (d : α) (l : List α) : α × State :=
  match l with
  | [] => (d, s)
  | [x] => (x, s)
  | _ => let (k, s) := s.choose l.length; (l.getD k d, s)

/-- The walk from a level down (R225). -/
def State.walkFrom (s : State) (va : Nat) : Nat → Nat → Walk × State
  | 0, table => match s.pick none (s.choices 0 table (bitsOf va 20 12)) with
    | (e, s) => match s.judge 0 va e with
      | .inl _ => (.fault 53, s)
      | .inr o => (o, s)
  | level + 1, table =>
    let sh := levelSh (level + 1)
    match s.pick none (s.choices (level + 1) table (bitsOf va (sh + 8) sh)) with
    | (e, s) => match s.judge (level + 1) va e with
      | .inl next => State.walkFrom s va level next
      | .inr o => (o, s)

/-- The walk of an address in a PASID (R224, R225). A PASID table outside local memory is MALFORMED, as any table
is. DEDUCED, notes/assumptions/15.md -/
def State.walk (s : State) (pasid va : Nat) : Walk × State :=
  let b := s.board
  let at0 := 4096 * fld b.trptab 54 12 + 16 * pasid
  if !b.tren ∨ 2 ^ fld b.trptab 4 0 ≤ pasid then (.fault 50, s)
  else if !s.tableOk at0 then (.fault 53, s)
  else match s.walkRead at0, s.walkRead (at0 + 8) with
    | some d0, some d1 =>
      if d0 % 2 = 0 ∨ bitsOf d0 63 55 ≠ 0 ∨ bitsOf d0 11 1 ≠ 0 ∨ d1 ≠ 0 then (.fault 50, s)
      else
        let root := 4096 * bitsOf d0 54 12
        if !s.tableOk root then (.fault 53, s) else s.walkFrom va 4 root
    | _, _ => (.fault 54, s)

/-- An address of 57 bits as a canonical one (R205, R246). -/
def extendVa (va : Nat) : Nat := if va.testBit 56 then va + 0xFE00000000000000 else va

/-- The outcome that a cached entry gives. -/
def TlbEntry.out (e : TlbEntry) (va : Nat) : Walk := .page (e.tgt + (va - e.va)) e.sh e.w

/-- The cached entries of a node that cover an address (R228). -/
def State.cached (s : State) (node pasid va : Nat) : List TlbEntry :=
  s.tlb.filter (fun e => e.node = node ∧ e.pasid = pasid ∧ e.va ≤ va ∧ va < e.va + 2 ^ e.sh)

/-- What one outcome means for a read or a write. -/
def Walk.allows (o : Walk) (write : Bool) : Walk :=
  match o with
  | .page _ _ false => if write then .fault 52 else o
  | .host _ false => if write then .fault 52 else o
  | o => o

/-- A host window address (R206). -/
def hostWindow (link addr : Nat) : Nat := 0x1000000000000 + link * 0x400000000000 + addr

/-- The outcomes open to an access at a node: a walk as the tables stand, or any translation that is still cached
(R228). A result of ATS stands for the page that the host translates, which may also be asked for anew (R228, R233). -/
def State.outcomes (s : State) (node pasid va : Nat) (write : Bool) : List Walk × State :=
  let (o, s) := s.walk pasid va
  let old := (s.cached node pasid va).map (fun e => e.out va)
  match o with
  | .host n _ =>
    let isAts := fun w : Walk => match w with
      | .page pa _ _ => decide (hostWindow n 0 ≤ pa) && decide (pa < hostWindow (n + 1) 0)
      | _ => false
    let got := old.filter (fun w => isAts w && decide (w.allows write = w))
    let rest := old.filter (fun w => !isAts w)
    ((o.allows write :: ((if o.allows write = o then got else []) ++ rest.map (·.allows write))).dedup, s)
  | o => ((o.allows write :: old.map (·.allows write)).dedup, s)

/-- The entries that a node holds. -/
def State.held (s : State) (node : Nat) : List TlbEntry := s.tlb.filter (fun e => e.node = node)

/-- Keeps a translation for later accesses of the node, in place of the oldest one where its 1024 entries are in use (R228,
R231). -/
def State.cache (s : State) (e : TlbEntry) : State :=
  if s.tlb.contains e then s else
  match s.held e.node with
  | old :: rest => { s with tlb := (if 1023 ≤ rest.length then s.tlb.erase old else s.tlb) ++ [e] }
  | [] => { s with tlb := s.tlb ++ [e] }

/-- The entry for an address of a page: a page larger than 2 MiB takes one for the 2 MiB region (R231). -/
def entryFor (node pasid va pa sh : Nat) (w : Bool) : TlbEntry :=
  let sh := min sh 21
  { node := node, pasid := pasid, va := va - va % 2 ^ sh, sh := sh, tgt := pa - va % 2 ^ sh, w := w }

/-- Whether the waiters are the same, apart from what they will take. -/
def Waiter.same : Waiter → Waiter → Bool
  | .firing j a _, .firing k b _ => j = k && a = b
  | x, y => x = y

/-- An access to a page that the host translates, with no result at hand: the request is sent once, and a refusal
ends it (R233). -/
def State.askHost (s : State) (link pasid va : Nat) (write : Bool) (who : Waiter) : Xl × State :=
  if !(s.hostLink link).ats then (.deny, s) else
  match s.ats.find? (fun r => r.who.same who && r.page = va / 4096 && r.pasid = pasid) with
  | some r =>
    if r.denied then (.deny, { s with ats := s.ats.filter (fun x => x.id ≠ r.id) }) else (.wait, s)
  | none =>
    let (id, s) := s.newId
    let r : AtsReq := { id := id, link := link, pasid := pasid, page := va / 4096, write := write, who := who }
    let s := { s with ats := s.ats ++ [r] }
    (.wait, s.emit (.ats link pasid (va / 4096) write false))

/-- Translates an address at a node (R224 to R233). -/
def State.translateAt (s : State) (node pasid va : Nat) (write : Bool) (who : Waiter) : Xl × State :=
  let (os, s) := s.outcomes node pasid va write
  let (o, s) := s.pick (.fault 51) os
  match o with
  | .page pa sh w => (.ok pa, s.cache (entryFor node pasid va pa sh w))
  | .fault c => (.fault c, s)
  | .host n _ => s.askHost n pasid va write who

/-- Translates the address of a direct access (R231). -/
def State.translate (s : State) (pasid va : Nat) (write : Bool) (who : Waiter) : Xl × State :=
  s.translateAt (sliceOf pasid va) pasid va write who

/-- One granule of an access: its virtual address, its length and where it leads. -/
structure Piece where
  va : Nat
  len : Nat
  tgt : Target
  deriving DecidableEq, Repr

/-- Translates the granules of a direct access in turn, up to the first that does not translate. A page whose
ticket was failed leads to no memory, at an address that the spec does not state (R206, R230). -/
def State.translateAll (pasid : Nat) (failed : List Nat) (write : Bool) (who : Waiter) :
    List (Nat × Nat) → State → (List Piece × Option (Nat × Xl)) × State
  | [], s => (([], none), s)
  | (va, n) :: t, s =>
    if failed.contains (va / 4096) then
      let (x, s) := s.freeValue
      let ((ps, e), s) := State.translateAll pasid failed write who t s
      ((⟨va, n, .none x.toNat⟩ :: ps, e), s)
    else
      match s.translate pasid va write who with
      | (.ok pa, s) =>
        let ((ps, e), s) := State.translateAll pasid failed write who t s
        ((⟨va, n, s.target pa⟩ :: ps, e), s)
      | (x, s) => (([], some (va, x)), s)

/-- The granules of an access with no translation at all: every one leads to no memory (R206). -/
def State.noMemory : List (Nat × Nat) → State → List Piece × State
  | [], s => ([], s)
  | (va, n) :: t, s =>
    let (x, s) := s.freeValue
    let (ps, s) := State.noMemory t s
    (⟨va, n, .none x.toNat⟩ :: ps, s)

/-! Fluxes (R240, R241). -/

/-- Whether a page of addresses in a PASID lies in the range of a flux. -/
def Flux.covers (x : Flux) (pasid va sh : Nat) : Bool :=
  match x.scope with
  | 0 => x.pasid = pasid && decide (va < x.va + 2 ^ x.sh) && decide (x.va < va + 2 ^ sh)
  | 1 => x.pasid = pasid
  | _ => true

/-- Whether bytes at an address in a PASID meet the range of a flux. -/
def Flux.meets (x : Flux) (pasid va n : Nat) : Bool :=
  match x.scope with
  | 0 => x.pasid = pasid && decide (va < x.va + 2 ^ x.sh) && decide (x.va < va + max 1 n)
  | 1 => x.pasid = pasid
  | _ => true

/-! Tickets (R230). -/

/-- The open ticket of a page. -/
def State.ticketOf (s : State) (pasid page : Nat) : Option Nat :=
  (s.tickets.find? (fun e => e.2.pasid = pasid && e.2.page = page)).map (·.1)

/-- Joins the ticket of a page, or opens the lowest free one with its record; none while all 1024 are open. -/
def State.joinTicket (s : State) (j pasid va code : Nat) (write : Bool) (who : Waiter) : Option (Nat × State) :=
  match s.ticketOf pasid (va / 4096) with
  | some n => some (n, { s with tickets := Tab.modify s.tickets n (fun t => { t with waiters := t.waiters ++ [who] }) })
  | none =>
    match (List.range 1024).find? (fun n => (Tab.find s.tickets n).isNone) with
    | none => none
    | some n =>
      let sec := s.jobSecure j
      let t : Ticket := { pasid := pasid, page := va / 4096, kind := code, world := sec, waiters := [who] }
      let s := { s with tickets := Tab.set s.tickets n t,
                        board := { s.board with faults := satAdd 0xFFFF s.board.faults 1 } }
      let r := s.jobRec j { code := code, tval := BitVec.ofNat 64 va, wr := write, pasid := pasid } false
      some (n, s.pushRecord sec { r with ticket := some n })

end Sys2Proof.Machine
end

