-- ==== Sys2Proof/Machine/Access.lean ====
section
/-! DEFINITION. Global accesses on their way (R209 to R220): issue with forwarding (R347 to R351), the order in which
they may be performed, and the return of what they read. -/

namespace Sys2Proof.Machine

/-! Who makes an access, and the chains (R211). -/

/-- Whether two accesses belong to one party's program: one actor, one engine or one stream. -/
def Src.sameParty : Src → Src → Bool
  | .firing j a, .firing k b => j = k && a = b
  | .engine p _ _ _, .engine q _ _ _ => p = q
  | .stream j n _ _, .stream k m _ _ => j = k && n = m
  | .inbound q _, .inbound r _ => q = r
  | _, _ => false

/-- Whether an access only reads. -/
def Access.reads (a : Access) : Bool :=
  match a.kind with
  | .load _ => true
  | _ => false

/-- Whether two accesses go to two different peers, where nothing but a fence orders them (R22, R223). -/
def Access.apart (a b : Access) : Bool :=
  match a.tgt, b.tgt with
  | .peer q _, .peer r _ => q ≠ r
  | _, _ => false

/-- Whether two accesses lead to one granule. -/
def Access.sameGranule (a b : Access) : Bool :=
  match a.tgt, b.tgt with
  | .loc x, .loc y => x / 8 = y / 8
  | .host l x, .host k y => l = k && x / 8 = y / 8
  | .peer q x, .peer r y => q = r && x / 8 = y / 8
  | _, _ => false

/-- Whether two accesses of one party keep their order: all those of a peer (R22), a host's behind a write (R219), but not two reads of
another party, unless a stream reads one granule twice (R211, R236). -/
def Access.ordered (a b : Access) : Bool :=
  match a.src with
  | .inbound q _ => decide (q < 4096) || !a.reads
  | .stream _ _ _ _ => a.sameGranule b || !(a.reads && b.reads)
  | _ => !(a.reads && b.reads)

/-- Whether an earlier access holds back a later one: they share a chain, are not granules of one access, do not go to two
peers, and keep their order (R22, R211, R223, R236), or a fence orders them (R218). -/
def Access.holds (a b : Access) : Bool :=
  b.after.contains a.id || (a.src.sameParty b.src && a.cls = b.cls && a.grp ≠ b.grp && !a.apart b && a.ordered b)

/-- The accesses that travel ahead of one. -/
def State.ahead (s : State) (id : Nat) : List Access := s.inflight.takeWhile (fun a => a.id ≠ id)

/-- Whether an access may be performed now. -/
def State.free (s : State) (a : Access) : Bool :=
  (s.ahead a.id).all (fun x => !x.holds a) && s.inflight.all (fun x => !a.after.contains x.id)

/-- An access by its number. -/
def State.access? (s : State) (id : Nat) : Option Access := s.inflight.find? (fun a => a.id = id)

/-- The accesses of a firing's actor that are in flight. -/
def State.flying (s : State) (j aid : Nat) : List Access :=
  s.inflight.filter (fun a => a.src = Src.firing j aid)

/-- The accesses of a firing itself that are in flight. -/
def State.own (s : State) (f : Firing) : List Access := s.unperformed f

/-- The accesses that the fences executed so far put before an access of a class (R218). -/
def afterOf (fenced : List (Nat × List Nat)) (cls : Nat) : List Nat :=
  (fenced.filter (fun e => e.1.testBit cls)).flatMap (·.2)

/-! Requests to peers (R21). -/

/-- Whether an access carries on where another granule of the same access ends, inside one 256-byte block of a peer's window and
doing the same: the two are then one request (R21). The doublewords of an affine stream's element are accesses of their own (R432). -/
def Access.goesOn (x a : Access) : Bool :=
  x.grp = a.grp && x.req = a.req && x.src.sameParty a.src && (match x.tgt, a.tgt with
    | .peer q b, .peer r addr => q = r && b / 256 = addr / 256 && (match x.kind, a.kind with
      | .load n, .load _ => decide (b + n = addr)
      | .store bs, .store _ => decide (b + bs.length = addr)
      | _, _ => false)
    | _, _ => false)

/-- Joins an access to the request that it carries on, or makes one, while the peer is active (R21, R29). -/
def State.askPeer (s : State) (a : Access) : State :=
  match a.tgt with
  | .peer q _ =>
    if (s.peer q).st ≠ .active then s else
    match s.outreqs.find? (fun o => !o.sent && o.accs.any (fun i => (s.access? i).any (fun x => x.goesOn a))) with
    | some o => { s with outreqs := s.outreqs.map (fun x => if x.id = o.id then { x with accs := x.accs ++ [a.id] } else x) }
    | none =>
      let (id, s) := s.newId
      let r : OutReq := { id := id, accs := [a.id], peer := q, cls := a.cls, read := a.reads,
                          fence := match a.kind with
                            | .fence _ => true
                            | _ => false }
      { s with outreqs := s.outreqs ++ [r] }
  | _ => s

/-- Sends an access on its way. -/
def State.sendAccess (s : State) (a : Access) : State := { s.askPeer a with inflight := s.inflight ++ [a] }

/-- Sends accesses on their way, in order. -/
def State.sendAccesses (s : State) (as : List Access) : State := as.foldl State.sendAccess s

/-- Gives numbers to the pieces of an access. -/
def State.number {α : Type} : List α → State → List (Nat × α) × State
  | [], s => ([], s)
  | p :: t, s =>
    let (id, s) := s.newId
    let (l, s) := State.number t s
    ((id, p) :: l, s)

/-! The return of what was read. -/

/-- Adds bytes to a register as one piece of a load (R348, R352): the sign is extended once the last piece is
there. -/
def Regs.fill (r : Regs) (id : Nat) (dest : Dest) (bs : Bytes) : Regs :=
  match dest with
  | .scalar d lo size signed =>
    let x := Tab.get {} r.s d
    if !x.pend.contains id then r else
    let pend := x.pend.filter (· ≠ id)
    let v := x.val ||| BitVec.ofNat 64 (leNat (bs.map (·.1)) <<< (8 * lo))
    let v := if pend = [] && signed then BitVec.ofInt 64 (sgn (8 * size) v.toNat) else v
    { r with s := Tab.set r.s d { val := v, dross := x.dross || anyDross bs, pend := pend } }
  | .vector d lo =>
    let x := Tab.get {} r.v d
    if !x.pend.contains id then r else
    { r with v := Tab.set r.v d {
        val := x.val ||| BitVec.ofNat 512 (leNat (bs.map (·.1)) <<< (8 * lo)),
        dross := x.dross ||| BitVec.ofNat 64 (bitsNat (bs.map (·.2)) <<< lo),
        pend := x.pend.filter (· ≠ id) } }
  | _ => r

/-- A register that waits for the pieces of a load. -/
def Regs.await (r : Regs) (dest : Dest) (ids : List Nat) : Regs :=
  match dest with
  | .scalar d _ _ _ => { r with s := Tab.set r.s d { pend := ids } }
  | .vector d _ => { r with v := Tab.set r.v d { pend := ids } }
  | _ => r

/-- The bytes of a load once those that its own firing stored stand in their places (R350). -/
def mergeFwd (fwd : List (Option (Byte × Bool))) (bs : Bytes) : Bytes :=
  (bs.zipIdx).map (fun e => ((fwd.getD e.2 none).getD e.1))

/-- The firing in progress of an actor. -/
def State.firingOf (s : State) (j aid : Nat) : Option (Nat × Firing) :=
  let t := (s.actor j aid).tile
  match (s.tile t).firing with
  | some f => if f.job = j && f.aid = aid then some (t, f) else none
  | none => none

/-- Hands the bytes of a read to its issuer. -/
def State.handBack (s : State) (a : Access) (bs : Bytes) : State :=
  match a.src with
  | .firing j aid =>
    match s.firingOf j aid with
    | some (t, f) => s.setFiring t { f with regs := f.regs.fill a.id a.dest bs }
    | none => s
  | .engine p uid _ _ =>
    let e := (s.port p).eng
    if !e.copy.any (·.uid = uid) then s else
    let e : Engine := { e with copy := e.copy.map (fun c => { c with dross := c.dross || anyDross bs }) }
    match e.copy, a.dest with
    | some c, .burst lo => s.setEngine p { e with copy := some { c with buf := c.buf.store lo bs } }
    | _, d => s.setEngine p { e with regs := e.regs.fill a.id d bs }
  | .stream j n e part =>
    if !s.hasGraph j then s else
    let g := s.graph j
    let st := g.stream n
    let upd := fun x : Elem => match x.st with
      | .external got tgt => if x.idx = e then { x with st := .external (got.set part (some bs)) tgt } else x
      | _ => x
    s.setGraph j (g.setStream n { st with window := st.window.map upd })
  | .inbound _ id =>
    { s with inreqs := s.inreqs.map (fun r => if r.id = id then
        { r with parts := r.parts.map (fun p => if p.1 = a.id then (p.1, p.2.1, some bs) else p) } else r) }
  | .own _ => { s with ownReads := s.ownReads.map (fun r => if r.id = a.id then { r with got := some bs } else r) }

/-- Removes an access. -/
def State.dropAccess (s : State) (id : Nat) : State := s.dropIf (fun a => a.id = id)

/-- What the end of an access lets go on: the completion of its copy, if the copy has ended (R199, R221), and the records after it (R290). -/
def State.settleCopy (s : State) (a : Access) : State :=
  match a.src with
  | .engine p uid _ _ => s.settleEnding p uid
  | .own none => s.settleRecords a.id true
  | _ => s

/-- Ends an access that has been performed, with the bytes that it read. -/
def State.finish (s : State) (a : Access) (bs : Bytes) : State :=
  let s := (s.dropAccess a.id).settleCopy a
  match a.kind with
  | .load _ => s.handBack a (mergeFwd a.fwd bs)
  | .atomic _ _ _ _ _ => s.handBack a bs
  | .store _ => match a.src with
    | .stream _ _ _ _ => s.handBack a []
    | .inbound _ _ => s.handBack a []
    | _ => s
  | .fence _ => match a.src with
    | .inbound _ _ => s.handBack a []
    | _ => s

/-- Zeros with dross (R29, R206). -/
def drossBytes (n : Nat) : Bytes := List.replicate n (0, true)

/-- The bytes that an access returns. -/
def AKind.retBytes : AKind → Nat
  | .load n => n
  | .atomic _ _ _ _ size => size
  | _ => 0

/-- The bytes that an access covers. -/
def AKind.len : AKind → Nat
  | .load n => n
  | .store bs => bs.length
  | .atomic _ _ _ _ size => size
  | .fence _ => 0

/-- Ends an access with the error that its issuer sees only as dross (R28, R206, R412). -/
def State.finishError (s : State) (a : Access) : State :=
  (if a.src = .own none then s.settleRecords a.id false else s).finish a (drossBytes a.kind.retBytes)

/-- Whether two accesses are granules of one access, or parts of one element (R206, R209). -/
def Access.mate (a b : Access) : Bool := a.req = b.req && a.src.sameParty b.src

/-- The other granules of an access that has raised its cause raise none. -/
def State.hush (s : State) (a : Access) : State :=
  { s with inflight := s.inflight.map (fun x => if a.mate x then { x with quiet := true } else x) }

/-- Raises NOMEM for an access of a firing or of a copy, once (R206): a firing in progress takes it as it ends, another
source's actor at its next boundary, unsuspended (R286). -/
def State.raiseNomem (s : State) (a : Access) (pa : Nat) : State :=
  if a.quiet then s else
  let s := s.hush a
  let c : Cause := { code := 56, tval := BitVec.ofNat 64 pa, suspends := false, wr := a.writes }
  match a.src with
  | .firing j aid =>
    let c := { c with aid := aid, pasid := s.pasidOf j }
    match s.firingOf j aid with
    | some (t, f) =>
      if f.first ≤ a.id then s.setFiring t { f with nomem := f.nomem.or (some { c with tpc := (f.regs.pc % 65536).toNat }) }
      else s.postCause t j c
    | none => s.postCause (s.actor j aid).tile j c
  | .engine _ _ j aid => if s.hasGraph j then s.postCause (s.actor j aid).tile j { c with aid := aid, pasid := s.pasidOf j } else s
  | .stream j _ _ _ => s.jobNotice j { c with pasid := s.pasidOf j }
  | .inbound _ _ => s
  | .own _ => s

/-! The commit buffer (R151, R152, R349, R350). -/

/-- The bytes of a record that serve forwarding. -/
def CItem.bytesAt (sp : Space) (x : CItem) (a : Nat) : Option (Byte × Bool) :=
  match x with
  | .store sp' lo _ _ _ bs _ => if sp' = sp ∧ lo ≤ a then bs[a - lo]? else none
  | .posted sp' lo bs => if sp' = sp ∧ lo ≤ a then bs[a - lo]? else none
  | _ => none

/-- The byte that a load takes from its own firing's stores (R350); later stores have overwritten the records of
earlier ones. -/
def Firing.forward (f : Firing) (sp : Space) (a : Nat) : Option (Byte × Bool) :=
  f.cbuf.findSome? (fun x => x.bytesAt sp a)

/-- Writes later bytes into a record that holds them already (R349). -/
def overwrite (lo : Nat) (bs : Bytes) (a : Nat) (new : Bytes) : Bytes :=
  (bs.zipIdx).map (fun e => if a ≤ lo + e.2 ∧ lo + e.2 < a + new.length then new.getD (lo + e.2 - a) e.1 else e.1)

/-- Writes later bytes into the record. -/
def CItem.patch (sp : Space) (a : Nat) (new : Bytes) (x : CItem) : CItem :=
  match x with
  | .store sp' lo c g t bs af => if sp' = sp then .store sp' lo c g t (overwrite lo bs a new) af else x
  | .posted sp' lo bs => if sp' = sp then .posted sp' lo (overwrite lo bs a new) else x
  | x => x

/-- Writes later bytes into every record. -/
def Firing.patch (f : Firing) (sp : Space) (a : Nat) (new : Bytes) : Firing :=
  { f with cbuf := f.cbuf.map (CItem.patch sp a new) }

/-- The entry that a record takes: its space, its block and its class (R152). -/
def CItem.entry? (x : CItem) : Option (Space × Nat × Nat) :=
  match x with
  | .store sp a c _ _ _ _ => some (sp, a / 64, c)
  | _ => none

/-- The entries in use (R152): blocks of stores, deferred atomics (R411), and kicks (R405, R203). -/
def Firing.entries (f : Firing) : Nat :=
  ((f.cbuf.filterMap CItem.entry?).dedup).length
    + (f.cbuf.filter (fun x => match x with | .atomic .. => true | _ => false)).length
    + (f.eff6.filter (fun x => match x with | .kick .. => true | .kickReg .. => true | _ => false)).length

/-- The block that needs a 65th entry if these records are added, if one does (R152). -/
def Firing.overflow (f : Firing) (new : List CItem) : Option Nat :=
  (List.range (new.length + 1)).findSome? (fun n =>
    if 64 < { f with cbuf := f.cbuf ++ new.take n }.entries then
      ((new.take n).getLast?.bind CItem.entry?).map (fun e => 64 * e.2.1) else none)

/-! Accesses of a firing (R347, R232). -/

/-- A memory cause of a firing (R232). -/
def State.memCause (s : State) (f : Firing) (code : Nat) (va : Int) (write : Bool) : Cause :=
  { f.cause code (BitVec.ofInt 64 va) with wr := write, pasid := s.pasidOf f.job }

/-- The number of a kind of firing in `Actor.held`. -/
def FKind.code : FKind → Nat
  | .ordinary => 0
  | .completion _ _ => 1
  | .fault _ => 2

/-- What a translation that gives no address does to a firing (R230, R232): a replayable firing aborts, to be
fired again once the ticket is retried, with the cause that it takes if the ticket is failed; the access of
another waits, and goes on as an access to no memory once its ticket is failed. -/
def State.blocked (s : State) (t : Nat) (f : Firing) (va : Nat) (write : Bool) (x : Xl) : State :=
  match x with
  | .ok _ => s
  | .wait => s
  | .deny =>
    if f.replay then s.raiseC t f (s.memCause f 55 va write)
    else s.setFiring t { f with failed := f.failed ++ [va / 4096] }
  | .fault code =>
    let c := match f.kind with
      | .fault _ => { code := 101, tval := BitVec.ofNat 64 f.aid }
      | _ => s.memCause f code va write
    match s.joinTicket f.job (s.pasidOf f.job) va code write (.firing f.job f.aid (if f.replay then some c else none)) with
    | none => s
    | some (n, s) =>
      if f.replay then
        let s := s.rollback t f
        let a := s.actor f.job f.aid
        s.setActor f.job f.aid { a with held := a.held ++ [(f.kind.code, n)] }
      else s.setFiring t { f with ticket := some n, again := some (va, write) }

/-- A global access of a firing at an exact address: the granules it touches, translated, go to `k` (R347). -/
def onGlobal (s : State) (t : Nat) (f : Firing) (ea : Int) (size : Nat) (write : Bool)
    (k : State → Firing → List Piece → Res) : Res :=
  if f.ticket.isSome then .next s
  else if !canonicalSpan ea size then
    if f.replay then .next (s.raiseC t f (s.memCause f 49 ea write))
    else
      let (ps, s) := State.noMemory (pieces (size + 1) (ea % 2 ^ 64).toNat size) s
      k s f ps
  else
    let who : Waiter := .firing f.job f.aid none
    match State.translateAll (s.pasidOf f.job) f.failed write who (pieces (size + 1) ea.toNat size) s with
    | ((_, some (va, x)), s) => .next (s.blocked t f va write x)
    | ((ps, none), s) => k s { f with failed := [] } ps

/-- A scalar access to the register window that is not naturally aligned is ignored (R59): it leads to an offset
that no block defines. -/
def Piece.tidy (size va : Nat) (p : Piece) : Piece :=
  match p.tgt with
  | .reg _ => if size ≤ 8 ∧ va % size ≠ 0 then { p with tgt := .reg 0x7FFFF8 } else p
  | _ => p

/-- The PASID of a source's accesses (R205). -/
def State.srcPasid (s : State) (src : Src) : Nat := (src.job.map s.pasidOf).getD 0

/-- Sends the granules of one access of a firing or of microcode. -/
def State.issue (s : State) (src : Src) (cls : Nat) (world : Bool) (after : List Nat)
    (nps : List (Nat × Piece)) (kind : Piece → AKind) (dest : Piece → Dest)
    (fwd : Piece → List (Option (Byte × Bool))) : State :=
  let grp := (nps.map (·.1)).headD 0
  s.sendAccesses (nps.map (fun e =>
    { id := e.1, grp := grp, req := grp, src := src, cls := cls, kind := kind e.2, va := e.2.va, tgt := e.2.tgt,
      node := some (sliceOf (s.srcPasid src) e.2.va), pasid := s.srcPasid src,
      dest := dest e.2, world := world, after := after, fwd := fwd e.2 }))

/-- A global load of a firing (R348, R350): the destination waits for its granules. -/
def State.issueLoad (s : State) (t : Nat) (f : Firing) (ps : List Piece) (cls : Nat) (dest : Nat → Dest) : State :=
  let base := (ps.map (·.va)).headD 0
  let (nps, s) := State.number ps s
  let s := s.issue (.firing f.job f.aid) cls (s.jobSecure f.job) (afterOf f.fenced cls) nps
    (fun p => .load p.len) (fun p => dest (p.va - base))
    (fun p => (List.range p.len).map (fun i => f.forward .glob (p.va + i)))
  s.stepFiring t f (f.regs.await (dest 0) (nps.map (·.1)))

/-- A global store of a firing, committed or posted by its class (R349). -/
def State.issueStore (s : State) (t : Nat) (f : Firing) (ps : List Piece) (cls : Nat) (bs : Bytes) : State :=
  let base := (ps.map (·.va)).headD 0
  let cut := fun p : Piece => (bs.drop (p.va - base)).take p.len
  if cls = 15 then
    let (nps, s) := State.number ps s
    let s := s.issue (.firing f.job f.aid) cls (s.jobSecure f.job) (afterOf f.fenced cls) nps
      (fun p => .store (cut p)) (fun _ => .none) (fun _ => [])
    let f := f.patch .glob base bs
    s.stepFiring t { f with cbuf := f.cbuf ++ [.posted .glob base bs], replay := false } f.regs
  else
    let (grp, s) := s.newId
    let recs := ps.map (fun p => CItem.store .glob p.va cls grp p.tgt (cut p) (afterOf f.fenced cls))
    match f.overflow recs with
    | some blk => s.raise t f 6 (BitVec.ofNat 64 blk)
    | none =>
      let f := f.patch .glob base bs
      s.stepFiring t { f with cbuf := f.cbuf ++ recs } f.regs

/-! Handler RAM (R194, R347 to R350). -/

/-- Whether bytes of an actor's space meet an entry of the range scoreboard (R194). -/
def Graph.meets (g : Graph) (aid : Nat) (tstore : Bool) (lo n : Nat) (into out : Bool) : Bool :=
  g.sb.any (fun e => e.aid = aid && e.tstore = tstore && ((e.into && into) || (!e.into && out)) &&
    decide (lo ≤ e.hi) && decide (e.lo < lo + n))

/-- The bytes of a handler-RAM load (R350). -/
def State.ramBytes (s : State) (f : Firing) (a n : Nat) : Bytes :=
  let m := (s.actor f.job f.aid).hram
  (List.range n).map (fun i => (f.forward .hram (a + i)).getD (m.read (a + i)))

/-- A handler-RAM store of a firing, committed or posted by its class (R349). -/
def State.storeRam (s : State) (t : Nat) (f : Firing) (a cls : Nat) (bs : Bytes) : State :=
  let ps := pieces (bs.length + 1) a bs.length
  if cls = 15 then
    if (s.graph f.job).meets f.aid false a bs.length true true then s else
    let x := s.actor f.job f.aid
    let s := s.setActor f.job f.aid { x with hram := x.hram.store a bs }
    let f := f.patch .hram a bs
    s.stepFiring t { f with cbuf := f.cbuf ++ [.posted .hram a bs], replay := false } f.regs
  else
    let recs := ps.map (fun p => CItem.store .hram p.1 cls 0 (.none 0) ((bs.drop (p.1 - a)).take p.2) [])
    match f.overflow recs with
    | some blk => s.raise t f 6 (BitVec.ofNat 64 blk)
    | none =>
      let f := f.patch .hram a bs
      s.stepFiring t { f with cbuf := f.cbuf ++ recs } f.regs

/-! Accesses of Silt microcode (R231, R232). -/

/-- The source of a copy's accesses. -/
def Copy.src (c : Copy) (p : Nat) : Src := .engine p c.uid c.job c.aid

/-- Sets the copy of an engine. -/
def State.setCopy (s : State) (p : Nat) (c : Copy) : State :=
  s.setEngine p { (s.port p).eng with copy := some c }

/-- What a translation that gives no address does to a copy: the access waits, and goes on as an access to no
memory once its ticket is failed or the host refuses (R229, R230, R232). -/
def State.blockedE (s : State) (p : Nat) (c : Copy) (va : Nat) (write : Bool) (x : Xl) : State :=
  match x with
  | .ok _ => s
  | .wait => s
  | .deny => s.setCopy p { c with failed := c.failed ++ [va / 4096] }
  | .fault code =>
    match s.joinTicket c.job (s.pasidOf c.job) va code write (.engine p) with
    | none => s
    | some (n, s) => s.setCopy p { c with ticket := some n, again := some (va, write) }

/-- The number of the first element in loop order whose used address lies outside 0 to 2^64 − 1 (R199, R283): element `i` has the
coordinates that `i` counts out, dimension 0 the slowest. -/
def wrapElement (t : Template) (kr : V512) : Option Nat :=
  let n := fun d => krCount kr d
  let at_ := fun (i d : Nat) => match d with
    | 0 => i / (n 1 * n 2 * n 3)
    | 1 => i / (n 2 * n 3) % n 1
    | 2 => i / n 3 % n 2
    | _ => i % n 3
  let c := fun (i d : Nat) => krOrigin kr d + (at_ i d : Int)
  let inb := fun i => (List.range 4).all (fun d => decide ((t.bounds d).1 ≤ c i d) && decide (c i d < (t.bounds d).2))
  let addr := fun (i : Nat) (src : Bool) => (t.base src : Int) + ((List.range 4).map (fun d =>
    (if t.bside = !src then c i d else (at_ i d : Int)) * t.stride d src)).sum
  let out := fun (x : Int) => decide (x < 0) || decide (2 ^ 64 < x + t.esize)
  (List.range (n 0 * n 1 * n 2 * n 3)).find? (fun i =>
    ((t.bside || inb i) && out (addr i true)) || ((!t.bside || inb i) && out (addr i false)))

/-- A global access of microcode at an exact address. An address outside 0 to 2^64 − 1 is an address wrap (R199); where no
element of the box has such an address, the index is microcode's own. DEDUCED, notes/assumptions/32.md -/
def onGlobalE (s : State) (p : Nat) (c : Copy) (ea : Int) (size : Nat) (write : Bool)
    (k : State → Copy → List Piece → Res) : Res :=
  if c.ticket.isSome then .next s
  else if ea < 0 ∨ 2 ^ 64 < ea + size then
    match ((s.graph c.job).template? p c.tmpl).bind (fun t => wrapElement t c.kr) with
    | some i => .next (s.breakCopy p c 146 (BitVec.ofNat 64 i) write)
    | none =>
      let (v, s) := s.freeValue
      .next (s.breakCopy p c 146 v write)
  else if !canonicalSpan ea size then
    let (ps, s) := State.noMemory (pieces (size + 1) (ea % 2 ^ 64).toNat size) s
    k s c ps
  else
    match State.translateAll (s.pasidOf c.job) c.failed write (.engine p) (pieces (size + 1) ea.toNat size) s with
    | ((_, some (va, x)), s) => .next (s.blockedE p c va write x)
    | ((ps, none), s) => k s { c with failed := [] } ps

/-- A window address as it answers a copy: the register window is no memory for it (R206). -/
def Piece.noWindow (p : Piece) : Piece :=
  match p.tgt with
  | .reg off => { p with tgt := .none (0x18000000000 + off) }
  | _ => p

/-- A global load of microcode (R221). -/
def State.issueLoadE (s : State) (p : Nat) (c : Copy) (r : Regs) (ps : List Piece) (cls : Nat) (dest : Nat → Dest) :
    State :=
  let base := (ps.map (·.va)).headD 0
  let (nps, s) := State.number ps s
  let s := s.issue (c.src p) cls (s.jobSecure c.job) (afterOf c.fenced cls) nps
    (fun q => .load q.len) (fun q => dest (q.va - base)) (fun _ => [])
  (s.setCopy p c).stepEngine p (r.await (dest 0) (nps.map (·.1)))

/-- A global store of microcode, performed at issue in chain order (R221). -/
def State.issueStoreE (s : State) (p : Nat) (c : Copy) (r : Regs) (ps : List Piece) (cls : Nat) (bs : Bytes) : State :=
  let base := (ps.map (·.va)).headD 0
  let (nps, s) := State.number ps s
  let s := s.issue (c.src p) cls (s.jobSecure c.job) (afterOf c.fenced cls) nps
    (fun q => .store ((bs.drop (q.va - base)).take q.len)) (fun _ => .none) (fun _ => [])
  (s.setCopy p c).stepEngine p r

end Sys2Proof.Machine
end

