-- ==== Sys2Proof/Machine/Atom.lean ====
section
/-! DEFINITION. Atomics (R410 to R412) and the fence (R413, R218). -/

namespace Sys2Proof.Machine

/-- An atomic, deferred, at issue or in microcode (R410, R411). -/
def atomic (w : W64) (op : AtomOp) (s : State) (d a b : BitVec 5) (k : BitVec 4) : Res :=
  let reads := if op = .cas then [a, b, d] else [a, b]
  onEither s reads []
    (fun t f =>
      let va := (f.regs.val a).toNat
      let x := f.regs.drossS b || (op = .cas && f.regs.drossS d)
      if f.regs.drossS a then trapAt s t f 7 w
      else if va % 8 ≠ 0 then trapAt s t f 3 w
      else onGlobal s t f va 8 true (fun s f ps =>
        let ps := ps.map Piece.noWindow
        if d = 0 then
          let recs := ps.map (fun p =>
            CItem.atomic va k.toNat p.tgt op (f.regs.val b) x (afterOf f.fenced k.toNat))
          let f' : Firing := { f with cbuf := f.cbuf ++ recs }
          if 64 < f'.entries then trapAt s t f 6 (BitVec.ofNat 64 (va / 64 * 64))
          else .next (s.stepFiring t f' f.regs)
        else
          let (nps, s) := State.number ps s
          let s := s.issue (.firing f.job f.aid) k.toNat (s.jobSecure f.job) (afterOf f.fenced k.toNat) nps
            (fun _ => .atomic op (f.regs.val b) (f.regs.val d) x 8) (fun _ => .scalar d.toNat 0 8 false) (fun _ => [])
          .next (s.stepFiring t { f with replay := false }
            (f.regs.await (.scalar d.toNat 0 8 false) (nps.map (·.1))))))
    (fun p c r =>
      let va := (r.val a).toNat
      let x := r.drossS b || (op = .cas && r.drossS d)
      let dest : Dest := if d = 0 then .none else .scalar d.toNat 0 8 false
      if r.drossS a then drossUse s w
      else if va % 8 ≠ 0 then .next (s.mcode p c)
      else onGlobalE s p c va 8 true (fun s c ps =>
        let (nps, s) := State.number (ps.map Piece.noWindow) s
        let cls := k.toNat
        let s := s.issue (c.src p) cls (s.jobSecure c.job) (afterOf c.fenced cls) nps
          (fun _ => .atomic op (r.val b) (r.val d) x 8) (fun _ => dest) (fun _ => [])
        .next ((s.setCopy p c).stepEngine p (r.await dest (nps.map (·.1))))))

/-- aadd (R410). -/
def execAadd (d a b : BitVec 5) (k : BitVec 4) (s : State) : Res :=
  atomic (wordOf (.aadd d a b k)) .add s d a b k

/-- aand (R410). -/
def execAand (d a b : BitVec 5) (k : BitVec 4) (s : State) : Res :=
  atomic (wordOf (.aand d a b k)) .and s d a b k

/-- aor (R410). -/
def execAor (d a b : BitVec 5) (k : BitVec 4) (s : State) : Res :=
  atomic (wordOf (.aor d a b k)) .or s d a b k

/-- axor (R410). -/
def execAxor (d a b : BitVec 5) (k : BitVec 4) (s : State) : Res :=
  atomic (wordOf (.axor d a b k)) .xor s d a b k

/-- amin (R410). -/
def execAmin (d a b : BitVec 5) (k : BitVec 4) (s : State) : Res :=
  atomic (wordOf (.amin d a b k)) .min s d a b k

/-- amax (R410). -/
def execAmax (d a b : BitVec 5) (k : BitVec 4) (s : State) : Res :=
  atomic (wordOf (.amax d a b k)) .max s d a b k

/-- aminu (R410). -/
def execAminu (d a b : BitVec 5) (k : BitVec 4) (s : State) : Res :=
  atomic (wordOf (.aminu d a b k)) .minu s d a b k

/-- amaxu (R410). -/
def execAmaxu (d a b : BitVec 5) (k : BitVec 4) (s : State) : Res :=
  atomic (wordOf (.amaxu d a b k)) .maxu s d a b k

/-- aswap (R410). -/
def execAswap (d a b : BitVec 5) (k : BitVec 4) (s : State) : Res :=
  atomic (wordOf (.aswap d a b k)) .swap s d a b k

/-- acas (R410). -/
def execAcas (d a b : BitVec 5) (k : BitVec 4) (s : State) : Res :=
  atomic (wordOf (.acas d a b k)) .cas s d a b k

/-- The peers that accesses of a list go to. -/
def peersOf (l : List Access) : List Nat :=
  (l.filterMap (fun a => match a.tgt with
    | .peer q _ => some q
    | _ => none)).dedup

/-- Sends a domain fence to each peer that an access before the fence goes to (R21, R218): the numbers of the
fence requests. -/
def State.fencePeers (s : State) (src : Src) (mask : Nat) (before : List Access) : List Nat × State :=
  let (nps, s) := State.number (peersOf before) s
  let as : List Access := nps.map (fun e =>
    { id := e.1, grp := e.1, src := src, cls := 16, kind := .fence mask, tgt := .peer e.2 0,
      after := before.map (·.id) })
  (nps.map (·.1), s.sendAccesses as)

/-- The fence of a party: the accesses of the mask that stand before it (R218). -/
def State.fenceOf (s : State) (src : Src) (first mask : Nat) (domain : Bool) : (Nat × List Nat) × State :=
  let before := s.inflight.filter (fun a => a.src = src && decide (first ≤ a.id) && mask.testBit a.cls)
  let (ids, s) := if domain then s.fencePeers src mask before else ([], s)
  ((mask, before.map (·.id) ++ ids), s)

/-- fence (R413, R218). -/
def execFence (sc : BitVec 5) (m : BitVec 16) (s : State) : Res :=
  onEither s [] []
    (fun t f =>
      let src := Src.firing f.job f.aid
      if m = 0 then .next (s.stepFiring t f f.regs)
      else if 3 ≤ sc.toNat ∧ (s.own f).any Access.writes then .next s
      else
        let (e, s) := s.fenceOf src f.first m.toNat (decide (sc = 4))
        .next (s.stepFiring t { f with fenced := f.fenced ++ [e],
                                       cbuf := f.cbuf ++ [CItem.fence m.toNat (decide (sc = 4))] } f.regs))
    (fun p c r =>
      let src := c.src p
      if m = 0 then .next (s.stepEngine p r)
      else if 3 ≤ sc.toNat ∧ s.inflight.any (fun a => a.src = src && a.writes) then .next s
      else
        let (e, s) := s.fenceOf src 0 m.toNat (decide (sc = 4))
        .next ((s.setCopy p { c with fenced := c.fenced ++ [e] }).stepEngine p r))

end Sys2Proof.Machine
end

