-- ==== Sys2Proof/Machine/Route.lean ====
section
/-! DEFINITION. The routes of channels over the fabric (R11 to R13, R328), the fabric switch words of their routers (R319), and the physical
endpoints of a tile (R147). -/

namespace Sys2Proof.Machine

/-! Blocks (R11, R13): compute tile 64 · y + x, or 4096 + n for port tile n. -/

/-- The compute tile that a port tile sits next to (R13). -/
def edgeTile (p : Nat) : Nat :=
  let pos := p % 64
  match p / 64 with
  | 0 => pos
  | 1 => 64 * pos + 63
  | 2 => 64 * 63 + pos
  | _ => 64 * pos

/-- OUT toward the port tiles of a side: bit 4 north, 3 east, 2 south, 1 west, 0 local (R13, R319). -/
def sideOut (side : Nat) : Nat := 2 ^ (4 - side)

/-- The way from one compute tile to another, along x and then along y: each router with its OUT (R328). -/
def meshHops (a b : Nat) : List (Nat × Nat) :=
  let ax := a % 64
  let ay := a / 64
  let bx := b % 64
  let by' := b / 64
  (if ax ≤ bx then (List.range (bx - ax)).map (fun i => (64 * ay + ax + i, sideOut 1))
   else (List.range (ax - bx)).map (fun i => (64 * ay + ax - i, sideOut 3))) ++
  (if ay ≤ by' then (List.range (by' - ay)).map (fun i => (64 * (ay + i) + bx, sideOut 2))
   else (List.range (ay - by')).map (fun i => (64 * (ay - i) + bx, sideOut 0)))

/-- The way from one block to another, with the router that gives the flit to its own tile last. -/
def hops (a b : Nat) : List (Nat × Nat) :=
  if a = b then [(b, 1)] else
  let tile := fun c => if c < 4096 then c else edgeTile (c - 4096)
  (if a < 4096 then [] else [(a, sideOut (((a - 4096) / 64 + 2) % 4))]) ++ meshHops (tile a) (tile b) ++
    (if b < 4096 then [] else [(tile b, sideOut ((b - 4096) / 64))]) ++ [(b, 1)]

/-! The ends of channels. -/

/-- The block that a channel begins at. -/
def Graph.srcBlock (g : Graph) (c : Chan) : Nat :=
  match c.src with
  | .actor aid _ => (g.actor aid).tile
  | .node aid _ _ => (g.actor aid).tile
  | .stream n => portBlock (g.stream n).port

/-- The block that a channel ends at: for a bound one, the engine of the template that names it (R202). -/
def Graph.dstBlock (g : Graph) (k : Nat) (c : Chan) : Nat :=
  match c.dst with
  | .actor aid _ => (g.actor aid).tile
  | .node aid _ _ => (g.actor aid).tile
  | .stream n => portBlock (((g.templates.find? (fun t => t.declCh = some k)).map (·.port)).getD (g.stream n).port)

/-- EP of the router where a channel ends: the physical inbound endpoint of its actor (R147, R319), or the number of a repeat node's input
(R438); 0 at a port tile. DEDUCED, notes/assumptions/52.md -/
def Graph.physEp (g : Graph) (c : Chan) : Nat :=
  match c.dst with
  | .actor aid ep => Tab.get 0 (g.actor aid).physIn ep
  | .node _ n count => n + 2 * count.toNat
  | .stream _ => 0

/-- The fabric switch words of a channel on the tiles that its graph has: each with its router and the channel (R319). -/
def Graph.switchWords (g : Graph) (k : Nat) (c : Chan) : List (Nat × Nat × BitVec 16) :=
  (hops (g.srcBlock c) (g.dstBlock k c)).map (fun h =>
    (h.1, k, BitVec.ofNat 16 (2 ^ 11 * h.2 + 2 ^ 10 * c.back.toNat + (if h.2 = 1 then g.physEp c % 64 else 0))))

/-- A graph with its fabric switch words rewritten for its tiles (R132 step 4, R319). DEDUCED, notes/assumptions/52.md -/
def Graph.rewire (g : Graph) : Graph := { g with fabric := g.chans.flatMap (fun e => g.switchWords e.1 e.2) }

/-! Physical endpoints (R147). -/

/-- The lowest free numbers for some endpoints, one after another. -/
def mapFree (taken : List Nat) : List Nat → Tab Nat
  | [] => []
  | e :: l =>
    let n := ((List.range 64).find? (fun i => !taken.contains i)).getD 0
    Tab.set (mapFree (n :: taken) l) e n

/-- Maps the bound endpoints of a graph's actors onto the free physical endpoints of their tiles, in ascending aid and endpoint; `held` are
those that other actors of a tile have, inbound and outbound. The spec names no order. DESIGN CHOICE, notes/assumptions/52.md -/
def Graph.mapEnds (held : Nat → List Nat × List Nat) (g : Graph) : Graph :=
  g.actors.foldl (fun g e =>
    let mates := (g.actors.filter (fun x => x.1 < e.1 && x.2.tile = e.2.tile)).map (·.2)
    let (i, o) := held e.2.tile
    g.setActor e.1 { e.2 with
      physIn := mapFree (i ++ mates.flatMap (fun a => a.physIn.map (·.2))) (e.2.ins.map (·.1)),
      physOut := mapFree (o ++ mates.flatMap (fun a => a.physOut.map (·.2))) (e.2.outs.map (·.1)) }) g

end Sys2Proof.Machine
end

