-- ==== Sys2Proof/Machine/Kick.lean ====
section
/-! DEFINITION. The range scoreboard (R193, R195), kicks as they take
effect (R200 to R205), and launches as they enter the pool (R105, R106, R282, R422). -/

namespace Sys2Proof.Machine

/-! Kick records (R198, R200). -/

/-- The transfer identity of a copy (R200). -/
def cxidOf (p tmpl aid : Nat) (kr : V512) : W64 :=
  BitVec.ofNat 64 (inFld p 63 56 + inFld tmpl 55 48 + inFld aid 47 32 + krTag kr)

/-! The range scoreboard (R193). -/

/-- The coordinates of dimension `d` that one side of a copy may touch, or none: the bounded side leaves out what its
bounds leave out (R199). -/
def touched (t : Template) (kr : V512) (src : Bool) (d : Nat) : Option (Int × Int) :=
  let n : Int := krCount kr d
  let (lo, hi) :=
    if t.bside = !src then
      let (l, h) := t.bounds d
      (max (krOrigin kr d) l, min (krOrigin kr d + n) h - 1)
    else (0, n - 1)
  if n = 0 || hi < lo then none else some (lo, hi)

/-- The span of bytes that one side of a copy may touch, in the issuer's allocation; a side that touches no byte has
none. DEDUCED, notes/assumptions/29.md -/
def copySpan (t : Template) (kr : V512) (src : Bool) : Option (Nat × Nat) :=
  let rs := (List.range 4).map (fun d => (t.stride d src, touched t kr src d))
  if rs.any (fun r => r.2.isNone) then none else
  let ends := rs.map (fun r =>
    let (l, h) := r.2.getD (0, 0)
    (min (r.1 * l) (r.1 * h), max (r.1 * l) (r.1 * h)))
  let lo : Int := t.base src + (ends.map (·.1)).foldl (· + ·) 0
  let hi : Int := t.base src + (ends.map (·.2)).foldl (· + ·) 0 + t.esize - 1
  if hi < 0 then none else some (lo.toNat, hi.toNat)

/-- The entries that a copy makes (R193): a broadcast makes one into the tile store of each subscriber (R166). -/
def sbEntries (t : Template) (kr : V512) (aid uid : Nat) (subs : List Nat) : List SbEntry :=
  let one := fun (src : Bool) (kind who : Nat) =>
    if kind = 1 || kind = 2 then
      ((copySpan t kr src).map (fun x =>
        ({ aid := who, tstore := kind = 1, into := !src, lo := x.1, hi := x.2, uid := uid } : SbEntry))).toList
    else []
  one true t.skind aid ++ one false t.dkind aid ++ subs.flatMap (one false 1)

/-- The scoreboard entries in use on a tile (R195), none of them those of a saved graph. -/
def State.sbUsed (s : State) (t : Nat) : Nat :=
  (((s.graphs.filter (fun e => e.2.phase ≠ .saved)).map (fun e => (e.2.sb.filter (fun x => (e.2.actor x.aid).tile = t)).length))).foldl (· + ·) 0

/-- Whether the scoreboards of the tiles concerned have room for some entries (R195). -/
def State.sbRoom (s : State) (g : Graph) (es : List SbEntry) : Bool :=
  es.all (fun e =>
    let t := (g.actor e.aid).tile
    decide (s.sbUsed t + (es.filter (fun x => (g.actor x.aid).tile = t)).length ≤ 32))

/-! Kicks. -/

/-- Puts a kick into the queue of an engine; while the 16 places are taken it waits in the fabric (R201). -/
def Engine.push (e : Engine) (k : Kick) : Engine :=
  if e.kicks.length < 16 && e.late = [] then { e with kicks := e.kicks ++ [k] } else { e with late := e.late ++ [k] }

/-- A kick as it takes effect, for the template that its record names or for a bound one (R198, R201, R202, R405);
none while the scoreboard has no room for its entries (R195). A copy of no elements completes at once (R199). A record that is bad, carries dross or names an empty
template completes at once. DEDUCED, notes/assumptions/28.md -/
def State.kick (s : State) (j aid p : Nat) (bound : Option Nat) (kr : V512) (dross : Bool) : Option State :=
  let n := bound.getD (krTemplate kr)
  let (uid, s) := s.newId
  let a := s.actor j aid
  let c : Completion := { uid := uid, cxid := cxidOf p n aid kr, handler := 0, bound := bound.isSome }
  let atOnce := fun (h : Nat) =>
    let s := s.setActor j aid { a with comps := a.comps ++ [{ c with handler := h, cxst := 3, released := true }] }
    if dross then s else s.postCopyCause j aid 145 (BitVec.ofNat 64 (krTag kr))
  match (s.graph j).template? p n with
  | none => some (atOnce 0)
  | some t =>
    if dross || krBad kr then some (atOnce t.handler)
    else if (List.range 4).any (fun d => krCount kr d = 0) then
      some (s.setActor j aid { a with comps := a.comps ++ [{ c with handler := t.handler, released := true }] })
    else
      let g := s.graph j
      let subs := (g.actors.filter (fun e => t.dkind = 3 && e.2.subs.contains t.btag)).map (·.1)
      let es := sbEntries t kr aid uid subs
      if !s.sbRoom g es then none else
      let g := { g.setActor aid { a with comps := a.comps ++ [{ c with handler := t.handler }] } with sb := g.sb ++ es }
      let s := s.setGraph j g
      some (s.setEngine p ((s.port p).eng.push { job := j, aid := aid, kr := kr, tmpl := n, uid := uid, subs := subs }))

/-- A record into a named queue (R203); none while its 16 places are taken. -/
def State.pushNamed (s : State) (p q : Nat) (kr : V512) (dross : Bool) : Option State :=
  let e := (s.port p).eng
  let l := Tab.get [] e.named q
  if 16 ≤ l.length then none else some (s.setEngine p { e with named := Tab.set e.named q (l ++ [(kr, dross)]) })

/-- Binds or unbinds a template (R404): a bind unbinds whichever template of its channel or queue was bound. -/
def Graph.bind (g : Graph) (p n : Nat) (on : Bool) : Graph :=
  if !on then g.modTemplate p n (fun t => { t with bound := false }) else
  match g.template? p n with
  | none => g
  | some t =>
    let g := { g with templates := g.templates.map (fun x => if t.shares x then { x with bound := false } else x) }
    g.modTemplate p n (fun x => { x with bound := true })

/-- One effect of commit step 6 (R404, R405, R203); none while it must wait. -/
def State.effect (s : State) (j aid : Nat) : Eff6 → Option State
  | .arm p n on => some (s.setGraph j ((s.graph j).modTemplate p n (fun t => { t with armed := on })))
  | .bind p n on => some (s.setGraph j ((s.graph j).bind p n on))
  | .kick p kr x => s.kick j aid p none kr x
  | .kickReg _ p q kr x =>
    if s.portSecure p ≠ s.jobSecure j then
      some (s.abortGraph j stWorld
        { code := 338, tval := BitVec.ofNat 64 (0x18000740000 + 256 * p + 64 * q), aid := aid, wr := true })
    else s.pushNamed p q kr x

/-! Launches. -/

/-- A committed launch: its job, pending in the pool (R106, R282, R422). -/
def State.spawn (s : State) (j aid : Nat) (l : Launch) : State :=
  let b := s.job j
  let k := grit b.jr.key b.jr.instId (BitVec.ofNat 32 aid) l.spawn
  let key : List W32 := (List.range 4).map (fun i => k.extractLsb' (32 * i) 32)
  let (id, s) := s.newId
  let jr : JobRec := { instId := b.jr.instId, pweight := b.jr.pweight, prio := b.jr.prio, image := l.image, args := l.args,
                       argLen := l.argLen, key := key, sigAddr := l.sigAddr, sigVal := l.sigVal, sigOp := l.sigOp,
                       jobTag := l.jobTag }
  let child : Job := { queue := b.queue, index := b.index, parent := some j, depth := b.depth + 1, jr := jr, eff := b.eff }
  let s := s.setJob id child
  { s with kiln := { s.kiln with depthHwm := max s.kiln.depthHwm (b.depth + 1) } }

end Sys2Proof.Machine
end

