-- ==== Sys2Proof/Machine/Move.lean ====
section
/-! DEFINITION. Plots, fallow tiles and steps (R96, R97, R119 to R122), rounds with their rotation and rebalance
choices (R128 to R130), and the start of a move (R131, R132). -/

namespace Sys2Proof.Machine

/-! What tiles and plots hold. -/

/-- The compute tiles of a plot, in ascending tile index (R96). -/
def plotTiles (p : Nat) : List Nat :=
  (List.range 16).map (fun i => 64 * (4 * (p / 16) + i / 4) + 4 * (p % 16) + i % 4)

/-- The actors on a tile: job, aid and actor (R174). -/
def State.residents (s : State) (t : Nat) : List (Nat × Nat × Actor) :=
  s.graphs.flatMap (fun g => if g.2.phase = .saved then [] else
    (g.2.actors.filter (fun a => a.2.tile = t)).map (fun a => (g.1, a.1, a.2)))

/-- The jobs that hold a plot. -/
def State.holders (s : State) (p : Nat) : List Nat :=
  (s.graphs.filter (fun g => g.2.phase ≠ .saved && g.2.used.contains p)).map (·.1)

/-- Whether a tile is the source or the target of a move. -/
def State.inMove (s : State) (t : Nat) : Bool :=
  (s.tile t).move.isSome || s.tiles.any (fun e => e.2.move.any (fun m => m.dst = t))

/-- Whether the state of a tile's actors has left it in a move that is not finished (R132): their traffic is held. -/
def State.midMove (s : State) (t : Nat) : Bool :=
  (s.tile t).move.any (fun m => 4 ≤ m.step) ||
    s.tiles.any (fun e => e.2.move.any (fun m => m.dst = t && m.swap && 4 ≤ m.step))

/-- Whether a tile is fallow: in a held plot, not spent, and with no actor (R97, R131, R300). -/
def State.isFallow (s : State) (t : Nat) : Bool :=
  s.holders (plotOf t) ≠ [] && !(s.block t).spent && !(s.block t).assaying && s.residents t = []

/-- The first of some tiles that is best under an order. -/
def bestOf (better : Nat → Nat → Bool) : List Nat → Option Nat
  | [] => none
  | t :: l => some (l.foldl (fun b x => if better x b then x else b) t)

/-- The coolest fallow tile of a plot, the lowest number among equals (R129, R301). -/
def State.coolest (s : State) (p : Nat) : Option Nat :=
  bestOf (fun x b => (s.block x).temp < (s.block b).temp) ((plotTiles p).filter s.isFallow)

/-! Steps (R120 to R122). -/

/-- FCEIL of a compute tile (R120, R141). -/
def State.fceil (s : State) (t : Nat) : Nat := Config.fceil t - (s.block t).ceilLoss

/-- The lease remainder of a job's tree, in µJ (R136). -/
def State.leaseOf (s : State) (j : Nat) : Nat := (s.job (s.root j)).lease

/-- The allowed step of a tile (R121). -/
def State.allowedStep (s : State) (t : Nat) : Nat :=
  let rs := s.residents t
  let base := min (s.fceil t) (s.block t).tstep
  let base := if rs.all (fun r => 0 < s.leaseOf r.1) then base else min base 44
  rs.foldl (fun k r => min k (Tab.get {} (s.graph r.1).alloys r.2.2.alloy).limit) base

/-- The alloys with members on a tile. -/
def State.alloysOn (s : State) (t : Nat) : List (Nat × Nat) := ((s.residents t).map (fun r => (r.1, r.2.2.alloy))).dedup

/-- The tiles that hold members of an alloy. -/
def State.alloyTiles (s : State) (k : Nat × Nat) : List Nat :=
  (((s.graph k.1).actors.filter (fun a => a.2.alloy = k.2)).map (fun a => a.2.tile)).dedup

/-- The tiles of the alloys that are linked with those of some tiles (R122): each turn adds a tile, and there are 4096. -/
def State.linked (s : State) : Nat → List Nat → List Nat
  | 0, ts => ts
  | n + 1, ts =>
    let ts' := (ts ++ ((ts.flatMap s.alloysOn).dedup.flatMap s.alloyTiles)).dedup
    if ts'.length = ts.length then ts else State.linked s n ts'

/-- The common step of the tiles linked with a tile (R122). -/
def State.commonStep (s : State) (t : Nat) : Nat := ((s.linked 4096 [t]).map s.allowedStep).foldl min 68

/-! Rounds. -/

/-- A saturating counter of ANSTAT. -/
def bump (n : Nat) : Nat := satAdd 0xFFFF n 1

/-- Starts a move of a tile (R132 step 1). -/
def State.startMove (s : State) (t : Nat) (m : Move) : State := s.setTile t { s.tile t with move := some m }

/-- Whether a plot has a move in progress (R131). -/
def State.plotMoving (s : State) (p : Nat) : Bool := (plotTiles p).any s.inMove

/-- The rotation choice of an alloy (R129). -/
def State.rotate (s : State) (j k : Nat) : State :=
  let src := bestOf (fun x b => (s.block b).temp < (s.block x).temp || ((s.block b).temp = (s.block x).temp && x < b))
    (s.alloyTiles (j, k))
  match src with
  | none => s
  | some t =>
    let go := (s.coolest (plotOf t)).filter (fun d =>
      decide ((s.block d).temp + fld s.kiln.anctl 31 24 ≤ (s.block t).temp) && !s.plotMoving (plotOf t))
    match go with
    | some d => s.startMove t { dst := d }
    | none => { s with kiln := { s.kiln with rotSkip := bump s.kiln.rotSkip } }

/-- Whether a member is pressed (R130): every inbound channel that holds a token is at least RBHIGH/16 full. -/
def State.pressed (s : State) (j aid : Nat) : Bool :=
  let g := s.graph j
  (g.actor aid).inCh.all (fun e =>
    let c := g.chan e.2
    c.buf = [] || decide (fld s.kiln.anctl 15 12 * c.cap ≤ 16 * c.buf.length))

/-- The rebalance choice for a member's tile (R130). -/
def State.rebalance (s : State) (j k t : Nat) : State :=
  let skip := { s with kiln := { s.kiln with rbSkip := bump s.kiln.rbSkip } }
  let g := s.graph j
  let members := (Tab.get {} g.alloys k).members
  let region := (g.used.flatMap plotTiles).filter (fun x => x ≠ t && !(s.block x).spent && !(s.block x).assaying)
  let ok := fun x =>
    decide (s.fceil t + fld s.kiln.anctl 7 2 ≤ s.fceil x) &&
    (s.residents x).all (fun r => !(r.1 = j && members.contains r.2.1) && !s.pressed r.1 r.2.1)
  let target := bestOf (fun x b => s.fceil b < s.fceil x ||
    (s.fceil b = s.fceil x && s.isFallow x && !s.isFallow b) ||
    (s.fceil b = s.fceil x && s.isFallow x = s.isFallow b && x < b)) (region.filter ok)
  if s.fceil t ≠ s.commonStep t || s.plotMoving (plotOf t) then skip else
  match target.filter (fun x => !s.plotMoving (plotOf x)) with
  | none => skip
  | some d => s.startMove t { dst := d, swap := !s.isFallow d, rebal := true }

/-- The pressure counts of an alloy's members at a round, and the choices they lead to (R130). -/
def State.pressures (s : State) (j k : Nat) : State :=
  if !s.kiln.anctl.getLsbD 1 then s else
  (Tab.get {} (s.graph j).alloys k).members.foldl (fun s aid =>
    let a := s.actor j aid
    if !s.pressed j aid then s.setActor j aid { a with pressure := 0 }
    else if a.pressure + 1 < fld s.kiln.anctl 23 16 then s.setActor j aid { a with pressure := a.pressure + 1 }
    else (s.setActor j aid { a with pressure := 0 }).rebalance j k a.tile) s

/-- A round of an alloy (R128, R144): a rotation point comes before a rebalance choice (R131). -/
def State.round (s : State) (j k : Nat) : State :=
  let g := s.graph j
  let al := Tab.get {} g.alloys k
  let n := (al.rounds + 1) % 2 ^ 64
  let s := s.setGraph j { g with alloys := Tab.set g.alloys k { al with rounds := n, tthrot := fld s.kiln.anctl 39 32 } }
  let s := if g.rotn ≠ 0 && n ≠ 0 && n % g.rotn = 0 && s.kiln.anctl.getLsbD 0 then s.rotate j k else s
  s.pressures j k

end Sys2Proof.Machine
end

