-- ==== Sys2Proof/Machine/Chan.lean ====
section
/-! DEFINITION. The channel instructions (R354 to R359). -/

namespace Sys2Proof.Machine

/-- A channel instruction: in a completion or a fault firing RATE with tval 128, before any other check (R160,
R355). -/
def onChan (s : State) (ss vs : List (BitVec 5)) (k : Nat → Firing → Actor → Res) : Res :=
  onSeq s ss vs (fun t f =>
    match f.kind with
    | .ordinary => k t f (s.actor f.job f.aid)
    | _ => trapAt s t f 5 128)

/-- What a receiving instruction notes of the token it has read (R356). -/
def Firing.noted (f : Firing) (n : Nat) (t : Token) : Firing :=
  { f with lnull := Tab.put false f.lnull n t.null, ldross := Tab.put false f.ldross n (!t.null && t.dross) }

/-- The dross of a token as a register takes it: a null is clean (R162, R356). -/
def Token.drossed (t : Token) : Bool := !t.null && t.dross

/-- The data of a token as a register takes it: a null gives zero (R162, R356). -/
def Token.value (t : Token) (w : Nat) : Nat := if t.null then 0 else t.data.toNat % 2 ^ (8 * w)

/-- A token in a vector register: w lanes of data, the rest zero and clean (R356). -/
def Token.vreg (t : Token) (w : Nat) : VReg :=
  { val := BitVec.ofNat 512 (t.value w), dross := if t.drossed then BitVec.ofNat 64 (2 ^ w - 1) else 0 }

/-- Receiving into a scalar register (R356): k is the index of the token, from the read index or a register. -/
def receive (w : W64) (s : State) (d : BitVec 5) (n : BitVec 6) (index : Option (BitVec 5)) : Res :=
  onChan s index.toList [] (fun t f a =>
    match a.cRate n.toNat with
    | none => trapAt s t f 3 w
    | some c =>
      let width := (s.graph f.job).wIn a n.toNat
      let k := match index with
        | some r => (f.regs.val r).toNat
        | none => Tab.get 0 f.ridx n.toNat
      if 8 < width then trapAt s t f 3 w
      else if index.toList.any f.regs.drossS then trapAt s t f 7 w
      else if c ≤ k then trapAt s t f 5 (n.zeroExtend 64)
      else
        let tok := (s.graph f.job).token a n.toNat k
        let f := f.noted n.toNat tok
        let f := if index.isNone then { f with ridx := Tab.put 0 f.ridx n.toNat (k + 1) } else f
        .next (s.stepFiring t f (f.regs.wr d (BitVec.ofNat 64 (tok.value width)) tok.drossed)))

/-- Receiving into a vector register (R356). -/
def receiveV (w : W64) (s : State) (d : BitVec 5) (n : BitVec 6) (index : Option (BitVec 5)) : Res :=
  onChan s index.toList [] (fun t f a =>
    match a.cRate n.toNat with
    | none => trapAt s t f 3 w
    | some c =>
      let width := (s.graph f.job).wIn a n.toNat
      let k := match index with
        | some r => (f.regs.val r).toNat
        | none => Tab.get 0 f.ridx n.toNat
      if index.toList.any f.regs.drossS then trapAt s t f 7 w
      else if c ≤ k then trapAt s t f 5 (n.zeroExtend 64)
      else
        let tok := (s.graph f.job).token a n.toNat k
        let f := f.noted n.toNat tok
        let f := if index.isNone then { f with ridx := Tab.put 0 f.ridx n.toNat (k + 1) } else f
        let v := tok.vreg width
        .next (s.stepFiring t f (f.regs.wrV d v.val v.dross)))

/-- Puts tokens into the outbound buffer, with the accesses before them that their release covers (R213, R357). -/
def State.sendTokens (s : State) (t : Nat) (f : Firing) (n : BitVec 6) (mask : Nat) (toks : List Token) : State :=
  let ids := ((s.own f).filter (fun a => mask.testBit a.cls)).map (·.id)
  let outs : List OutTok := toks.map (fun x => { ep := n.toNat, tok := x, mask := mask, ids := ids })
  s.stepFiring t { f with out := f.out ++ outs, sent := Tab.put 0 f.sent n.toNat (Tab.get 0 f.sent n.toNat + toks.length) }
    f.regs

/-- Sending one token (R357): `scalar` forbids a token wider than 8 bytes, `mask` names the mask register. -/
def transmit (w : W64) (s : State) (n : BitVec 6) (ss vs : List (BitVec 5)) (scalar : Bool) (mask : Option (BitVec 5))
    (tok : Regs → Nat → Token) : Res :=
  onChan s (ss ++ mask.toList) vs (fun t f a =>
    match a.pRate n.toNat with
    | none => trapAt s t f 3 w
    | some p =>
      let width := (s.graph f.job).wOut a n.toNat
      if scalar && decide (8 < width) then trapAt s t f 3 w
      else if mask.toList.any f.regs.drossS then trapAt s t f 7 w
      else if p < Tab.get 0 f.sent n.toNat + 1 then trapAt s t f 5 (BitVec.ofNat 64 (64 + n.toNat))
      else
        let m := match mask with
          | some r => fld (f.regs.val r) 15 0
          | none => 0xFFFF
        .next (s.sendTokens t f n m [tok f.regs width]))

/-- A token from a scalar register. -/
def scalarToken (a : BitVec 5) (r : Regs) (w : Nat) : Token := tokenOf w (r.val a).toNat (r.drossS a)

/-- A token from the low lanes of a vector register; its dross is that of any of those lanes (R357). -/
def vectorToken (a : BitVec 5) (r : Regs) (w : Nat) : Token :=
  tokenOf w (r.rdV a).val.toNat (decide ((r.rdV a).dross.toNat % 2 ^ w ≠ 0))

/-- recv (R356). -/
def execRecv (d : BitVec 5) (n : BitVec 6) (s : State) : Res := receive (wordOf (.recv d n)) s d n none

/-- recvv (R356). -/
def execRecvv (d : BitVec 5) (n : BitVec 6) (s : State) : Res := receiveV (wordOf (.recvv d n)) s d n none

/-- peek (R356). -/
def execPeek (d a : BitVec 5) (n : BitVec 6) (s : State) : Res := receive (wordOf (.peek d a n)) s d n (some a)

/-- peekv (R356). -/
def execPeekv (d a : BitVec 5) (n : BitVec 6) (s : State) : Res := receiveV (wordOf (.peekv d a n)) s d n (some a)

/-- send (R357). -/
def execSend (a : BitVec 5) (n : BitVec 6) (s : State) : Res :=
  transmit (wordOf (.send a n)) s n [a] [] true none (scalarToken a)

/-- sendv (R357). -/
def execSendv (a : BitVec 5) (n : BitVec 6) (s : State) : Res :=
  transmit (wordOf (.sendv a n)) s n [] [a] false none (vectorToken a)

/-- sendm (R357). -/
def execSendm (d a : BitVec 5) (n : BitVec 6) (s : State) : Res :=
  transmit (wordOf (.sendm d a n)) s n [a] [] true (some d) (scalarToken a)

/-- sendmv (R357). -/
def execSendmv (d a : BitVec 5) (n : BitVec 6) (s : State) : Res :=
  transmit (wordOf (.sendmv d a n)) s n [] [a] false (some d) (vectorToken a)

/-- sendn (R357): a count register with dross raises DROSSUSE; s0 sends one null. -/
def execSendn (a : BitVec 5) (n : BitVec 6) (s : State) : Res :=
  onChan s [a] [] (fun t f x =>
    match x.pRate n.toNat with
    | none => trapAt s t f 3 (wordOf (.sendn a n))
    | some p =>
      let k := if a = 0 then 1 else (f.regs.val a).toNat
      if f.regs.drossS a then trapAt s t f 7 (wordOf (.sendn a n))
      else if p < Tab.get 0 f.sent n.toNat + k then trapAt s t f 5 (BitVec.ofNat 64 (64 + n.toNat))
      else .next (s.sendTokens t f n 0xFFFF (List.replicate k { null := true })))

/-- chcnt (R358). -/
def execChcnt (d : BitVec 5) (n : BitVec 6) (s : State) : Res :=
  onChan s [] [] (fun t f a =>
    match a.cRate n.toNat with
    | none => trapAt s t f 3 (wordOf (.chcnt d n))
    | some c =>
      let word := inFld (if Tab.get false f.ldross n.toNat then 1 else 0) 17 17
        + inFld (if Tab.get false f.lnull n.toNat then 1 else 0) 16 16
        + inFld (Tab.get 0 f.ridx n.toNat) 15 8 + inFld c 7 0
      .next (s.stepFiring t f (f.regs.wr d (BitVec.ofNat 64 word) false)))

/-- chfree (R358). -/
def execChfree (d : BitVec 5) (n : BitVec 6) (s : State) : Res :=
  onChan s [] [] (fun t f a =>
    match a.pRate n.toNat with
    | none => trapAt s t f 3 (wordOf (.chfree d n))
    | some p =>
      let word := inFld (Tab.get 0 f.sent n.toNat) 15 8 + inFld p 7 0
      .next (s.stepFiring t f (f.regs.wr d (BitVec.ofNat 64 word) false)))

end Sys2Proof.Machine
end

