-- ==== Sys2Proof/Machine/Lane.lean ====
section
/-! DEFINITION. The common effect of lane-array instructions (R360 to R366): modes, enables, classes, draws and the
writing of values and predicates. -/

namespace Sys2Proof.Machine

/-- A lane-array instruction: ILLOPND while the array is drained (R418) or in another mode (R362). -/
def onLane (w : W64) (s : State) (ss vs : List (BitVec 5)) (mode : LaneSet → Bool) (k : Nat → Firing → Res) : Res :=
  onSeq s ss vs (fun t f => if f.drained || !mode f.lane then trapAt s t f 3 w else k t f)

/-- Any mode (R362). -/
def anyMode (_ : LaneSet) : Bool := true

/-- The values that an instruction acts on (R361). -/
def Firing.onVals (f : Firing) (p : Option (BitVec 3)) : List Nat :=
  (List.range f.lane.n).filter (valueOn f.lane f.regs p)

/-- Whether every enabled value has a MAIN of a class (R363). -/
def Firing.classOk (f : Firing) (p : Option (BitVec 3)) (cls : Nat → Bool) : Bool :=
  (f.onVals p).all (fun i => cls (f.lane.main (elemOf f.lane.w i)))

/-- Every format. -/
def anyFmt (_ : Nat) : Bool := true

/-- Whether an instruction that writes in the given elements draws (R365, R280), whether or not the values that they hold
are enabled. -/
def LaneSet.drawsIn (l : LaneSet) (els : List Nat) : Bool := els.any (fun e => l.rnd e = 4)

/-- The elements whose target format is no integer: a conversion to an integer draws nothing (R265).
DEDUCED, notes/assumptions/17.md -/
def roundsInto (fmt : Nat → Nat) (els : List Nat) : List Nat := els.filter (fun e => (ifmt (fmt e)).isNone)

/-- Whether value i lies in a lane of element 15 while that element is in MODE 3, and so counts as disabled (R362). -/
def LaneSet.joins (l : LaneSet) (i : Nat) : Bool := decide (60 ≤ l.w * i) && decide (l.mode 15 = 3)

/-- The half-words of an instruction and the firing past them (R365): all zero where it does not draw. -/
def State.halfWords (s : State) (f : Firing) (draws : Bool) (n : Nat) : (Nat → Nat) × Firing :=
  if draws then (fun i => (s.draws f n).getD i 0, f.drew n) else (fun _ => 0, f)

/-- The parameters that the element of a value gives to an operation (R361, R364). -/
structure Elt where
  fmt : Nat
  rnd : Nat
  sat : Bool
  h : Nat
  w : Nat

/-- The parameters of value i. -/
def LaneSet.elt (l : LaneSet) (i h : Nat) : Elt :=
  let e := elemOf l.w i
  { fmt := l.main e, rnd := l.rnd e, sat := l.sat e, h := h, w := l.w }

/-- The dross of value i among source registers (R364). -/
def Firing.srcDross (f : Firing) (vs : List (BitVec 5)) (i : Nat) : Bool :=
  vs.any (fun v => vDross (f.regs.rdV v).dross f.lane.w i)

/-- The patterns of value i of the source registers. -/
def Firing.srcVals (f : Firing) (vs : List (BitVec 5)) (i : Nat) : List Nat :=
  vs.map (fun v => vGet (f.regs.rdV v).val f.lane.w i)

/-- The elements of the lane array. -/
def allElts : List Nat := List.range 16

/-- An instruction that computes each enabled value on its own and writes it into v[d] (R364). -/
def laneV (w : W64) (s : State) (d : BitVec 5) (vs : List (BitVec 5)) (p : Option (BitVec 3)) (cls : Nat → Bool)
    (draws : Bool) (op : Elt → List Nat → Conv) : Res :=
  onLane w s [] (d :: vs) LaneSet.simd (fun t f =>
    if !f.classOk p cls then trapAt s t f 3 w
    else
      let (h, g) := s.halfWords f (draws && f.lane.drawsIn allElts) f.lane.n
      let res := (List.range f.lane.n).map (fun i =>
        if valueOn f.lane f.regs p i then
          let c := op (f.lane.elt i (h i)) (f.srcVals vs i)
          some (c, f.srcDross vs i || c.arises)
        else none)
      let fl := (res.filterMap id).foldl (fun a c => a ||| c.1.flags) 0
      let g := (g.flag fl).ariseAt 1 1 (res.map (fun o => match o with
        | some c => c.1.arises
        | none => false))
      let v := vBuild f.lane.w (f.regs.rdV d) (res.map (Option.map (fun c => (c.1.code, c.2))))
      .next (s.stepFiring t g (f.regs.wrV d v.val v.dross)))

/-- An instruction that compares each enabled value and writes a predicate: a value with dross raises DROSSUSE
(R364). -/
def laneP (w : W64) (s : State) (d : BitVec 5) (vs : List (BitVec 5)) (p : Option (BitVec 3)) (cls : Nat → Bool)
    (op : Elt → List Nat → Bool) : Res :=
  onLane w s [] vs LaneSet.simd (fun t f =>
    if !f.classOk p cls then trapAt s t f 3 w
    else if (f.onVals p).any (f.srcDross vs) then trapAt s t f 7 w
    else
      let res := (List.range f.lane.n).map (fun i =>
        if valueOn f.lane f.regs p i then some (op (f.lane.elt i 0) (f.srcVals vs i)) else none)
      .next (s.stepFiring t f (f.regs.wrP d.toNat (pBuild f.lane.w (f.regs.rdP d.toNat) res))))

/-- An instruction that reduces the enabled values of v[a] into s[d] (R376). -/
def laneS (w : W64) (s : State) (d a : BitVec 5) (p : Option (BitVec 3)) (cls : Nat → Bool)
    (red : Nat → List Nat → W64) : Res :=
  onLane w s [] [a] LaneSet.simd (fun t f =>
    if !f.classOk p cls then trapAt s t f 3 w
    else
      let on := f.onVals p
      let r := red f.lane.w (on.map (vGet (f.regs.rdV a).val f.lane.w))
      .next (s.stepFiring t f (f.regs.wr d r (on.any (f.srcDross [a])))))

end Sys2Proof.Machine
end

