-- ==== Sys2Proof/Machine/Vcvt.lean ====
section
/-! DEFINITION. The group VCVT: conversions (R371, R372), microscaled blocks (R373) and SD8 groups (R374, R375). -/

namespace Sys2Proof.Machine

/-- Whether the ALT codes allow a plain or scaled conversion (R372). -/
def LaneSet.altOk (l : LaneSet) : Bool :=
  allElts.all (fun e => fmtBits (l.alt e) = fmtBits (l.alt 0) && !([8, 0xB, 0xC, 0xD].contains (l.alt e)) && l.alt e ≤ 0xD)

/-- The pairs of a source value and a slot of part q, in ascending source order, for widths in bits (R371). -/
def cvtPairs (sb db q : Nat) : Option (List (Nat × Nat)) :=
  let ns := 512 / sb
  let nd := 512 / db
  if sb ≤ db then
    if q < ns / nd then some ((List.range nd).map (fun j => (q * nd + j, j))) else none
  else if q < nd / ns then some ((List.range ns).map (fun i => (i, q * ns + i))) else none

/-- A field of a vector, for values of `b` bits. -/
def vField (v : V512) (b i : Nat) : Nat := bitsOf v.toNat (b * i + b - 1) (b * i)

/-- The dross of a value of `b` bits: any of its lanes. -/
def fieldDross (x : W64) (b i : Nat) : Bool :=
  if b < 8 then x.getLsbD (b * i / 8) else vDross x (b / 8) i

/-- A vector with some slots of `b` bits replaced; a lane of which one nibble is written keeps its old dross beside
the new (R371). -/
def slotBuild (b : Nat) (old : VReg) (new : List (Option (Nat × Bool))) : VReg :=
  if 8 ≤ b then vBuild (b / 8) old new else
  let v := BitVec.ofNat 512 ((new.zipIdx).foldl (fun a e =>
    a + (match e.1 with
      | some x => x.1 % 2 ^ b
      | none => vField old.val b e.2) <<< (b * e.2)) 0)
  let x := maskOf ((List.range 64).map (fun j =>
    match new.getD (2 * j) none, new.getD (2 * j + 1) none with
    | some lo, some hi => lo.2 || hi.2
    | some y, none => y.2 || old.dross.getLsbD j
    | none, some y => y.2 || old.dross.getLsbD j
    | none, none => old.dross.getLsbD j))
  { val := v, dross := x }

/-- Whether a conversion of the value in a source lane into a slot lane is enabled (R361, R362, R371). -/
def cvtOn (l : LaneSet) (r : Regs) (p : Option (BitVec 3)) (src slot : Nat) : Bool :=
  laneOn r p src && !((decide (60 ≤ src) || decide (60 ≤ slot)) && l.mode 15 = 3)

/-- The conversions of R372: `down` reads ALT and writes MAIN, `op` converts a pattern of one format to another. The
INDEX of an origin word is the source value. DEDUCED, notes/assumptions/62.md -/
def cvt (w : W64) (s : State) (t : Nat) (f : Firing) (d a : BitVec 5) (q : Nat) (p : Option (BitVec 3)) (down : Bool)
    (op : Nat → Nat → Nat → Bool → Nat → Nat → Conv) : Res :=
  let l := f.lane
  let mb := 8 * l.w
  let ab := fmtBits (l.alt 0)
  let sb := if down then ab else mb
  let db := if down then mb else ab
  match cvtPairs sb db q with
  | none => trapAt s t f 3 w
  | some pairs =>
    let elS := fun i => i * sb / 32
    let elD := fun j => j * db / 32
    let src := f.regs.rdV a
    let (h, g) := s.halfWords f (l.drawsIn (roundsInto (if down then l.main else l.alt) (pairs.map (fun x => elD x.2)))) pairs.length
    let res := (List.range (512 / db)).map (fun j =>
      match pairs.findIdx? (fun x => x.2 = j) with
      | none => none
      | some k =>
        let i := (pairs.getD k (0, 0)).1
        if cvtOn l f.regs p (i * sb / 8) (j * db / 8) then
          let sf := if down then l.alt (elS i) else l.main (elS i)
          let df := if down then l.main (elD j) else l.alt (elD j)
          let c := op sf df (l.rnd (elD j)) (l.sat (elD j)) (h k) (vField src.val sb i)
          some (c, fieldDross src.dross sb i || c.arises, i)
        else none)
    let done := res.filterMap id
    let fl := done.foldl (fun x c => x ||| c.1.flags) 0
    let g := (g.flag fl).ariseOf 1 1 ((done.filter (·.1.arises)).map (·.2.2))
    let v := slotBuild db (f.regs.rdV d) (res.map (Option.map (fun c => (c.1.code, c.2.1))))
    .next (s.stepFiring t g (f.regs.wrV d v.val v.dross))

/-- vcvta (R372). -/
def execVcvta (d a q : BitVec 5) (p : Option (BitVec 3)) (s : State) : Res :=
  let w := wordOf (.vcvta d a q p)
  onLane w s [] [d, a] LaneSet.simd (fun t f =>
    if !f.lane.altOk then trapAt s t f 3 w else cvt w s t f d a q.toNat p false convert)

/-- vcvtm (R372). -/
def execVcvtm (d a q : BitVec 5) (p : Option (BitVec 3)) (s : State) : Res :=
  let w := wordOf (.vcvtm d a q p)
  onLane w s [] [d, a] LaneSet.simd (fun t f =>
    if !f.lane.altOk then trapAt s t f 3 w else cvt w s t f d a q.toNat p true convert)

/-- vcvts (R372, R264): the scale and the part come from s[b]. DEDUCED, notes/assumptions/59.md -/
def execVcvts (d a b : BitVec 5) (p : Option (BitVec 3)) (s : State) : Res :=
  let w := wordOf (.vcvts d a b p)
  onLane w s [b] [d, a] LaneSet.simd (fun t f =>
    let x := f.regs.val b
    if f.regs.drossS b then trapAt s t f 7 w
    else if !f.lane.altOk || fld x 63 34 ≠ 0 || 8 * f.lane.w < fmtBits (f.lane.alt 0) then trapAt s t f 3 w
    else cvt w s t f d a (fld x 33 32) p false (fun sf df rnd sat h c =>
      scaledNarrow df rnd sat h (decodeFmt sf c) (fp32.decode (fld x 31 0))))

/-! Microscaled blocks (R373). -/

/-- Whether vmxe and vmxd take a block number and a register (R373). -/
def mxOk (l : LaneSet) (q : Nat) (r : BitVec 5) : Bool :=
  allElts.all (fun e => l.alt e = l.alt 0) && [0xB, 0xC, 0xD].contains (l.alt 0) &&
    (match l.w with
      | 4 => q = 0 && r.toNat ≤ 30
      | 2 => q = 0
      | _ => q ≤ 1)

/-- Value i of a register in its MAIN format: zero where it counts as disabled (R362). -/
def LaneSet.read (l : LaneSet) (i : Nat) (r : VReg) : XV :=
  if l.joins i then .fin false 0 0 else decodeFmt (l.main (elemOf l.w i)) (vGet r.val l.w i)

/-- The register and the value of it that stand at position k of a sequence of two registers. -/
def seqAt (l : LaneSet) (r : BitVec 5) (k : Nat) : BitVec 5 × Nat := (r + BitVec.ofNat 5 (k / l.n), k % l.n)

/-- vmxe (R373, R267). A value that counts as disabled is encoded as a clean zero, and in its lanes nothing is written (R362). DEDUCED,
notes/assumptions/17.md -/
def execVmxe (d a q : BitVec 5) (s : State) : Res :=
  let w := wordOf (.vmxe d a q)
  onLane w s [] [d, a, a + 1] LaneSet.simd (fun t f =>
    let l := f.lane
    if !mxOk l q.toNat a then trapAt s t f 3 w else
    let pos := (List.range 32).map (fun k => seqAt l a (32 * q.toNat + k))
    let elts := pos.map (fun x => elemOf l.w x.2)
    let (h, g) := s.halfWords f (l.drawsIn allElts) 32
    let vals := pos.map (fun x => l.read x.2 (f.regs.rdV x.1))
    let dross := pos.any (fun x => !l.joins x.2 && vDross (f.regs.rdV x.1).dross l.w x.2)
    let (scale, codes, nan) := mxEncode (l.alt 0) (fun k => l.rnd (elts.getD k 0)) h vals
    let fl := codes.foldl (fun x c => x ||| c.2) 0
    let eb := fmtBits (l.alt 0)
    let body := (codes.zipIdx).foldl (fun x e => x + (e.1.1 % 2 ^ eb) <<< (eb * e.2)) 0
    let blockVal : V512 := BitVec.ofNat 512 (body + scale <<< (32 * eb))
    let g := (g.flag fl).ariseOf 1 3 (((pos.zip vals).filter (fun x => x.2 = .nan)).map (·.1.2))
    let out := dross || nan
    let lanes := (List.range 64).map (fun j => if 60 ≤ j ∧ l.mode 15 = 3 then none
      else some ((laneOf blockVal j).toNat, out && decide (j ≤ 4 * eb)))
    let v := vBuild 1 (f.regs.rdV d) lanes
    .next (s.stepFiring t g (f.regs.wrV d v.val v.dross)))

/-- vmxd (R373, R253). -/
def execVmxd (d a q : BitVec 5) (s : State) : Res :=
  let w := wordOf (.vmxd d a q)
  onLane w s [] [d, d + 1, a] LaneSet.simd (fun t f =>
    let l := f.lane
    if !mxOk l q.toNat d then trapAt s t f 3 w else
    let src := f.regs.rdV a
    let eb := fmtBits (l.alt 0)
    let scale := (laneOf src.val (4 * eb)).toNat
    let pos := (List.range 32).map (fun k => seqAt l d (32 * q.toNat + k))
    let els := pos.map (fun x => elemOf l.w x.2)
    let (h, g) := s.halfWords f (l.drawsIn (roundsInto l.main els)) 32
    let res := (List.range 32).map (fun k =>
      let (v, isNan) := mxDecode (l.alt 0) scale (vField src.val eb k)
      let e := els.getD k 0
      let c := intoFmt (l.main e) (l.rnd e) (l.sat e) (h k) v
      let x := fieldDross src.dross eb k || src.dross.getLsbD (4 * eb) || isNan || c.arises
      (c, x, isNan))
    let on := (pos.zip res).filter (fun x => !l.joins x.1.2)
    let fl := on.foldl (fun x c => x ||| c.2.1.flags) 0
    let g := (g.flag fl).ariseOf 1 3 ((on.filter (·.2.2.2)).map (·.1.2))
    let put := fun (r : BitVec 5) =>
      vBuild l.w (f.regs.rdV r) ((List.range l.n).map (fun i =>
        if l.joins i then none else
        match pos.findIdx? (fun x => x.1 = r && x.2 = i) with
        | some k => (res[k]?).map (fun c => (c.1.code, c.2.1))
        | none => none))
    let v := put d
    let regs := f.regs.wrV d v.val v.dross
    let regs := if l.w = 4 then let v := put (d + 1); regs.wrV (d + 1) v.val v.dross else regs
    .next (s.stepFiring t g regs))

/-! SD8 groups (R374, R375). -/

/-- The exponent of a group. -/
def Regs.sdExp (r : Regs) (e : BitVec 5) : Int := sgn 8 (r.val e).toNat

/-- The digits of value j of a group, most significant first, and whether one is illegal (R254, R255). -/
def Regs.sdDigits (r : Regs) (g : BitVec 5) (j : Nat) : List Int × Bool :=
  let cs := (sdRegs g).map (fun v => sdDigit (laneOf (r.rdV v).val j).toNat)
  (cs.map (·.1), cs.any (·.2))

/-- The number of value j of a group: its digits as an integer, and its dross (R374). -/
def Regs.sdVal (r : Regs) (g e : BitVec 5) (j : Nat) : Int × Bool :=
  let (ds, bad) := r.sdDigits g j
  (sdNumber ds, bad || (sdRegs g).any (fun v => (r.rdV v).dross.getLsbD j) || r.drossS e)

/-- The values of a group at which an illegal code stands. -/
def Regs.sdIllegal (r : Regs) (g : BitVec 5) (js : List Nat) : List Bool := js.map (fun j => (r.sdDigits g j).2)

/-- Writes a group (R374): the digits of each value, its dross and the exponent. -/
def Regs.wrGroup (r : Regs) (g e : BitVec 5) (ex : Int) (vals : List (List Int × Bool)) : Regs :=
  let x := maskOf (vals.map (·.2))
  let r := (List.range 8).foldl (fun r k =>
    r.wrV (g + BitVec.ofNat 5 k) (vOf (vals.map (fun v => BitVec.ofNat 8 (sdCode (v.1.getD k 0))))) x) r
  r.wr e (BitVec.ofInt 64 ex) false

/-- Encodes 64 values into a group with the flags of R268. -/
def State.encodeGroup (s : State) (t : Nat) (f : Firing) (g e : BitVec 5) (unit : Nat) (vs : List XV) (dross : List Bool) : State :=
  let (ex, rs) := sdEncode vs
  let fl := rs.foldl (fun x r => x ||| r.flags) 0
  let f := (f.flag fl).ariseAt unit 1 (rs.map (·.arises))
  let vals := (rs.zipIdx).map (fun r => (sdDigits 8 r.1.num [], r.1.arises || dross.getD r.2 false))
  s.stepFiring t f (f.regs.wrGroup g e ex vals)

/-- vsde (R375, R268). A value that counts as disabled is encoded as a clean zero (R362). DEDUCED, notes/assumptions/17.md -/
def execVsde (d a : BitVec 5) (s : State) : Res :=
  let w := wordOf (.vsde d a)
  onLane w s [] (a :: sdRegs d) LaneSet.simd (fun t f =>
    match sdGroup d with
    | none => trapAt s t f 3 w
    | some (_, e) =>
      let l := f.lane
      let src := f.regs.rdV a
      let vs := (List.range 64).map (fun i => if i < l.n then l.read i src else .fin false 0 0)
      let xs := (List.range 64).map (fun i => decide (i < l.n) && !l.joins i && vDross src.dross l.w i)
      .next (s.encodeGroup t f d e 1 vs xs))

/-- vsdd (R375). -/
def execVsdd (d a : BitVec 5) (s : State) : Res :=
  let w := wordOf (.vsdd d a)
  onLane w s ((sdGroup a).map (·.2)).toList (d :: sdRegs a) LaneSet.simd (fun t f =>
    match sdGroup a with
    | none => trapAt s t f 3 w
    | some (_, e) =>
      let l := f.lane
      let (h, g) := s.halfWords f (l.drawsIn (roundsInto l.main allElts)) l.n
      let res := (List.range l.n).map (fun i =>
        let (n, x) := f.regs.sdVal a e i
        let m := l.elt i (h i)
        let c := intoFmt m.fmt m.rnd m.sat m.h (sdValue (f.regs.sdExp e) n)
        (c, x))
      let fl := (res.zipIdx).foldl (fun x c => if l.joins c.2 then x else x ||| c.1.1.flags) 0
      let g := (g.flag fl).ariseAt 1 2 ((f.regs.sdIllegal a (List.range l.n)).zipIdx.map (fun x => x.1 && !l.joins x.2))
      let v := vBuild l.w (f.regs.rdV d) ((res.zipIdx).map (fun r =>
        if l.joins r.2 then none else some (r.1.1.code, r.1.2)))
      .next (s.stepFiring t g (f.regs.wrV d v.val v.dross)))

end Sys2Proof.Machine
end

