-- ==== Sys2Proof/Machine/Vfp.lean ====
section
/-! DEFINITION. The group VFP: floating-point lane arithmetic (R369, R370). -/

namespace Sys2Proof.Machine

/-- The format of an element; the class check has left no other. -/
def Elt.ff (e : Elt) : FFmt := (ffmt e.fmt).getD fp32

/-- An exact result rounded once, with the flags of the exact operation (R369). -/
def Elt.out (e : Elt) (r : XV × BitVec 5) : Conv :=
  let c := e.ff.ofXV e.rnd e.sat e.h r.1
  { c with flags := c.flags ||| r.2 }

/-- A fused x · y + z of exact values: a NaN operand gives NaN and no flag (R251, R370). -/
def fusedX (mode : Nat) (neg : Bool) (x y z : XV) : XV × BitVec 5 :=
  if [x, y, z].any (· = .nan) then (.nan, 0) else
  let p := mulX x y
  if p.2 ≠ 0 then p else sumX mode [if neg then p.1.flip else p.1, z]

/-- A rounded result of values i of v[a], v[b] and v[d]. -/
def vfp3 (w : W64) (s : State) (d a b : BitVec 5) (p : Option (BitVec 3)) (op : Elt → XV → XV → XV → Conv) : Res :=
  laneV w s d [a, b, d] p isFloatFmt true (fun e l =>
    op e (e.ff.decode (l.getD 0 0)) (e.ff.decode (l.getD 1 0)) (e.ff.decode (l.getD 2 0)))

/-- A comparison of values, which raises no flag (R370). -/
def vfpP (w : W64) (s : State) (d a b : BitVec 5) (p : Option (BitVec 3)) (op : XV → XV → Bool) : Res :=
  laneP w s d [a, b] p isFloatFmt (fun e l => op (e.ff.decode (l.getD 0 0)) (e.ff.decode (l.getD 1 0)))

/-- A value with its sign bit set or cleared; a NaN becomes the canonical NaN (R370). -/
def FFmt.withSign (f : FFmt) (c : Nat) (neg : Bool) : Nat :=
  if f.decode c = .nan then f.nan.getD 0 else c % f.sign true + f.sign neg

/-- The operation of a FUNC code of VFP on the patterns of two values (R369, R370); a unary one ignores the second. -/
def vfpOp : Nat → Elt → Nat → Nat → Conv
  | 0x00, e, x, y => e.out (sumX e.rnd [e.ff.decode x, e.ff.decode y])
  | 0x01, e, x, y => e.out (sumX e.rnd [e.ff.decode x, (e.ff.decode y).flip])
  | 0x02, e, x, y => e.out (mulX (e.ff.decode x) (e.ff.decode y))
  | 0x03, e, x, y => e.ff.div e.rnd e.sat e.h (e.ff.decode x) (e.ff.decode y)
  | 0x07, e, x, _ => e.ff.sqrt e.rnd e.sat e.h (e.ff.decode x)
  | 0x08, e, x, y => { code := e.ff.minmax false x y }
  | 0x09, e, x, y => { code := e.ff.minmax true x y }
  | 0x0A, e, x, _ => { code := e.ff.withSign x false }
  | 0x0B, e, x, _ => { code := e.ff.withSign x (decide (x < e.ff.sign true)) }
  | _, _, x, _ => { code := x }

/-- vfadd (R369, R370). -/
def execVfadd (d a b : BitVec 5) (p : Option (BitVec 3)) (s : State) : Res :=
  laneV (wordOf (.vfadd d a b p)) s d [a, b] p isFloatFmt true (fun e l => vfpOp 0x00 e (l.getD 0 0) (l.getD 1 0))

/-- vfsub (R369, R370). -/
def execVfsub (d a b : BitVec 5) (p : Option (BitVec 3)) (s : State) : Res :=
  laneV (wordOf (.vfsub d a b p)) s d [a, b] p isFloatFmt true (fun e l => vfpOp 0x01 e (l.getD 0 0) (l.getD 1 0))

/-- vfmul (R369, R370). -/
def execVfmul (d a b : BitVec 5) (p : Option (BitVec 3)) (s : State) : Res :=
  laneV (wordOf (.vfmul d a b p)) s d [a, b] p isFloatFmt true (fun e l => vfpOp 0x02 e (l.getD 0 0) (l.getD 1 0))

/-- vfdiv (R369, R370). -/
def execVfdiv (d a b : BitVec 5) (p : Option (BitVec 3)) (s : State) : Res :=
  laneV (wordOf (.vfdiv d a b p)) s d [a, b] p isFloatFmt true (fun e l => vfpOp 0x03 e (l.getD 0 0) (l.getD 1 0))

/-- vfma (R369, R370). -/
def execVfma (d a b : BitVec 5) (p : Option (BitVec 3)) (s : State) : Res :=
  vfp3 (wordOf (.vfma d a b p)) s d a b p (fun e x y z => e.out (fusedX e.rnd false x y z))

/-- vfms (R369, R370). -/
def execVfms (d a b : BitVec 5) (p : Option (BitVec 3)) (s : State) : Res :=
  vfp3 (wordOf (.vfms d a b p)) s d a b p (fun e x y z => e.out (fusedX e.rnd false x y z.flip))

/-- vfnma (R369, R370). -/
def execVfnma (d a b : BitVec 5) (p : Option (BitVec 3)) (s : State) : Res :=
  vfp3 (wordOf (.vfnma d a b p)) s d a b p (fun e x y z => e.out (fusedX e.rnd true x y z))

/-- vfsqrt (R369, R370). -/
def execVfsqrt (d a : BitVec 5) (p : Option (BitVec 3)) (s : State) : Res :=
  laneV (wordOf (.vfsqrt d a p)) s d [a] p isFloatFmt true (fun e l => vfpOp 0x07 e (l.getD 0 0) (l.getD 1 0))

/-- vfmin (R370). -/
def execVfmin (d a b : BitVec 5) (p : Option (BitVec 3)) (s : State) : Res :=
  laneV (wordOf (.vfmin d a b p)) s d [a, b] p isFloatFmt false (fun e l => vfpOp 0x08 e (l.getD 0 0) (l.getD 1 0))

/-- vfmax (R370). -/
def execVfmax (d a b : BitVec 5) (p : Option (BitVec 3)) (s : State) : Res :=
  laneV (wordOf (.vfmax d a b p)) s d [a, b] p isFloatFmt false (fun e l => vfpOp 0x09 e (l.getD 0 0) (l.getD 1 0))

/-- vfabs (R370). -/
def execVfabs (d a : BitVec 5) (p : Option (BitVec 3)) (s : State) : Res :=
  laneV (wordOf (.vfabs d a p)) s d [a] p isFloatFmt false (fun e l => vfpOp 0x0A e (l.getD 0 0) (l.getD 1 0))

/-- vfneg (R370). -/
def execVfneg (d a : BitVec 5) (p : Option (BitVec 3)) (s : State) : Res :=
  laneV (wordOf (.vfneg d a p)) s d [a] p isFloatFmt false (fun e l => vfpOp 0x0B e (l.getD 0 0) (l.getD 1 0))

/-- vfceq (R370). -/
def execVfceq (d a b : BitVec 5) (p : Option (BitVec 3)) (s : State) : Res :=
  vfpP (wordOf (.vfceq d a b p)) s d a b p eqX

/-- vfclt (R370). -/
def execVfclt (d a b : BitVec 5) (p : Option (BitVec 3)) (s : State) : Res :=
  vfpP (wordOf (.vfclt d a b p)) s d a b p ltX

/-- vfcle (R370). -/
def execVfcle (d a b : BitVec 5) (p : Option (BitVec 3)) (s : State) : Res :=
  vfpP (wordOf (.vfcle d a b p)) s d a b p (fun x y => ltX x y || eqX x y)

/-- vfclass (R370). -/
def execVfclass (d a : BitVec 5) (p : Option (BitVec 3)) (s : State) : Res :=
  laneV (wordOf (.vfclass d a p)) s d [a] p isFloatFmt false (fun e l => { code := e.ff.classOf (l.getD 0 0) })

end Sys2Proof.Machine
end

