-- ==== Sys2Proof/Machine/Vint.lean ====
section
/-! DEFINITION. The group VINT: integer lane arithmetic (R367, R368). -/

namespace Sys2Proof.Machine

/-- fit of R367: wrapped, or clamped with overflow. -/
def fitV (e : Elt) (z : Int) : Conv :=
  let r := fitInt (8 * e.w) e.sat z
  { code := r.1, flags := r.2 }

/-- A pattern as a result. -/
def pat (e : Elt) (z : Int) : Conv := { code := wrapN (8 * e.w) z }

/-- The signed reading of a value. -/
def Elt.sg (e : Elt) (x : Nat) : Int := sgn (8 * e.w) x

/-- The operation of a FUNC code of VINT on the patterns of two values (R367); a unary one ignores the second. -/
def vintOp : Nat → Elt → Nat → Nat → Conv
  | 0x00, e, x, y => fitV e (e.sg x + e.sg y)
  | 0x01, e, x, y => fitV e (e.sg x - e.sg y)
  | 0x02, e, x, y => fitV e (e.sg x * e.sg y)
  | 0x03, e, x, y => pat e (e.sg x * e.sg y / 2 ^ (8 * e.w))
  | 0x04, e, x, y => pat e ((x : Int) * y / 2 ^ (8 * e.w))
  | 0x05, _, x, y => { code := x &&& y }
  | 0x06, _, x, y => { code := x ||| y }
  | 0x07, _, x, y => { code := x ^^^ y }
  | 0x08, _, x, y => { code := x - (x &&& y) }
  | 0x09, e, x, _ => { code := 2 ^ (8 * e.w) - 1 - x }
  | 0x0A, e, x, y => pat e ((x : Int) * 2 ^ (y % (8 * e.w)))
  | 0x0B, e, x, y => { code := x / 2 ^ (y % (8 * e.w)) }
  | 0x0C, e, x, y => pat e (e.sg x / 2 ^ (y % (8 * e.w)))
  | 0x0D, e, x, y => pat e (min (e.sg x) (e.sg y))
  | 0x0E, e, x, y => pat e (max (e.sg x) (e.sg y))
  | 0x0F, _, x, y => { code := min x y }
  | 0x10, _, x, y => { code := max x y }
  | 0x11, e, x, _ => fitV e (e.sg x).natAbs
  | 0x12, e, x, _ => fitV e (-(e.sg x))
  | _, _, x, _ => { code := x }

/-- A result of two values: op has the element and the patterns x and y. -/
def vint2 (w : W64) (s : State) (d a b : BitVec 5) (p : Option (BitVec 3)) (cls : Nat → Bool)
    (op : Elt → Nat → Nat → Conv) : Res :=
  laneV w s d [a, b] p cls false (fun e l => op e (l.getD 0 0) (l.getD 1 0))

/-- A result of one value. -/
def vint1 (w : W64) (s : State) (d a : BitVec 5) (p : Option (BitVec 3)) (cls : Nat → Bool)
    (op : Elt → Nat → Conv) : Res :=
  laneV w s d [a] p cls false (fun e l => op e (l.getD 0 0))

/-- A comparison of two values. -/
def vintP (w : W64) (s : State) (d a b : BitVec 5) (p : Option (BitVec 3)) (cls : Nat → Bool)
    (op : Elt → Nat → Nat → Bool) : Res :=
  laneP w s d [a, b] p cls (fun e l => op e (l.getD 0 0) (l.getD 1 0))

/-- vadd (R367). -/
def execVadd (d a b : BitVec 5) (p : Option (BitVec 3)) (s : State) : Res :=
  vint2 (wordOf (.vadd d a b p)) s d a b p isIntFmt (vintOp 0x00)

/-- vsub (R367). -/
def execVsub (d a b : BitVec 5) (p : Option (BitVec 3)) (s : State) : Res :=
  vint2 (wordOf (.vsub d a b p)) s d a b p isIntFmt (vintOp 0x01)

/-- vmul (R367). -/
def execVmul (d a b : BitVec 5) (p : Option (BitVec 3)) (s : State) : Res :=
  vint2 (wordOf (.vmul d a b p)) s d a b p isIntFmt (vintOp 0x02)

/-- vmulh (R367). -/
def execVmulh (d a b : BitVec 5) (p : Option (BitVec 3)) (s : State) : Res :=
  vint2 (wordOf (.vmulh d a b p)) s d a b p isIntFmt (vintOp 0x03)

/-- vmulhu (R367). -/
def execVmulhu (d a b : BitVec 5) (p : Option (BitVec 3)) (s : State) : Res :=
  vint2 (wordOf (.vmulhu d a b p)) s d a b p isIntFmt (vintOp 0x04)

/-- vand (R367). -/
def execVand (d a b : BitVec 5) (p : Option (BitVec 3)) (s : State) : Res :=
  vint2 (wordOf (.vand d a b p)) s d a b p anyFmt (vintOp 0x05)

/-- vor (R367). -/
def execVor (d a b : BitVec 5) (p : Option (BitVec 3)) (s : State) : Res :=
  vint2 (wordOf (.vor d a b p)) s d a b p anyFmt (vintOp 0x06)

/-- vxor (R367). -/
def execVxor (d a b : BitVec 5) (p : Option (BitVec 3)) (s : State) : Res :=
  vint2 (wordOf (.vxor d a b p)) s d a b p anyFmt (vintOp 0x07)

/-- vandn (R367). -/
def execVandn (d a b : BitVec 5) (p : Option (BitVec 3)) (s : State) : Res :=
  vint2 (wordOf (.vandn d a b p)) s d a b p anyFmt (vintOp 0x08)

/-- vsll (R367). -/
def execVsll (d a b : BitVec 5) (p : Option (BitVec 3)) (s : State) : Res :=
  vint2 (wordOf (.vsll d a b p)) s d a b p anyFmt (vintOp 0x0A)

/-- vsrl (R367). -/
def execVsrl (d a b : BitVec 5) (p : Option (BitVec 3)) (s : State) : Res :=
  vint2 (wordOf (.vsrl d a b p)) s d a b p anyFmt (vintOp 0x0B)

/-- vsra (R367). -/
def execVsra (d a b : BitVec 5) (p : Option (BitVec 3)) (s : State) : Res :=
  vint2 (wordOf (.vsra d a b p)) s d a b p anyFmt (vintOp 0x0C)

/-- vmin (R367). -/
def execVmin (d a b : BitVec 5) (p : Option (BitVec 3)) (s : State) : Res :=
  vint2 (wordOf (.vmin d a b p)) s d a b p isIntFmt (vintOp 0x0D)

/-- vmax (R367). -/
def execVmax (d a b : BitVec 5) (p : Option (BitVec 3)) (s : State) : Res :=
  vint2 (wordOf (.vmax d a b p)) s d a b p isIntFmt (vintOp 0x0E)

/-- vminu (R367). -/
def execVminu (d a b : BitVec 5) (p : Option (BitVec 3)) (s : State) : Res :=
  vint2 (wordOf (.vminu d a b p)) s d a b p isIntFmt (vintOp 0x0F)

/-- vmaxu (R367). -/
def execVmaxu (d a b : BitVec 5) (p : Option (BitVec 3)) (s : State) : Res :=
  vint2 (wordOf (.vmaxu d a b p)) s d a b p isIntFmt (vintOp 0x10)

/-- vnot (R367, R368). -/
def execVnot (d a : BitVec 5) (p : Option (BitVec 3)) (s : State) : Res :=
  vint1 (wordOf (.vnot d a p)) s d a p anyFmt (fun e x => vintOp 0x09 e x 0)

/-- vabs (R367, R368). -/
def execVabs (d a : BitVec 5) (p : Option (BitVec 3)) (s : State) : Res :=
  vint1 (wordOf (.vabs d a p)) s d a p isIntFmt (fun e x => vintOp 0x11 e x 0)

/-- vneg (R367, R368). -/
def execVneg (d a : BitVec 5) (p : Option (BitVec 3)) (s : State) : Res :=
  vint1 (wordOf (.vneg d a p)) s d a p isIntFmt (fun e x => vintOp 0x12 e x 0)

/-- vceq (R367). -/
def execVceq (d a b : BitVec 5) (p : Option (BitVec 3)) (s : State) : Res :=
  vintP (wordOf (.vceq d a b p)) s d a b p anyFmt (fun _ x y => decide (x = y))

/-- vclt (R367). -/
def execVclt (d a b : BitVec 5) (p : Option (BitVec 3)) (s : State) : Res :=
  vintP (wordOf (.vclt d a b p)) s d a b p isIntFmt (fun e x y => decide (e.sg x < e.sg y))

/-- vcltu (R367). -/
def execVcltu (d a b : BitVec 5) (p : Option (BitVec 3)) (s : State) : Res :=
  vintP (wordOf (.vcltu d a b p)) s d a b p isIntFmt (fun _ x y => decide (x < y))

/-- vcle (R367). -/
def execVcle (d a b : BitVec 5) (p : Option (BitVec 3)) (s : State) : Res :=
  vintP (wordOf (.vcle d a b p)) s d a b p isIntFmt (fun e x y => decide (e.sg x ≤ e.sg y))

/-- vcleu (R367). -/
def execVcleu (d a b : BitVec 5) (p : Option (BitVec 3)) (s : State) : Res :=
  vintP (wordOf (.vcleu d a b p)) s d a b p isIntFmt (fun _ x y => decide (x ≤ y))

/-- vsel (R368): the predicate selects, and every value is written. -/
def execVsel (d a b : BitVec 5) (p : Option (BitVec 3)) (s : State) : Res :=
  onLane (wordOf (.vsel d a b p)) s [] [d, a, b] LaneSet.simd (fun t f =>
    let res := (List.range f.lane.n).map (fun i =>
      let r := f.regs.rdV (if valueOn f.lane f.regs p i then a else b)
      some (vGet r.val f.lane.w i, vDross r.dross f.lane.w i))
    let v := vBuild f.lane.w (f.regs.rdV d) res
    .next (s.stepFiring t f (f.regs.wrV d v.val v.dross)))

end Sys2Proof.Machine
end

