-- ==== Sys2Proof/Machine/Vstrm.lean ====
section
/-! DEFINITION. The group VSTRM: online SD8 groups (R382), stream runs (R188, R317, R318, R383, R384) and the
stream-join unit (R191, R385). -/

namespace Sys2Proof.Machine

/-! The rates of a firing. -/

/-- The tokens of an inbound endpoint that a firing may read: none outside an ordinary firing (R160, R354).
DEDUCED, notes/assumptions/26.md -/
def Firing.cRate (f : Firing) (a : Actor) (n : Nat) : Option Nat :=
  match f.kind with
  | .ordinary => a.cRate n
  | _ => (a.cRate n).map (fun _ => 0)

/-- The tokens that a firing may send to an outbound endpoint: none outside an ordinary firing (R160, R354).
DEDUCED, notes/assumptions/26.md -/
def Firing.pRate (f : Firing) (a : Actor) (n : Nat) : Option Nat :=
  match f.kind with
  | .ordinary => a.pRate n
  | _ => (a.pRate n).map (fun _ => 0)

/-! Stream operation and switch words (R317, R318). -/

/-- Whether an operation reads operand A only. -/
def opUnary (fp : Bool) (func : Nat) : Bool :=
  if fp then [0x07, 0x0A, 0x0B].contains func else [0x09, 0x11, 0x12, 0x7F].contains func

/-- The operation of an element on the patterns of its operands. -/
def elemOp (fp : Bool) (func : Nat) (e : Elt) (x y : Nat) : Conv :=
  if fp then vfpOp func e x y else vintOp func e x y

/-- Whether a MAIN format is in the class of an operation (R363, R367, R369). -/
def opClass (fp : Bool) (func main : Nat) : Bool :=
  if fp then isFloatFmt main else (5 ≤ func && func ≤ 0x0C) || func = 0x7F || isIntFmt main

/-- FP of an element's operation word. -/
def LaneSet.opFp (l : LaneSet) (n : Nat) : Bool := (l.opWord n).getLsbD 31
/-- FUNC of an element's operation word. -/
def LaneSet.opFunc (l : LaneSet) (n : Nat) : Nat := bitsOf (l.opWord n).toNat 30 24
/-- The value width of one element. DEDUCED, notes/assumptions/7.md -/
def LaneSet.wAt (l : LaneSet) (n : Nat) : Nat := 2 ^ bitsOf (l.word n).toNat 17 16
/-- The constant of an element (R317). -/
def LaneSet.const (l : LaneSet) (n : Nat) : Nat :=
  let c := bitsOf (l.opWord n).toNat 15 0
  if l.wAt n = 4 then c * 65536 else c
/-- SELA. -/
def LaneSet.selA (l : LaneSet) (n : Nat) : Nat := bitsOf (l.swi n).toNat 15 13
/-- SELB. -/
def LaneSet.selB (l : LaneSet) (n : Nat) : Nat := bitsOf (l.swi n).toNat 12 10
/-- EPIN. -/
def LaneSet.epIn (l : LaneSet) (n : Nat) : Nat := bitsOf (l.swi n).toNat 9 4
/-- DEST. -/
def LaneSet.dest (l : LaneSet) (n : Nat) : Nat := bitsOf (l.swo n).toNat 15 14
/-- EPOUT. -/
def LaneSet.epOut (l : LaneSet) (n : Nat) : Nat := bitsOf (l.swo n).toNat 13 8
/-- The selections of the operands that an element reads. -/
def LaneSet.sels (l : LaneSet) (n : Nat) : List Nat :=
  if opUnary (l.opFp n) (l.opFunc n) then [l.selA n] else [l.selA n, l.selB n]
/-- The elements in MODE 1. -/
def LaneSet.runners (l : LaneSet) : List Nat := allElts.filter (fun n => l.mode n = 1)
/-- The inbound endpoint of each element that reads one. -/
def LaneSet.insUsed (l : LaneSet) : List Nat := (l.runners.filter (fun n => (l.sels n).contains 2)).map l.epIn
/-- The outbound endpoint of each element that writes one. -/
def LaneSet.outsUsed (l : LaneSet) : List Nat := (l.runners.filter (fun n => l.dest n = 2)).map l.epOut

/-! Stream runs (R383, R384). -/

/-- Whether every element has fired K times (R384). -/
def Run.finished (r : Run) (l : LaneSet) : Bool := l.runners.all (fun n => Tab.get 0 r.fired n = r.k)

/-- An operand of an element's next firing, if its latch or token is there. -/
def Run.operand (r : Run) (g : Graph) (a : Actor) (l : LaneSet) (n sel : Nat) : Option Latch :=
  match sel with
  | 0 => Tab.find r.east (n - 1)
  | 1 => Tab.find r.west (n + 1)
  | 2 =>
    let t := g.token a (l.epIn n) (Tab.get 0 r.first (l.epIn n) + Tab.get 0 r.fired n)
    some ⟨t.null, BitVec.ofNat 32 (t.data.toNat % 2 ^ (8 * l.wAt n)), !t.null && t.dross⟩
  | _ => some ⟨false, BitVec.ofNat 32 (l.const n), false⟩

/-- Whether an element can fire: its operands are there, its result latch is empty and its run is not over (R188). -/
def Run.ready (r : Run) (g : Graph) (a : Actor) (l : LaneSet) (n : Nat) : Bool :=
  l.mode n = 1 && decide (Tab.get 0 r.fired n < r.k) &&
    (l.sels n).all (fun x => (r.operand g a l n x).isSome) &&
    (match l.dest n with
      | 0 => (Tab.find r.east n).isNone
      | 1 => (Tab.find r.west n).isNone
      | _ => true)

/-- Empties the operand latches that an element reads. -/
def Run.taken (r : Run) (l : LaneSet) (n : Nat) : Run :=
  { r with east := if (l.sels n).contains 0 then Tab.erase r.east (n - 1) else r.east,
           west := if (l.sels n).contains 1 then Tab.erase r.west (n + 1) else r.west,
           fired := Tab.set r.fired n (Tab.get 0 r.fired n + 1) }

/-- The result of an element's next firing, with its flags: a null operand makes it null (R383). -/
def State.elemResult (s : State) (f : Firing) (r : Run) (n : Nat) : Latch × Conv :=
  let l := f.lane
  let g := s.graph f.job
  let a := s.actor f.job f.aid
  let ops := (l.sels n).filterMap (r.operand g a l n)
  if ops.any (·.null) then (⟨true, 0, false⟩, { code := 0 }) else
  let pos := 16 * Tab.get 0 r.fired n + n
  let h := if r.draws then halfWord (s.gritAt f (r.gctr + BitVec.ofNat 64 (pos / 8))) (pos % 8) else 0
  let e : Elt := { fmt := l.main n, rnd := l.rnd n, sat := l.sat n, h := h, w := l.wAt n }
  let v := fun i => ((ops[i]?).map (fun x => x.val.toNat % 2 ^ (8 * l.wAt n))).getD 0
  let c := elemOp (l.opFp n) (l.opFunc n) e (v 0) (v 1)
  (⟨false, BitVec.ofNat 32 (c.code % 2 ^ (8 * l.wAt n)), ops.any (·.dross) || c.arises⟩, c)

/-- Replaces the k-th token that a firing sends to an endpoint. -/
def fillOut (ep tok : Nat) (x : Token) : List OutTok → List OutTok
  | [] => []
  | o :: t =>
    if o.ep = ep then
      if tok = 0 then { o with tok := x } :: t else o :: fillOut ep (tok - 1) x t
    else o :: fillOut ep tok x t

/-- One firing of an element (R188, R383). -/
def State.fireElem (s : State) (f : Firing) (r : Run) (n : Nat) : Firing :=
  let l := f.lane
  let (x, c) := s.elemResult f r n
  let k := Tab.get 0 r.fired n
  let r := { r.taken l n with flags := r.flags ||| c.flags }
  let f := if c.arises then f.capture r.issue (originWord f.aid r.pc 2 n 1) true else f
  match l.dest n with
  | 0 => { f with run := some { r with east := Tab.set r.east n x } }
  | 1 => { f with run := some { r with west := Tab.set r.west n x } }
  | _ =>
    let t : Token := { null := x.null, data := x.val.zeroExtend 512, dross := x.dross }
    { f with run := some r, out := fillOut (l.epOut n) (Tab.get 0 r.base (l.epOut n) + k) t f.out }

/-- The first of some endpoints, from the lowest, at which a count passes its rate. -/
def passes (eps : List Nat) (above : Nat → Bool) : Option Nat := (List.range 64).find? (fun n => eps.contains n && above n)

/-- vsgo (R383). An operation outside the class of its element's MAIN raises ILLOPND, as its SIMD counterpart does.
DEDUCED, notes/assumptions/25.md -/
def execVsgo (a : BitVec 5) (s : State) : Res :=
  let w := wordOf (.vsgo a)
  onLane w s [a] [] LaneSet.stream (fun t f =>
    let l := f.lane
    let g := s.graph f.job
    let x := s.actor f.job f.aid
    let k := fld (f.regs.val a) 15 0
    let ins := l.insUsed
    let outs := l.outsUsed
    let old := f.run.filter (fun r => !r.finished l)
    if old.isSome then .next s
    else if f.regs.drossS a then trapAt s t f 7 w
    else if fld (f.regs.val a) 63 16 ≠ 0 || !decide ins.Nodup || !decide outs.Nodup ||
        ins.any (fun n => g.wIn x n ≠ 4) || outs.any (fun n => g.wOut x n ≠ 4) ||
        l.runners.any (fun n => !opClass (l.opFp n) (l.opFunc n) (l.main n)) then trapAt s t f 3 w
    else match passes ins (fun n => (f.cRate x n).getD 0 < Tab.get 0 f.ridx n + k) with
    | some n => trapAt s t f 5 (BitVec.ofNat 64 n)
    | none =>
      match passes outs (fun n => (f.pRate x n).getD 0 < Tab.get 0 f.sent n + k) with
      | some n => trapAt s t f 5 (BitVec.ofNat 64 (64 + n))
      | none =>
        let draws := l.runners.any (fun n => l.rnd n = 4)
        let ids := (s.own f).map (·.id)
        let r : Run := { k := k, pc := f.regs.pc, issue := f.icount, draws := draws, gctr := f.gctr,
                         first := ins.foldl (fun tb n => Tab.set tb n (Tab.get 0 f.ridx n)) [],
                         base := outs.foldl (fun tb n => Tab.set tb n (Tab.get 0 f.sent n)) [],
                         flags := (f.run.map (·.flags)).getD 0 }
        let toks := outs.flatMap (fun n => List.replicate k ({ ep := n, tok := {}, mask := 0xFFFF, ids := ids } : OutTok))
        .next (s.stepFiring t { f with
          run := some r,
          ridx := ins.foldl (fun tb n => Tab.put 0 tb n (Tab.get 0 tb n + k)) f.ridx,
          sent := outs.foldl (fun tb n => Tab.put 0 tb n (Tab.get 0 tb n + k)) f.sent,
          out := f.out ++ toks,
          gctr := if draws then f.gctr + BitVec.ofNat 64 (2 * k) else f.gctr } f.regs))

/-- Merges the flags of a finished stream run (R384). -/
def Firing.mergeRun (f : Firing) (r : Run) : Firing := { f.flag r.flags with run := none }

/-- vswt (R384): it waits for the run; the flags are merged as the wait ends. -/
def execVswt (s : State) : Res :=
  onLane (wordOf .vswt) s [] [] anyMode (fun t f =>
    match f.run with
    | some _ => .next (s.setFiring t { f with phase := .vswt })
    | none => .next (s.stepFiring t { f with phase := .running } f.regs))

/-! Online mode (R382). -/

/-- An online operation of two groups on the exact values (R382, R268). -/
def online (w : W64) (s : State) (d a b : BitVec 5) (op : XV → XV → XV) : Res :=
  let es := ((sdGroup a).map (·.2)).toList ++ ((sdGroup b).map (·.2)).toList
  onLane w s es (sdRegs d ++ sdRegs a ++ sdRegs b) LaneSet.online (fun t f =>
    match sdGroup d, sdGroup a, sdGroup b with
    | some (_, ed), some (_, ea), some (_, eb) =>
      let js := List.range 64
      let x := fun j => f.regs.sdVal a ea j
      let y := fun j => f.regs.sdVal b eb j
      let vs := js.map (fun j => op (sdValue (f.regs.sdExp ea) (x j).1) (sdValue (f.regs.sdExp eb) (y j).1))
      let f := f.ariseAt 3 2 (js.map (fun j => (f.regs.sdDigits a j).2 || (f.regs.sdDigits b j).2))
      .next (s.encodeGroup t f d ed 3 vs (js.map (fun j => (x j).2 || (y j).2)))
    | _, _, _ => trapAt s t f 3 w)

/-- vsdadd (R382). -/
def execVsdadd (d a b : BitVec 5) (s : State) : Res :=
  online (wordOf (.vsdadd d a b)) s d a b (fun x y => (sumX 0 [x, y]).1)

/-- vsdsub (R382). -/
def execVsdsub (d a b : BitVec 5) (s : State) : Res :=
  online (wordOf (.vsdsub d a b)) s d a b (fun x y => (sumX 0 [x, y.flip]).1)

/-- vsdmul (R382). -/
def execVsdmul (d a b : BitVec 5) (s : State) : Res :=
  online (wordOf (.vsdmul d a b)) s d a b (fun x y => (mulX x y).1)

/-- vsdcut (R382, R256): the dross of each value passes through, that of an illegal code in a dropped plane too (R254, R374). -/
def execVsdcut (d a m : BitVec 5) (s : State) : Res :=
  let w := wordOf (.vsdcut d a m)
  onLane w s ((sdGroup a).map (·.2)).toList (sdRegs d ++ sdRegs a) LaneSet.online (fun t f =>
    match sdGroup d, sdGroup a with
    | some (_, ed), some (_, ea) =>
      if m = 0 ∨ 8 < m.toNat then trapAt s t f 3 w
      else
        let old := f.regs
        let js := List.range 64
        let x := maskOf (js.map (fun j => (old.sdVal a ea j).2))
        let r := (List.range 8).foldl (fun r k =>
          r.wrV (d + BitVec.ofNat 5 k) (if k < m.toNat then (old.rdV (a + BitVec.ofNat 5 k)).val else 0) x) old
        let g := f.ariseAt 3 2 (old.sdIllegal a js)
        .next (s.stepFiring t g (r.wr ed (BitVec.ofInt 64 (old.sdExp ea)) false))
    | _, _ => trapAt s t f 3 w)

/-- vsdcmp (R382, R364). -/
def execVsdcmp (d a b : BitVec 5) (s : State) : Res :=
  let w := wordOf (.vsdcmp d a b)
  let es := ((sdGroup a).map (·.2)).toList ++ ((sdGroup b).map (·.2)).toList
  onLane w s es (sdRegs a ++ sdRegs b) LaneSet.online (fun t f =>
    match sdGroup a, sdGroup b with
    | some (_, ea), some (_, eb) =>
      let js := List.range 64
      let x := fun j => f.regs.sdVal a ea j
      let y := fun j => f.regs.sdVal b eb j
      if js.any (fun j => (x j).2 || (y j).2) then trapAt s t f 7 w
      else
        let lt := js.map (fun j => ltX (sdValue (f.regs.sdExp ea) (x j).1) (sdValue (f.regs.sdExp eb) (y j).1))
        .next (s.stepFiring t f (f.regs.wrP d.toNat (maskOf lt)))
    | _, _ => trapAt s t f 3 w)

/-! The stream-join unit (R191, R385). -/

/-- An entry of a join input: coordinate, value, dross, and whether it stands out of ascending order. -/
structure JEntry where
  c : Nat
  v : Nat
  x : Bool
  late : Bool
  deriving DecidableEq, Repr

/-- The entries of an input: its tokens that are not null, each compared with its predecessor. -/
def joinEntries : Option Nat → List Token → List JEntry
  | _, [] => []
  | prev, t :: rest =>
    if t.null then joinEntries prev rest else
    let c := t.data.toNat % 2 ^ 32
    { c := c, v := bitsOf t.data.toNat 63 32, x := t.dross, late := prev.any (fun p => decide (c ≤ p)) }
      :: joinEntries (some c) rest

/-- An output of a join, from the heads that it takes. -/
def joinOut (c : Nat) (a b : Option JEntry) : Token :=
  let v := fun (e : Option JEntry) => (e.map (·.v)).getD 0
  let bad := fun (e : Option JEntry) => e.any (fun y => y.x || y.late)
  { data := BitVec.ofNat 512 (c + inFld (v a) 63 32 + inFld (v b) 95 64), dross := bad a || bad b }

/-- The outputs of a join in match or union form (R191); `n` bounds the steps. -/
def joinRun (union : Bool) : Nat → List JEntry → List JEntry → List Token
  | 0, _, _ => []
  | _ + 1, [], bs => if union then bs.map (fun b => joinOut b.c none (some b)) else []
  | _ + 1, as, [] => if union then as.map (fun a => joinOut a.c (some a) none) else []
  | n + 1, a :: as, b :: bs =>
    if a.c < b.c then
      let r := joinRun union n as (b :: bs)
      if union then joinOut a.c (some a) none :: r else r
    else if b.c < a.c then
      let r := joinRun union n (a :: as) bs
      if union then joinOut b.c none (some b) :: r else r
    else joinOut a.c (some a) (some b) :: joinRun union n as bs

/-- The join instructions (R385). The INDEX of their origin word is 0: R277 gives the unit none.
DESIGN CHOICE, notes/assumptions/27.md -/
def join (w : W64) (s : State) (d a b : BitVec 5) (union : Bool) : Res :=
  onLane w s [] [] LaneSet.join (fun t f =>
    let g := s.graph f.job
    let x := s.actor f.job f.aid
    match f.cRate x a.toNat, f.cRate x b.toNat, f.pRate x d.toNat with
    | some ca, some cb, some p =>
      if g.wIn x a.toNat ≠ 8 ∨ g.wIn x b.toNat ≠ 8 ∨ g.wOut x d.toNat ≠ 16 then trapAt s t f 3 w
      else
        let ia := Tab.get 0 f.ridx a.toNat
        let ib := Tab.get 0 f.ridx b.toNat
        let n := (ca - ia) + (cb - ib)
        let sent := Tab.get 0 f.sent d.toNat
        if p < sent + n then trapAt s t f 5 (BitVec.ofNat 64 (64 + d.toNat))
        else
          let as := joinEntries none ((List.range (ca - ia)).map (fun i => g.token x a.toNat (ia + i)))
          let bs := joinEntries none ((List.range (cb - ib)).map (fun i => g.token x b.toNat (ib + i)))
          let outs := joinRun union (n + 1) as bs
          let toks := outs ++ List.replicate (n - outs.length) ({ null := true } : Token)
          let late := (as ++ bs).any (·.late)
          let f := if late then f.arise 4 0 4 else f
          let f := { f with ridx := Tab.put 0 (Tab.put 0 f.ridx a.toNat ca) b.toNat cb }
          .next (s.sendTokens t f (d.zeroExtend 6) 0xFFFF toks)
    | _, _, _ => trapAt s t f 3 w)

/-- vjoin (R385). -/
def execVjoin (d a b : BitVec 5) (s : State) : Res := join (wordOf (.vjoin d a b)) s d a b false

/-- vjoinu (R385). -/
def execVjoinu (d a b : BitVec 5) (s : State) : Res := join (wordOf (.vjoinu d a b)) s d a b true

end Sys2Proof.Machine
end

