-- ==== Sys2Proof/Machine/Mat.lean ====
section
/-! DEFINITION. The group MAT (R391 to R400): slots, contexts, row streams and drains; the asynchronous matrix work and
the row firing (R154, R178 to R184, R269, R270). -/

namespace Sys2Proof.Machine

/-! The undo log and the checkpoints (R154). -/

/-- Takes an undo entry for the prior contents of a row or a slot piece, once each; a 129th makes the firing
non-replayable. -/
def Firing.log (f : Firing) (slot : Option Nat) (piece : Nat) (m : Memory) : Firing :=
  if !f.replay || f.undo.any (fun u => u.slot = slot && u.piece = piece) then f
  else if 128 ≤ f.undo.length then { f with replay := false }
  else
    let old := (List.range 256).map (fun i => (m.byte (256 * piece + i), m.isBad (32 * piece + i / 8)))
    { f with undo := f.undo ++ [{ slot := slot, piece := piece, old := old }] }

/-- Checkpoints a context before its first write. -/
def Firing.checkpoint (f : Firing) (a : Actor) (c : Nat) : Firing :=
  if (Tab.find f.ckpt c).isSome then f else { f with ckpt := Tab.set f.ckpt c (Tab.get {} a.ctxs c) }

/-- The 256-byte pieces that a span of bytes touches. -/
def rowsOf (lo n : Nat) : List Nat := (List.range ((lo % 256 + n + 255) / 256)).map (fun i => lo / 256 + i)

/-- Writes bytes into an actor's tile store, with undo entries (R154, R402). -/
def State.tsWrite (s : State) (f : Firing) (lo : Nat) (bs : Bytes) : State × Firing :=
  let a := s.actor f.job f.aid
  let f := (rowsOf lo bs.length).foldl (fun f r => f.log none r a.tstore) f
  (s.setActor f.job f.aid { a with tstore := a.tstore.store lo bs }, f)

/-- Writes bytes into a slot, with undo entries (R154, R402). -/
def State.slotWrite (s : State) (f : Firing) (h lo : Nat) (bs : Bytes) : State × Firing :=
  let a := s.actor f.job f.aid
  let x := Tab.get {} a.slots h
  let f := (rowsOf lo bs.length).foldl (fun f r => f.log (some h) r x.mem) f
  (s.setActor f.job f.aid { a with slots := Tab.set a.slots h { x with mem := x.mem.store lo bs } }, f)

/-! Contexts (R180, R181). -/

/-- AFMT of a context. -/
def Mctx.afmt (m : Mctx) : Nat := bitsOf m.word.toNat 31 28
/-- BFMT of a context. -/
def Mctx.bfmt (m : Mctx) : Nat := bitsOf m.word.toNat 27 24
/-- ACC: INT32 accumulators. -/
def Mctx.int (m : Mctx) : Bool := m.word.getLsbD 23
/-- ISAT. -/
def Mctx.isat (m : Mctx) : Bool := m.word.getLsbD 22

/-- Whether a context word keeps the rules of R180. -/
def ctxWordOk (w : W32) : Bool :=
  let m : Mctx := { word := w }
  let a := m.afmt
  let b := m.bfmt
  bitsOf w.toNat 21 0 = 0 && (a = b || ([3, 4].contains a && [3, 4].contains b)) &&
    ((m.int && [0, 0xA].contains a) || (!m.int && !m.isat && [3, 4, 5, 6, 7, 9, 0xB, 0xC, 0xD].contains a))

/-- The microscaled formats. -/
def isMx (f : Nat) : Bool := f = 0xB || f = 0xC || f = 0xD

/-- The bytes of an A row (R181). -/
def rowLen (f : Nat) : Nat := 8 * fmtBits f + (if isMx f then 2 else 0)

/-- The 64-byte tokens of an A row (R397). -/
def rowToks (f : Nat) : Nat := (rowLen f + 63) / 64

/-- The value of element i of packed data, and whether a microscaled special case makes it NaN (R179, R253): `scale`
is the byte of its scale. -/
def elemValue (fmt : Nat) (m : Nat → Nat) (i : Nat) (scale : Nat) : XV × Bool :=
  let b := fmtBits fmt
  let code :=
    if b = 4 then bitsOf (m (i / 2)) (4 * (i % 2) + 3) (4 * (i % 2))
    else (List.range (b / 8)).foldl (fun x k => x + m (i * b / 8 + k) * 256 ^ k) 0
  if isMx fmt then mxDecode fmt (m scale) code else (decodeFmt fmt code, false)

/-- The bytes that element i of packed data and its scale lie in. -/
def elemBytes (fmt i scale : Nat) : List Nat :=
  let b := fmtBits fmt
  (if b = 4 then [i / 2] else (List.range (b / 8)).map (fun k => i * b / 8 + k)) ++ (if isMx fmt then [scale] else [])

/-- The tokens of a row for the lowest-numbered context of an actor (R438). -/
def Actor.setToks (a : Actor) : Actor :=
  let t := match a.ctxs with
    | c :: _ => rowToks c.2.afmt
    | [] => 1
  { a with nodes := a.nodes.map (fun (e : Nat × RepNode) => (e.1, { e.2 with toks := t })) }

/-- Where the scale of an A element lies (R181). -/
def aScale (fmt k : Nat) : Nat := 8 * fmtBits fmt + k / 32

/-- Where the scale of a B element lies (R179). -/
def bScale (fmt k j : Nat) : Nat := 512 * fmtBits fmt + 64 * (k / 32) + j

/-! The row firing (R182, R183, R269, R270). -/

/-- The new accumulator value of one column with its flags. -/
def combine (m : Mctx) (acc : W32) (ps : List (XV × BitVec 5)) : W32 × BitVec 5 :=
  if m.int then
    let z : Int := acc.toInt + (ps.map (fun p => p.1.units 0)).foldl (· + ·) 0
    if m.isat then
      let r := clampS 32 z
      (BitVec.ofInt 32 r.1, flIf r.2 flOF)
    else (BitVec.ofInt 32 z, 0)
  else
    let fl := ps.foldl (fun x p => x ||| p.2) 0
    let r := sumX 0 (ps.map (·.1) ++ [fp32.decode acc.toNat])
    let c := fp32.ofXV 0 false 0 r.1
    (BitVec.ofNat 32 c.code, fl ||| r.2 ||| c.flags)

/-- A row firing on a context: the context after it, and the columns in which dross arises. -/
def Mctx.rowFire (m : Mctx) (row : Bytes) (b : Memory) (base : Nat) : Mctx × List Bool :=
  let ab := fun i => ((row.getD i (0, false)).1).toNat
  let bb := fun i => (b.read i).1.toNat
  let rowX := (row.take (rowLen m.afmt)).any (·.2)
  let avs := (List.range 64).map (fun k => elemValue m.afmt ab k (aScale m.afmt k))
  let cols := (List.range 64).map (fun j =>
    let bvs := (List.range 64).map (fun k => elemValue m.bfmt bb (64 * k + j) (bScale m.bfmt k j))
    let bX := (List.range 64).any (fun k =>
      (elemBytes m.bfmt (64 * k + j) (bScale m.bfmt k j)).any (fun i => (b.read i).2))
    let arises := avs.any (·.2) || bvs.any (·.2)
    let old := Tab.get {} m.acc (64 * base + j)
    let r := combine m old.val ((List.range 64).map (fun k =>
      mulX ((avs.map (·.1)).getD k .nan) ((bvs.map (·.1)).getD k .nan)))
    (({ val := r.1, dross := rowX || bX || arises || old.dross } : Acc), r.2, arises))
  let acc := cols.zipIdx.foldl (fun a e => Tab.put {} a (64 * base + e.2) e.1.1) m.acc
  ({ m with acc := acc, flags := m.flags ||| cols.foldl (fun x c => x ||| c.2.1) 0, count := m.count + 1 },
    cols.map (·.2.2))

/-! Asynchronous work (R392, R400). -/

/-- The context of a piece of work. -/
def MWork.ctx : MWork → Nat
  | .rows c _ _ _ _ _ _ => c
  | .zero c => c
  | .drain c _ _ _ _ _ => c

/-- Replaces or removes the oldest work of a context. -/
def setHead (c : Nat) (new : Option MWork) : List MWork → List MWork
  | [] => []
  | w :: t => if w.ctx = c then new.toList ++ t else w :: setHead c new t

/-- The oldest work of a context. -/
def Firing.head (f : Firing) (c : Nat) : Option MWork := f.mwork.find? (fun w => w.ctx = c)

/-- One drained value (R398). -/
def drainValue (m : Mctx) (fmt : Nat) (sat : Bool) (a : Acc) : Nat × BitVec 5 :=
  if m.int then
    let n := fmtBits fmt
    if sat then
      let r := clampS n a.val.toInt
      (wrapN n r.1, flIf r.2 flOF)
    else (wrapN n a.val.toInt, 0)
  else
    let c := ((ffmt fmt).getD fp32).ofXV 0 sat 0 (fp32.decode a.val.toNat)
    (c.code, c.flags)

/-- Drains one accumulator row (R398). -/
def State.drainRow (s : State) (f : Firing) (c row base fmt : Nat) (sat : Bool) : State × Firing :=
  let a := s.actor f.job f.aid
  let m := Tab.get {} a.ctxs c
  let f := f.checkpoint a c
  let vals := (List.range 64).map (fun j =>
    let x := Tab.get {} m.acc (64 * (base % 64) + j)
    (drainValue m fmt sat x, x.dross))
  let bs := vals.flatMap (fun v => marked v.2 (leBytes (fmtBits fmt / 8) v.1.1))
  let m := m.flag (vals.foldl (fun x v => x ||| v.1.2) 0)
  let s := s.setActor f.job f.aid { a with ctxs := Tab.set a.ctxs c m }
  let f := { f with drossOut := f.drossOut || vals.any (·.2) }
  s.tsWrite f (256 * row) bs

/-- Whether the next tile-store access of a piece of work waits on the range scoreboard (R194). -/
def Graph.workWaits (g : Graph) (aid : Nat) (a : Actor) : MWork → Bool
  | .rows c _ (.tstore row) _ _ _ _ => g.meets aid true (256 * row) (rowLen (Tab.get {} a.ctxs c).afmt) true false
  | .rows _ _ _ _ _ _ _ => false
  | .zero _ => false
  | .drain _ row _ left fmt _ => decide (left ≠ 0) && g.meets aid true (256 * row) (8 * fmtBits fmt) true true

/-- The tile-store rows that a piece of work has still to read or write: the first, how many, and whether it writes them. -/
def MWork.touch : MWork → Option (Nat × Nat × Bool)
  | .rows _ _ (.tstore row) _ left _ _ => some (row, left, false)
  | .drain _ row _ left _ _ => some (row, left, true)
  | _ => none

/-- The repeat node that a piece of work takes its rows from. -/
def MWork.node : MWork → Option Nat
  | .rows _ _ (.node r) _ _ _ _ => some r
  | _ => none

/-- Whether the next access of a piece of work must wait for one that was issued before it, in whatever context (R392): one of them
writes a tile-store row that both touch, or both take their rows from one repeat node (R397). -/
def MWork.follows (w e : MWork) : Bool :=
  (w.node.isSome && w.node = e.node) || (match w.touch, e.touch with
    | some (r, n, x), some (q, m, y) => (x || y) && n ≠ 0 && decide (q ≤ r) && decide (r < q + m)
    | _, _ => false)

/-- Whether work issued before the oldest work of a context holds that back: what it must follow (R392), and a tile-store access that
waits (R194). -/
def State.heldBack (s : State) (f : Firing) (c : Nat) : Bool :=
  (f.head c).any (fun w => (f.mwork.takeWhile (fun e => e.ctx ≠ c)).any (fun e =>
    w.follows e || (w.touch.isSome && (s.graph f.job).workWaits f.aid (s.actor f.job f.aid) e)))

/-- Performs the oldest work of a context where it is a zeroing or a drain that no scoreboard entry holds (R194). -/
def State.doHead (s : State) (f : Firing) (c : Nat) : Option (State × Firing) :=
  match f.head c with
  | some (.zero _) =>
    let a := s.actor f.job f.aid
    let f := f.checkpoint a c
    let s := s.setActor f.job f.aid { a with ctxs := Tab.modify a.ctxs c (fun m => { m with acc := [] }) }
    some (s, { f with mwork := setHead c none f.mwork })
  | some (.drain _ row base left fmt sat) =>
    if left = 0 then some (s, { f with mwork := setHead c none f.mwork })
    else if (s.graph f.job).meets f.aid true (256 * row) (8 * fmtBits fmt) true true || s.heldBack f c then none
    else
      let (s, f) := s.drainRow f c row base fmt sat
      some (s, { f with mwork := setHead c (some (.drain c (row + 1) (base + 1) (left - 1) fmt sat)) f.mwork })
  | _ => none

/-- Performs what zeroings and drains can be performed; `n` bounds the steps. -/
def State.settleWork : Nat → State → Firing → State × Firing
  | 0, s, f => (s, f)
  | n + 1, s, f =>
    match (List.range 4).findSome? (fun c => s.doHead f c) with
    | some (s, f) => State.settleWork n s f
    | none => (s, f)

/-- A bound on the steps of the zeroings and drains of a firing. -/
def Firing.workBound (f : Firing) : Nat :=
  (f.mwork.map (fun w => match w with
    | .drain _ _ _ left _ _ => left + 1
    | _ => 1)).foldl (· + ·) 0

/-- Adds work, and performs what can be performed at once. -/
def State.addWork (s : State) (f : Firing) (w : MWork) : State × Firing :=
  let f := { f with mwork := f.mwork ++ [w] }
  s.settleWork f.workBound f

/-- The next row of a row stream: nothing while it is not there, and no bytes for a row with a null token (R396, R397,
R439). -/
def State.nextRow (s : State) (f : Firing) (c : Nat) (m : Mctx) (src : RowSrc) : Option (Option Bytes) :=
  let g := s.graph f.job
  let a := g.actor f.aid
  let toks := fun (get : Nat → Token) (x : Bool) =>
    let ts := (List.range (rowToks m.afmt)).map get
    if ts.any (·.null) then none
    else some (ts.flatMap (fun t => marked (x || t.dross) (t.bytes 64)))
  match src with
  | .tstore row =>
    if g.meets f.aid true (256 * row) (rowLen m.afmt) true false || s.heldBack f c then none
    else some (some (a.tstore.reads (256 * row) (rowLen m.afmt)))
  | .chan ep tok => some (toks (fun i => g.token a ep (tok + i)) false)
  | .node r =>
    match Tab.find a.nodes r with
    | none => none
    | some n =>
      match n.cur with
      | none => none
      | some e =>
        if s.heldBack f c then none else
        let at0 := n.gone + e.row * e.toks
        some (toks (fun i => (g.chan n.rowCh).buf.getD (at0 + i) {}) e.dross)

/-- The row source past one row. -/
def RowSrc.past (src : RowSrc) (toks : Nat) : RowSrc :=
  match src with
  | .tstore r => .tstore (r + 1)
  | .chan ep t => .chan ep (t + toks)
  | .node r => .node r

/-- The repeat node past one emitted row (R184, R439). -/
def RepNode.past (n : RepNode) : RepNode :=
  match n.cur with
  | none => n
  | some e =>
    if e.row + 1 < n.group then { n with cur := some { e with row := e.row + 1 } }
    else if e.em + 1 < e.times then { n with cur := some { e with row := 0, em := e.em + 1 } }
    else { n with cur := none, taken := n.taken + 1, gone := n.gone + n.group * e.toks }

/-- The actor past one row of a source. -/
def Actor.pastRow (a : Actor) : RowSrc → Actor
  | .node r => { a with nodes := Tab.modify a.nodes r RepNode.past }
  | _ => a

/-- An uncorrectable error in a firing's data (R156): a replayable firing aborts and fires again, the graph of another
is aborted. -/
def State.uncorr (s : State) (t : Nat) (f : Firing) : State :=
  if f.replay then s.rollback t f
  else s.abortGraph f.job stUncorr { code := 99, tval := BitVec.ofNat 64 f.aid, aid := f.aid }

/-- Whether shift-recheck checks the next row firing of a context (R294). -/
def Graph.rechecks (g : Graph) (m : Mctx) : Bool :=
  match g.recheck with
  | 0 => m.count % 16 = 15
  | 1 => true
  | _ => false

/-- A mismatch of shift-recheck in a firing's unit (R295). -/
def State.recheckMiss (s : State) (t : Nat) (f : Firing) (unit : Nat) (pc : Int) : State :=
  let synd := Config.syndrome s.fresh
  let s := { s with fresh := s.fresh + 1 }
  let s := s.addRecord t 3 unit 244 f.aid (BitVec.ofInt 64 pc) synd
  (s.blockNotice t 244).uncorr t f

/-- Merges the flags of the contexts into a firing's fflags and clears them (R183, R399). -/
def State.mergeFlags (s : State) (f : Firing) : State × Firing :=
  let a := s.actor f.job f.aid
  let fl := a.ctxs.foldl (fun x e => x ||| e.2.flags) 0
  (s.setActor f.job f.aid { a with ctxs := a.ctxs.map (fun e => (e.1, { e.2 with flags := 0 })) }, f.flag fl)

/-- Wakes the actor at an end of a channel that a yield has put to sleep (R159). -/
def Graph.wake (g : Graph) : EndPt → Graph
  | .actor aid _ => { g with actors := Tab.modify g.actors aid (fun a => { a with asleep := false }) }
  | _ => g

/-- Takes tokens off the front of a channel: its producer sees free space (R155, R159). -/
def Graph.consume (g : Graph) (c n : Nat) : Graph :=
  let x := g.chan c
  let g := g.setChan c { x with buf := x.buf.drop n }
  if n = 0 then g else g.wake x.src

/-- The state in which a tile's row-firing boundary has taken up the mode of its graph (R127). -/
def State.rowMode (s : State) (t j : Nat) : State :=
  if (s.block t).half = (s.graph j).halfRow then s else s.setBlock t { s.block t with half := (s.graph j).halfRow }

/-- Whether the count of the group that a row source emits has made dross (R277): the repeat node. -/
def Actor.repeatArises (a : Actor) : RowSrc → Option Nat
  | .node r => if ((Tab.find a.nodes r).bind (·.cur)).any (·.arose) then some r else none
  | _ => none

/-- ROW_FIRING (R123, R127, R182, R295, R397): the next row of the oldest row stream of a context; `mismatch` is a mismatch that
shift-recheck finds. -/
def execRowFiring (tile ctx : Nat) (mismatch : Bool) (s : State) : Res :=
  if (s.block tile).stopped then disabled "ROW_FIRING" else
  match (s.tile tile).firing with
  | none => disabled "ROW_FIRING"
  | some f =>
    let s := s.rowMode tile f.job
    let a := s.actor f.job f.aid
    let m := Tab.get {} a.ctxs ctx
    match f.head ctx with
    | some (.rows c slot src base left pc issue) =>
      let past := fun f : Firing =>
        let rest := if left ≤ 1 then none
          else some (.rows c slot (src.past (rowToks m.afmt)) ((base + 1) % 64) (left - 1) pc issue)
        ({ f with mwork := setHead ctx rest f.mwork } : Firing)
      match s.nextRow f ctx m src with
      | none => disabled "ROW_FIRING"
      | some none =>
        if mismatch then disabled "ROW_FIRING"
        else
          let s := s.setActor f.job f.aid (a.pastRow src)
          let f := past f
          let (s, f) := s.settleWork f.workBound f
          .next (s.setFiring tile f)
      | some (some row) =>
        let f := f.checkpoint a ctx
        if mismatch then
          if (s.graph f.job).rechecks m then
            let s := s.setActor f.job f.aid { a with ctxs := Tab.set a.ctxs ctx { m with count := m.count + 1 } }
            .next (s.recheckMiss tile f 2 pc)
          else disabled "ROW_FIRING"
        else
          let (m', arises) := m.rowFire row (Tab.get {} a.slots slot).mem base
          let a := { a.pastRow src with ctxs := Tab.set a.ctxs ctx m' }
          let f := match (s.actor f.job f.aid).repeatArises src with
            | some r => f.capture issue (originWord f.aid pc 6 r 5) false
            | none => f
          let s := s.setActor f.job f.aid a
          let f := match arises.findIdx? id with
            | some j => f.capture issue (originWord f.aid pc 5 (64 * base + j) 3) false
            | none => f
          let f := past f
          let (s, f) := s.settleWork f.workBound f
          .next (s.setFiring tile f)
    | _ => disabled "ROW_FIRING"

/-- REPEAT_GROUP (R184, R275, R438, R439): the node takes a count token and its group of rows, in a quench for a firing that still runs
(R156). -/
def execRepeatGroup (job aid node : Nat) (s : State) : Res :=
  let g := s.graph job
  let a := g.actor aid
  match Tab.find a.nodes node with
  | none => disabled "REPEAT_GROUP"
  | some n =>
    let rows := ((g.chan n.rowCh).buf.drop n.gone).length
    match n.cur, (g.chan n.cntCh).buf[n.taken]? with
    | none, some t =>
      let runs := decide (g.phase = .resident) || (decide (g.phase = .quenching) && (s.firingOf job aid).isSome)
      if !s.hasGraph job || !runs || (s.block a.tile).stopped || rows < n.group * n.toks then disabled "REPEAT_GROUP"
      else
        let w := t.data.toNat % 2 ^ 32
        let put := fun (n : RepNode) => s.setGraph job (g.setActor aid { a with nodes := Tab.set a.nodes node n })
        if t.null || (!t.dross && w = 0) then
          let busy := (s.firingOf job aid).isSome
          if busy then .next (put { n with taken := n.taken + 1, gone := n.gone + n.group * n.toks })
          else
            let g' := (g.consume n.rowCh (n.group * n.toks)).consume n.cntCh 1
            .next (s.setGraph job g')
        else
          let bad := t.dross || 65536 ≤ w
          .next (put { n with cur := some { times := if bad then 1 else w, dross := bad, toks := n.toks, arose := bad } })
    | _, _ => disabled "REPEAT_GROUP"

/-! The instructions (R394 to R399). -/

/-- A matrix instruction that names a context, which the actor must hold (R393). -/
def onCtx (w : W64) (s : State) (ss : List (BitVec 5)) (c : BitVec 5) (k : Nat → Firing → Actor → Mctx → Res) : Res :=
  onSeq s ss [] (fun t f =>
    let a := s.actor f.job f.aid
    if ss.any f.regs.drossS then trapAt s t f 7 w
    else match Tab.find a.ctxs c.toNat with
    | none => trapAt s t f 3 w
    | some m => k t f a m)

/-- Steps past an instruction that has added work. -/
def withWork (s : State) (t : Nat) (f : Firing) (w : MWork) : Res :=
  let (s, f) := s.addWork f w
  .next (s.stepFiring t f f.regs)

/-- The free physical slots of a tile (R178). -/
def State.freeSlots (s : State) (t : Nat) : Nat :=
  24 - ((s.residents t).map (fun r => (r.2.2.slots.filter (fun x => x.2.claimed)).length)).foldl (· + ·) 0

/-- Claims a handle for a firing (R395). -/
def State.claim (s : State) (t : Nat) (f : Firing) (h : Nat) : State :=
  let a := s.actor f.job f.aid
  let s := s.setActor f.job f.aid { a with slots := Tab.modify a.slots h (fun x => { x with claimed := true, mem := {} }) }
  s.stepFiring t { f with claims := f.claims ++ [h], phase := .running } f.regs

/-- sclaim (R395): it waits while no physical slot is free. -/
def execSclaim (h : BitVec 5) (s : State) : Res :=
  onSeq s [] [] (fun t f =>
    match Tab.find (s.actor f.job f.aid).slots h.toNat with
    | none => trapAt s t f 3 (wordOf (.sclaim h))
    | some x =>
      if x.claimed then .next (s.stepFiring t f f.regs)
      else if s.freeSlots t = 0 then .next (s.setFiring t { f with phase := .claim h.toNat })
      else .next (s.claim t f h.toNat))

/-- SLOT_CLAIM_GRANT (R123, R178, R395). -/
def execSlotClaimGrant (tile : Nat) (s : State) : Res :=
  match (s.tile tile).firing with
  | some f =>
    match f.phase with
    | .claim h => if s.freeSlots tile = 0 || (s.block tile).stopped then disabled "SLOT_CLAIM_GRANT" else .next (s.claim tile f h)
    | _ => disabled "SLOT_CLAIM_GRANT"
  | none => disabled "SLOT_CLAIM_GRANT"

/-- srel (R395): the release takes effect at commit step 7; that of an unclaimed handle does nothing. -/
def execSrel (h : BitVec 5) (s : State) : Res :=
  onSeq s [] [] (fun t f =>
    match Tab.find (s.actor f.job f.aid).slots h.toNat with
    | none => trapAt s t f 3 (wordOf (.srel h))
    | some x => .next (s.stepFiring t (if x.claimed then { f with rels := f.rels ++ [h.toNat] } else f) f.regs))

/-- mctx (R394). -/
def execMctx (c h : BitVec 5) (s : State) : Res :=
  let w := wordOf (.mctx c h)
  onCtx w s [] c (fun t f a m =>
    match Tab.find a.slots h.toNat with
    | none => trapAt s t f 3 w
    | some x =>
      if !x.claimed || x.fmt ≠ m.bfmt then trapAt s t f 3 w
      else .next (s.stepFiring t { f with bbind := Tab.set f.bbind c.toNat h.toNat } f.regs))

/-- mrow (R396). -/
def execMrow (c a b : BitVec 5) (s : State) : Res :=
  let w := wordOf (.mrow c a b)
  onCtx w s [a, b] c (fun t f x _ =>
    match Tab.find f.bbind c.toNat, rowDesc (f.regs.val b) with
    | some h, some (base, n) =>
      let r := (f.regs.val a).toNat
      if x.rows < r + n then trapAt s t f 4 (BitVec.ofNat 64 (max r x.rows))
      else if n = 0 then .next (s.stepFiring t f f.regs)
      else withWork s t f (.rows c.toNat h (.tstore r) base n f.regs.pc f.icount)
    | _, _ => trapAt s t f 3 w)

/-- mrowc (R397). -/
def execMrowc (c n b : BitVec 5) (s : State) : Res :=
  let w := wordOf (.mrowc c n b)
  onCtx w s [b] c (fun t f x m =>
    match Tab.find f.bbind c.toNat, rowDesc (f.regs.val b), f.cRate x n.toNat with
    | some h, some (base, k), some rate =>
      let i := Tab.get 0 f.ridx n.toNat
      if (s.graph f.job).wIn x n.toNat ≠ 64 then trapAt s t f 3 w
      else if rate < i + k * rowToks m.afmt then trapAt s t f 5 (BitVec.ofNat 64 n.toNat)
      else if k = 0 then .next (s.stepFiring t f f.regs)
      else withWork s t { f with ridx := Tab.put 0 f.ridx n.toNat (i + k * rowToks m.afmt) }
        (.rows c.toNat h (.chan n.toNat i) base k f.regs.pc f.icount)
    | _, _, _ => trapAt s t f 3 w)

/-- mrep (R397, R438). -/
def execMrep (c r b : BitVec 5) (s : State) : Res :=
  let w := wordOf (.mrep c r b)
  onCtx w s [b] c (fun t f x m =>
    match Tab.find f.bbind c.toNat, rowDesc (f.regs.val b), Tab.find x.nodes r.toNat with
    | some h, some (base, k), some _ =>
      if rowLen ((x.ctxs.map (fun e => e.2.afmt)).headD 0) ≠ rowLen m.afmt then trapAt s t f 3 w
      else if k = 0 then .next (s.stepFiring t f f.regs)
      else withWork s t f (.rows c.toNat h (.node r.toNat) base k f.regs.pc f.icount)
    | _, _, _ => trapAt s t f 3 w)

/-- mzero (R394). -/
def execMzero (c : BitVec 5) (s : State) : Res :=
  onCtx (wordOf (.mzero c)) s [] c (fun t f _ _ => withWork s t f (.zero c.toNat))

/-- mdrain (R398). -/
def execMdrain (c a b : BitVec 5) (s : State) : Res :=
  let w := wordOf (.mdrain c a b)
  onCtx w s [a, b] c (fun t f x m =>
    match drainDesc m.int (f.regs.val b) with
    | some (sat, fmt, n, base) =>
      let r := (f.regs.val a).toNat
      if x.rows < r + n then trapAt s t f 4 (BitVec.ofNat 64 (max r x.rows))
      else withWork s t f (.drain c.toNat r base n fmt sat)
    | none => trapAt s t f 3 w)

/-- mwait (R399). -/
def execMwait (s : State) : Res :=
  onSeq s [] [] (fun t f =>
    let (s, f) := s.settleWork f.workBound f
    if f.mwork ≠ [] then .next (s.setFiring t f)
    else
      let (s, f) := s.mergeFlags f
      .next (s.stepFiring t f f.regs))

end Sys2Proof.Machine
end

