-- ==== Sys2Proof/Machine/Commit.lean ====
section
/-! DEFINITION. The commit of a firing (R155), its end (R342), the end of an actor (R163), and the instructions of the
group CTL (R341, R342, R423) with the words that are illegal or reserved (R292, R315). -/

namespace Sys2Proof.Machine

/-! The end of an actor (R163). -/

/-- The channels of all outbound endpoints of an actor. -/
def Actor.outAll (a : Actor) : List Nat := a.outCh.flatMap (·.2)

/-- Whether a completion firing of an actor is pending (R160, R201). -/
def Actor.pendingComp (a : Actor) : Bool := a.comps.any (·.done)

/-- Sends the end marks of an ended actor once no completion firing of it is pending (R163). -/
def Graph.markEnds (g : Graph) (aid : Nat) : Graph :=
  let a := g.actor aid
  if !a.ended || a.pendingComp then g else
  { g with chans := g.chans.map (fun (e : Nat × Chan) => if a.outAll.contains e.1 then (e.1, { e.2 with ending := true }) else e) }

/-- Ends an actor: the tokens left in its inbound channels and in those of its repeat nodes are discarded, end marks follow its tokens, and the
deliveries left to a fault actor go to the host fault queue (R163, R287). -/
def State.endActor (s : State) (j aid : Nat) : State :=
  if !s.hasGraph j then s else
  let g := s.graph j
  let a := g.actor aid
  let mine := fun c : Chan => c.dst.aid? = some aid
  let g := g.setActor aid { a with ended := true, deliveries := [] }
  let g := (g.chans.filter (fun e => mine e.2)).foldl (fun g e => g.wake e.2.src) { g with
    chans := g.chans.map (fun (e : Nat × Chan) => if mine e.2 then (e.1, { e.2 with buf := [], transit := [] }) else e) }
  let g := g.markEnds aid
  a.deliveries.foldl (fun s c => s.takeCause j c) (s.setGraph j g)

/-! The steps of commit (R155). -/

/-- How a step of commit ends: it waits, it is finished, or the firing is over. -/
inductive CStep
  | wait (s : State) (f : Firing)
  | on (s : State) (f : Firing)
  | over (s : State)

/-- Whether a firing takes steps 2, 4 and 5 (R155, R160, R286). -/
def FKind.full : FKind → Bool
  | .ordinary => true
  | _ => false

/-- Step 1: it waits for the matrix and lane work of the firing and takes its flags (R155, R183, R384). -/
def State.commit1 (s : State) (f : Firing) : CStep :=
  let (s, f) := s.settleWork f.workBound f
  if f.mwork ≠ [] || f.run.any (fun r => !r.finished f.lane) then .wait s f
  else
    let f := match f.run with
      | some r => f.mergeRun r
      | none => f
    let (s, f) := s.mergeFlags f
    .on s f

/-- Step 2: the rate check (R155, R357). -/
def State.commit2 (s : State) (t : Nat) (f : Firing) : CStep :=
  if !f.kind.full then .on s f else
  match (s.actor f.job f.aid).outs.find? (fun e => Tab.get 0 f.sent e.1 ≠ e.2) with
  | some e => .over (s.raise t f 5 (BitVec.ofNat 64 (64 + e.1)))
  | none => .on s f

/-- Whether a record of the commit buffer carries dross. -/
def CItem.dross : CItem → Bool
  | .store _ _ _ _ _ bs _ => anyDross bs
  | .posted _ _ bs => anyDross bs
  | .atomic _ _ _ _ _ x _ => x
  | .fence _ _ => false

/-- Whether a step 6 effect carries dross. -/
def Eff6.dross : Eff6 → Bool
  | .kick _ _ x => x
  | .kickReg _ _ _ _ x => x
  | _ => false

/-- The progress of step 3 through the commit buffer: a handler-RAM store that waits for the scoreboard holds back
the later ones (R194), and the fences put accesses before others (R218). -/
structure Issue where
  s : State
  held : List CItem := []
  fenced : List (Nat × List Nat) := []
  ahead : List Nat := []

/-- The posted stores of a firing on their way to the granule of an access: a committed store is performed after them, so that the
last store of the firing to a byte stands (R349, R353). -/
def State.postedTo (s : State) (f : Firing) (x : Access) : List Access :=
  (s.own f).filter (fun a => a.cls = 15 && a.writes && a.sameGranule x)

/-- Performs or sends one record at step 3 (R155, R194, R211, R218, R349). -/
def Issue.item (f : Firing) (q : Issue) (x : CItem) : Issue :=
  let src := Src.firing f.job f.aid
  let sec := q.s.jobSecure f.job
  match x with
  | .posted _ _ _ => q
  | .fence m dom =>
    let (e, s) := q.s.fenceOf src (f.mark.getD q.s.nextId) m dom
    { q with s := s, fenced := q.fenced ++ [e], ahead := q.ahead ++ e.2 }
  | .store .hram a _ _ _ bs _ =>
    if q.held ≠ [] || (q.s.graph f.job).meets f.aid false a bs.length true true then { q with held := q.held ++ [x] }
    else
      let y := q.s.actor f.job f.aid
      { q with s := q.s.setActor f.job f.aid { y with hram := y.hram.store a bs } }
  | .store .glob a cls grp tgt bs after =>
    let (id, s) := q.s.newId
    let x : Access := { id := id, grp := grp, req := grp, src := src, cls := cls, kind := .store bs, va := a, tgt := tgt,
                        node := some (sliceOf (s.pasidOf f.job) a), pasid := s.pasidOf f.job, world := sec }
    { q with s := s.sendAccess { x with after := after ++ afterOf q.fenced cls ++ (s.postedTo f x).map (·.id) } }
  | .atomic a cls tgt op data dross after =>
    let (id, s) := q.s.newId
    { q with s := s.sendAccess { id := id, grp := id, req := id, src := src, cls := cls, kind := .atomic op data 0 dross 8, va := a,
                                 node := some (sliceOf (s.pasidOf f.job) a), pasid := s.pasidOf f.job, tgt := tgt, world := sec, after := after ++ afterOf q.fenced cls } }

/-- Whether a firing kicks or launches: a release over all classes (R221, R422). -/
def Firing.releasesAll (f : Firing) : Bool :=
  f.launches ≠ [] || f.eff6.any (fun e => match e with
    | .kick _ _ _ => true
    | .kickReg _ _ _ _ _ => true
    | _ => false)

/-- The accesses of a firing that step 3 of its commit waits for (R155, R212, R349): all that are still on their way, but for those
of a firing that sends tokens and neither kicks nor launches which no release of it covers and no fence puts before one
(R213, R218, R221). DEDUCED, notes/assumptions/8.md -/
def State.awaited (s : State) (f : Firing) : List Access :=
  (s.own f).filter (fun a => f.out = [] || f.releasesAll || f.ahead.contains a.id ||
    f.out.any (fun o => o.ids.contains a.id || (f.mark.any (fun m => m ≤ a.id) && o.mask.testBit a.cls)))

/-- Whether an access of a firing is performed before step 3: a load or an atomic that was issued (R212). -/
def Access.beforeStep3 (a : Access) : Bool :=
  match a.kind with
  | .load _ => true
  | .atomic _ _ _ _ _ => true
  | _ => false

/-- Step 3: the commit buffer's stores and atomics are performed (R155), once the loads and the issued atomics have been (R212). -/
def State.commit3 (s : State) (f : Firing) : CStep :=
  if f.mark.isNone && (s.own f).any Access.beforeStep3 then .wait s f else
  let f : Firing := match f.mark with
    | some _ => f
    | none => { f with
        mark := some s.nextId, replay := false,
        drossOut := f.drossOut || f.out.any (fun o => o.tok.dross) || f.cbuf.any CItem.dross || f.eff6.any Eff6.dross }
  let q := f.cbuf.foldl (Issue.item f) { s := s }
  let f := { f with cbuf := q.held, ahead := f.ahead ++ q.ahead }
  if q.held ≠ [] || q.s.awaited f ≠ [] then .wait q.s f else .on q.s f

/-- Takes the tokens of the groups that a firing finished out of a repeat node's channels (R439). -/
def Graph.consumeNode (g : Graph) (n : RepNode) : Graph :=
  (g.consume n.rowCh n.gone).consume n.cntCh n.taken

/-- Step 4: exactly c tokens leave each inbound channel (R155), and those of the repeat nodes (R439). -/
def State.commit4 (s : State) (f : Firing) : CStep :=
  let g := s.graph f.job
  let a := g.actor f.aid
  let g := if f.kind.full then a.ins.foldl (fun g e => g.consume (Tab.get 0 a.inCh e.1) e.2) g else g
  let g := a.nodes.foldl (fun g e => g.consumeNode e.2) g
  let g := g.setActor f.aid { g.actor f.aid with nodes := a.nodes.map (fun e => (e.1, { e.2 with taken := 0, gone := 0 })) }
  .on (s.setGraph f.job g) f

/-- A token as a branch narrower than its fork receives it (R165). -/
def Token.narrow (t : Token) (w : Nat) : Token := { t with data := BitVec.ofNat 512 (t.data.toNat % 2 ^ (8 * w)) }

/-- Releases one token to every branch (R155, R165). -/
def Graph.release (g : Graph) (a : Actor) (o : OutTok) : Graph :=
  (g.outChans a o.ep).foldl (fun g c =>
    let x := g.chan c
    g.setChan c { x with transit := x.transit ++ [o.tok.narrow x.width] }) g

/-- Step 5: the outbound tokens are released for delivery (R155). -/
def State.commit5 (s : State) (f : Firing) : CStep :=
  if !f.kind.full then .on s f else
  let g := s.graph f.job
  .on (s.setGraph f.job (f.out.foldl (fun g o => g.release (g.actor f.aid) o) g)) f

/-- The effects of step 6 in program order, up to the first that must wait (R195, R203). -/
def State.effects (s : State) (j aid : Nat) : List Eff6 → State × List Eff6
  | [] => (s, [])
  | e :: t =>
    match s.effect j aid e with
    | some s => if s.hasGraph j then State.effects s j aid t else (s, [])
    | none => (s, e :: t)

/-- Step 6: kicks take effect, and reserved launches become pending (R155). -/
def State.commit6 (s : State) (t : Nat) (f : Firing) : CStep :=
  let (s, rest) := s.effects f.job f.aid f.eff6
  if !s.hasGraph f.job then .over s else
  let f := { f with eff6 := rest }
  if rest ≠ [] then .wait s f
  else
    let s := f.launches.foldl (fun s l => s.spawn f.job f.aid l) s
    .on (s.setFiring t { f with launches := [] }) { f with launches := [] }

/-- The UNIT of an assay bank for the UNIT of an origin word (R277, R299). DEDUCED, notes/assumptions/30.md -/
def bankUnit (u : Nat) : Nat :=
  match u with
  | 0 => 0
  | 5 => 2
  | 6 => 4
  | _ => 1

/-- The deferred record of a firing that has emitted dross (R277, R297). -/
def State.logOrigin (s : State) (t : Nat) (f : Firing) : State :=
  match f.origin with
  | some (_, w) => if f.drossOut then s.addRecord t 2 (bankUnit (fld w 31 28)) 0 f.aid (BitVec.ofNat 64 (fld w 47 32)) w else s
  | none => s

/-- Applies one change of a subscription (R416). -/
def subscribe (subs : List Nat) (c : Nat × Bool) : List Nat :=
  if c.2 then (if subs.contains c.1 then subs else subs ++ [c.1]) else subs.filter (· ≠ c.1)

/-- The actor as its firing leaves it (R155 step 7, R395, R416, R420). -/
def Firing.leave (f : Firing) (a : Actor) : Actor :=
  let a := { a with w0 := f.w0, w1 := f.w1, gctr := f.gctr, fflags := f.fflags, lane := f.lane, gens := f.gens,
                    subs := f.tags.foldl subscribe a.subs,
                    comps := match f.kind with
                      | .completion _ _ => a.comps.tail
                      | _ => a.comps.map (fun (c : Completion) => if f.waited.contains c.uid then { c with waited := true } else c) }
  a.releaseSlots f.rels

/-- What the end of a firing means for traps: a NOMEM is posted (R206, R286), and a fault firing settles its delivery
or, with a cause of its own, aborts the graph (R287). -/
def State.endTrap (s : State) (t : Nat) (f : Firing) : State :=
  match f.kind, f.nomem with
  | .fault _, some _ => s.abortGraph f.job stFault { code := 101, tval := BitVec.ofNat 64 f.aid }
  | .fault c, none => s.settle f.job f.aid c
  | _, some c => s.postCause t f.job c
  | _, none => s

/-- The round of an alloy without barriers: one for each committed firing of its lowest member (R128). -/
def State.firingRound (s : State) (f : Firing) : State :=
  let k := (s.actor f.job f.aid).alloy
  match Tab.find (s.graph f.job).alloys k with
  | some al => if al.barriers = 0 && al.members.all (fun m => f.aid ≤ m) then s.round f.job k else s
  | none => s

/-- The end of the actor of a firing that executed aend: after a completion firing, once its other pending completion firings have
run (R342). -/
def State.close (s : State) (f : Firing) (ends : Bool) : State :=
  if !s.hasGraph f.job then s else
  let a := s.actor f.job f.aid
  match f.kind with
  | .completion _ _ =>
    if !(ends || a.closing) then s
    else if a.pendingComp then s.setActor f.job f.aid { a with closing := true }
    else (s.setActor f.job f.aid { a with closing := false }).endActor f.job f.aid
  | _ => if ends then s.endActor f.job f.aid else s

/-- Step 7: the firing's values become the actor's, and the firing is over (R155). -/
def State.commit7 (s : State) (t : Nat) (f : Firing) (ends : Bool) : State :=
  let s := s.logOrigin t f
  let g := s.graph f.job
  let g := (g.setActor f.aid (f.leave (g.actor f.aid))).markEnds f.aid
  let s := s.setGraph f.job g
  let s := s.setTile t { s.tile t with firing := none }
  let s := (s.endTrap t f).firingRound f
  s.close f ends

/-- The steps of commit from a step on, as far as they go. -/
def State.commitRun : Nat → State → Nat → Firing → Nat → Bool → State
  | 0, s, _, _, _, _ => s
  | n + 1, s, t, f, step, ends =>
    let r := match step with
      | 1 => s.commit1 f
      | 2 => s.commit2 t f
      | 3 => s.commit3 f
      | 4 => s.commit4 f
      | 5 => s.commit5 f
      | 6 => s.commit6 t f
      | _ => .over (s.commit7 t f ends)
    match r with
    | .wait s f => s.setFiring t { f with phase := .commit step ends }
    | .on s f => State.commitRun n s t f (step + 1) ends
    | .over s => s

/-- The start of a commit (R155, R342). -/
def State.startCommit (s : State) (t : Nat) (f : Firing) (ends : Bool) : State :=
  State.commitRun 7 s t { f with icount := f.icount + 1 } 1 ends

/-- COMMIT_CONTINUE (R123, R155). -/
def execCommitContinue (tile : Nat) (s : State) : Res :=
  if (s.block tile).stopped then disabled "COMMIT_CONTINUE" else
  match (s.tile tile).firing with
  | some f =>
    match f.phase with
    | .commit step ends =>
      let s' := State.commitRun 7 s tile f step ends
      if (s'.tile tile).firing = some f then disabled "COMMIT_CONTINUE" else .next s'
    | _ => disabled "COMMIT_CONTINUE"
  | none => disabled "COMMIT_CONTINUE"

/-! The group CTL (R341, R342, R423). -/

/-- commit (R155, R342). -/
def execCommit (s : State) : Res := onSeq s [] [] (fun t f => .next (s.startCommit t f false))

/-- aend (R159, R342). -/
def execAend (s : State) : Res := onSeq s [] [] (fun t f => .next (s.startCommit t f true))

/-- yield (R159, R342): an empty firing of a replayable ordinary firing; the actor then sleeps until a token or free
space arrives. -/
def execYield (s : State) : Res :=
  onSeq s [] [] (fun t f =>
    match f.kind with
    | .fault c => .next (s.abortGraph f.job stFault c)
    | .completion _ _ => trapAt s t f 5 128
    | .ordinary =>
      if !f.replay then trapAt s t f 5 128
      else
        match s.lateFoul f, s.lateNomem f with
        | some c, _ => .next (s.abortGraph f.job stWorld c)
        | none, some c => .next (((s.lateNotices f).rollback t f).postCause t f.job { c with suspends := true })
        | none, none =>
          let s := (s.lateNotices f).rollback t f
          .next (s.setActor f.job f.aid { s.actor f.job f.aid with asleep := true }))

/-- trap (R423): the value is that of the register, whatever its dross. -/
def execTrap (a : BitVec 5) (s : State) : Res := onSeq s [a] [] (fun t f => trapAt s t f 8 (f.regs.val a))

/-- ldepth (R423). -/
def execLdepth (d : BitVec 5) (s : State) : Res :=
  onSeq s [] [] (fun t f => .next (s.stepFiring t f (f.regs.wr d (BitVec.ofNat 64 (s.job f.job).depth) false)))

/-- A compatibility-reserved word: the Fewin's table is empty (R292). -/
def execCompat (m : BitVec 2) (x : BitVec 26) (s : State) : Res :=
  onSeq s [] [] (fun t f => trapAt s t f 2 (wordOf (.compat m x)))

/-- A word that is not an instruction (R315). -/
def execIllegalInstruction (w : W32) (s : State) : Res :=
  onSeq s [] [] (fun t f => trapAt s t f 1 (w.zeroExtend 64))

end Sys2Proof.Machine
end

