-- ==== Sys2Proof/Machine/Sync.lean ====
section
/-! DEFINITION. Barriers and subscriptions (R414 to R416), reconfiguration (R417 to R420) and launches (R421, R422). -/

namespace Sys2Proof.Machine

/-! The group SYNC (R414). -/

/-- Past a barrier that a firing has reached: its generation count goes up (R168). -/
def State.passBar (s : State) (t : Nat) (f : Firing) (b : Nat) : State :=
  s.stepFiring t { f with phase := .running, gens := Tab.put 0 f.gens b (Tab.get 0 f.gens b + 1) } f.regs

/-- bar (R168, R169, R415): the arrival waits for the actor's accesses that it releases; a generation that is
complete passes at once. -/
def execBar (n : BitVec 5) (s : State) : Res :=
  onSeq s [] [] (fun t f =>
    let b := n.toNat
    let al := Tab.get {} (s.graph f.job).alloys (s.actor f.job f.aid).alloy
    if !f.kind.full || al.barriers ≤ b then trapAt s t f 3 (wordOf (.bar n))
    else match f.phase with
    | .bar _ true => .next (s.passBar t f b)
    | .bar _ false => .next s
    | _ =>
      if s.flying f.job f.aid ≠ [] then .next s
      else if Tab.get 0 f.gens b < Tab.get 0 al.gens b then .next (s.passBar t f b)
      else .next (s.setFiring t { f with phase := .bar b false }))

/-- Whether a member has arrived at the generation that a barrier stands at, or has ended (R168). -/
def State.arrived (s : State) (j b g aid : Nat) : Bool :=
  (s.actor j aid).ended || (s.firingOf j aid).any (fun x => x.2.phase = .bar b false && Tab.get 0 x.2.gens b = g)

/-- BARRIER_PASS (R168, R169): the generation completes, the waiting firings pass, and the round count advances. -/
def execBarrierPass (job alloy bar : Nat) (s : State) : Res :=
  match Tab.find (s.graph job).alloys alloy with
  | none => disabled "BARRIER_PASS"
  | some al =>
    let g := Tab.get 0 al.gens bar
    let waits := al.members.filter (fun m => !(s.actor job m).ended && s.arrived job bar g m)
    if !s.hasGraph job || al.barriers ≤ bar || waits = [] || !al.members.all (s.arrived job bar g) then
      disabled "BARRIER_PASS"
    else
      let gr := s.graph job
      let s := s.setGraph job { gr with alloys := Tab.set gr.alloys alloy { al with gens := Tab.put 0 al.gens bar (g + 1) } }
      let s := waits.foldl (fun s m => match s.firingOf job m with
        | some (t, f) => s.setFiring t { f with phase := .bar bar true }
        | none => s) s
      .next (s.round job alloy)

/-- The subscriptions that a tile's match table holds, with the changes of a firing (R192, R416). -/
def State.matchTable (s : State) (t : Nat) (f : Firing) : Nat :=
  ((s.residents t).map (fun r =>
    if r.1 = f.job && r.2.1 = f.aid then (f.tags.foldl subscribe r.2.2.subs).length else r.2.2.subs.length)).foldl (· + ·) 0

/-- subs and unsubs (R416): pending until commit step 7. -/
def subscription (w : W64) (s : State) (a : BitVec 5) (on : Bool) : Res :=
  onSeq s [a] [] (fun t f =>
    let x := f.regs.val a
    if f.regs.drossS a then trapAt s t f 7 w
    else if fld x 63 16 ≠ 0 then trapAt s t f 3 w
    else
      let f' : Firing := { f with tags := f.tags ++ [(x.toNat, on)] }
      if on && decide (16 < s.matchTable t f') then .next (s.raiseConfig f)
      else .next (s.stepFiring t f' f.regs))

/-- subs (R416). -/
def execSubs (a : BitVec 5) (s : State) : Res := subscription (wordOf (.subs a)) s a true

/-- unsubs (R416). -/
def execUnsubs (a : BitVec 5) (s : State) : Res := subscription (wordOf (.unsubs a)) s a false

/-! The validity of a configuration set (R187, R317, R318). -/

/-- The formats that RND 4 may go with (R187). -/
def isRounded (f : Nat) : Bool := isFloatFmt f || f = 9 || f = 0xB || f = 0xC

/-- The configuration word of one element (R187); an element in MODE 3 ignores MAIN and ALT. The codes that R186 calls
not used are refused. DEDUCED, notes/assumptions/33.md -/
def LaneSet.wordOk (l : LaneSet) (n : Nat) : Bool :=
  let w := (l.word n).toNat
  let width := bitsOf w 17 16
  bitsOf w 15 0 = 0 && decide (width < 3) && decide (l.rnd n ≤ 4) &&
    (if l.mode n = 3 then n = 15
     else decide (l.alt n ≤ 0xD) && decide (l.main n ≤ 8) && fmtBits (l.main n) = 8 * 2 ^ width &&
       (l.main n = 8) = (l.mode n = 2) && (l.rnd n ≠ 4 || isRounded (l.main n) || isRounded (l.alt n)))

/-- The stream operation word of an element in MODE 1 (R317). -/
def LaneSet.opOk (l : LaneSet) (n : Nat) : Bool :=
  let w := (l.opWord n).toNat
  let f := l.opFunc n
  bitsOf w 23 16 = 0 && (l.wAt n ≠ 1 || bitsOf w 15 8 = 0) &&
    (if l.opFp n then decide (f ≤ 3) || (decide (7 ≤ f) && decide (f ≤ 0xB)) else decide (f ≤ 0x12) || f = 0x7F)

/-- One operand selection of an element (R318). -/
def LaneSet.selOk (l : LaneSet) (a : Actor) (n sel : Nat) : Bool :=
  match sel with
  | 0 => decide (n ≠ 0)
  | 1 => decide (n ≠ 15)
  | 2 => (a.cRate (l.epIn n)).isSome
  | 3 => true
  | _ => false

/-- The switch words of an element in MODE 1 (R318). -/
def LaneSet.switchOk (l : LaneSet) (a : Actor) (n : Nat) : Bool :=
  bitsOf (l.swi n).toNat 3 0 = 0 && bitsOf (l.swo n).toNat 7 0 = 0 && decide (l.selA n ≤ 3) && decide (l.selB n ≤ 3) &&
    (l.sels n).all (l.selOk a n) &&
    (match l.dest n with
      | 0 => decide (n ≠ 15)
      | 1 => decide (n ≠ 0)
      | 2 => (a.pRate (l.epOut n)).isSome
      | _ => false)

/-- Whether the reserved bits of an element's operation and switch words are zero, in any mode (R7, R317, R318). -/
def LaneSet.reservedOk (l : LaneSet) (n : Nat) : Bool :=
  bitsOf (l.opWord n).toNat 23 16 = 0 && bitsOf (l.swi n).toNat 3 0 = 0 && bitsOf (l.swo n).toNat 7 0 = 0

/-- A valid set (R187, R317, R318). The other fields of the operation and switch words of an element outside stream mode are not
looked at. DEDUCED, notes/assumptions/33.md -/
def LaneSet.valid (l : LaneSet) (a : Actor) : Bool :=
  allElts.all l.wordOk &&
    (!(l.simd || l.online) || allElts.all (fun n => l.wAt n = l.wAt 0)) &&
    (allElts.all (fun n => l.mode n ≠ 2) || l.online) &&
    allElts.all l.reservedOk && l.runners.all (fun n => l.opOk n && l.switchOk a n)

/-! The group CFG (R417 to R420). -/

/-- cfgdrn (R418). -/
def execCfgdrn (s : State) : Res :=
  onSeq s [] [] (fun t f =>
    if f.drained then .next (s.stepFiring t f f.regs)
    else match f.run with
    | some _ => .next (s.setFiring t { f with phase := .vswt })
    | none => .next (s.stepFiring t { f with phase := .running, drained := true, staging := f.lane } f.regs))

/-- The staging set with one part replaced by 64 bytes (R417). -/
def LaneSet.load (l : LaneSet) (k : Nat) (bs : List Byte) : LaneSet :=
  let at4 := fun i => BitVec.ofNat 32 (leNat ((bs.drop (4 * i)).take 4))
  let at2 := fun i => BitVec.ofNat 16 (leNat ((bs.drop (2 * i)).take 2))
  match k with
  | 0 => { l with cfg := (List.range 16).foldl (fun m i => Tab.put 0 m i (at4 i)) l.cfg }
  | 1 => { l with op := (List.range 16).foldl (fun m i => Tab.put 0x7F000000 m i (at4 i)) l.op }
  | _ => { l with sw := (List.range 32).foldl (fun m i => Tab.put 0 m i (at2 i)) l.sw }

/-- cfgld (R417, R418). -/
def execCfgld (k a : BitVec 5) (s : State) : Res :=
  let w := wordOf (.cfgld k a)
  onSeq s [a] [] (fun t f =>
    let lo := (f.regs.val a).toNat
    if !f.drained || 2 < k.toNat then trapAt s t f 3 w
    else if f.regs.drossS a then trapAt s t f 7 w
    else if !inAlloc lo 64 (s.actor f.job f.aid).ramLen then trapAt s t f 4 (f.regs.val a)
    else if (s.graph f.job).meets f.aid false lo 64 true false then .next s
    else
      let bs := s.ramBytes f lo 64
      if anyDross bs then trapAt s t f 7 w
      else .next (s.stepFiring t { f with staging := f.staging.load k.toNat (bs.map (·.1)) } f.regs))

/-- cfgrun (R418). -/
def execCfgrun (s : State) : Res :=
  onSeq s [] [] (fun t f =>
    if !f.drained then trapAt s t f 3 (wordOf .cfgrun)
    else if !f.staging.valid (s.actor f.job f.aid) then .next (s.raiseConfig f)
    else .next (s.stepFiring t { f with lane := f.staging, drained := false } f.regs))

/-- cfgset (R419): it waits for the work of the context. The word of the lowest context gives the tokens of a row (R438). -/
def execCfgset (c a : BitVec 5) (s : State) : Res :=
  onCtx (wordOf (.cfgset c a)) s [] c (fun t f x m =>
    if f.regs.busy [a] [] then .next s
    else if (f.head c.toNat).isSome then
      let (s, f) := s.settleWork f.workBound f
      .next (s.setFiring t f)
    else
      let w := (f.regs.val a).truncate 32
      if !ctxWordOk w then .next (s.raiseConfig f)
      else
        let x : Actor := { x with ctxs := Tab.set x.ctxs c.toNat { m with word := w } }
        let s := s.setActor f.job f.aid x.setToks
        .next (s.stepFiring t f f.regs))

/-! The group LNCH (R421, R422). -/

/-- A launch descriptor, if it keeps the table of R421. -/
def descriptor (bs : List Byte) (spawn : W64) : Option Launch :=
  let dw := fun i => BitVec.ofNat 64 (leNat ((bs.drop (8 * i)).take 8))
  if (dw 0).toNat % 64 = 0 ∧ (dw 1).toNat % 64 = 0 ∧ fld (dw 2) 63 48 ≤ 4096 ∧ fld (dw 2) 47 2 = 0 ∧ fld (dw 2) 1 0 ≠ 3 ∧
      (dw 3).toNat % 8 = 0 ∧ dw 6 = 0 ∧ dw 7 = 0 then
    some { image := dw 0, args := dw 1, argLen := fld (dw 2) 63 48, sigOp := fld (dw 2) 1 0, sigAddr := dw 3,
           sigVal := dw 4, jobTag := dw 5, spawn := spawn }
  else none

/-- launch (R421, R105). -/
def execLaunch (d a b : BitVec 5) (s : State) : Res :=
  let w := wordOf (.launch d a b)
  onSeq s [a, b] [] (fun t f =>
    let lo := (f.regs.val a).toNat
    if f.regs.drossS a || f.regs.drossS b then trapAt s t f 7 w
    else if lo % 8 ≠ 0 then trapAt s t f 3 w
    else if !inAlloc lo 64 (s.actor f.job f.aid).ramLen then trapAt s t f 4 (f.regs.val a)
    else if (s.graph f.job).meets f.aid false lo 64 true false then .next s
    else
      let bs := s.ramBytes f lo 64
      if anyDross bs then trapAt s t f 7 w
      else match descriptor (bs.map (·.1)) (f.regs.val b) with
      | none => trapAt s t f 3 w
      | some l =>
        let j := s.job f.job
        let k := s.kiln
        if 24 ≤ j.depth then
          let s := s.setJob f.job { j with marked := true }
          .next (s.stepFiring t f (f.regs.wr d 2 false))
        else if 8192 ≤ k.poolCnt then
          let s := { s with kiln := { k with refused := satAdd 0xFFFF k.refused 1 } }
          .next (s.stepFiring t f (f.regs.wr d 1 false))
        else
          let s := { s with kiln := { k with poolCnt := k.poolCnt + 1, poolHwm := max k.poolHwm (k.poolCnt + 1) } }
          .next (s.stepFiring t { f with launches := f.launches ++ [l] } (f.regs.wr d 0 false)))

end Sys2Proof.Machine
end

