-- ==== Sys2Proof/Machine/Flit.lean ====
section
/-! DEFINITION. The side information of fabric flits (R167): flits of data, null runs and markers. -/

namespace Sys2Proof.Machine

/-- Whether the check code of a flit's side information holds (R167). -/
def flitOk (w : W64) : Bool := decide (fld w 7 0 = Config.flitCheck (fld w 63 8) % 256)

/-- Whether the side information is that of a flit with some tokens of a channel, but for the check code (R167). CTX may be any
context: the spec names no value that the sender gives it, and a row stream's instruction names the context that its rows enter.
DEDUCED, notes/assumptions/80.md -/
def sideFits (world : Bool) (chan : Nat) (ts : List Token) (w : W64) : Bool :=
  decide (fld w 31 30 = if ts.all (·.null) then 1 else 0) && decide (fld w 47 32 = chan) && decide (fld w 26 21 + 1 = ts.length) &&
    w.getLsbD 27 = world && decide (fld w 20 8 = 0) &&
    (List.range 16).all (fun i => w.getLsbD (48 + i) = (ts[i]?).any (fun t => !t.null && t.dross))

/-- Counts an uncorrectable error in a flit that has come to a block (R167, R296): the network interface's record, with the channel,
and its notice. -/
def State.flitError (s : State) (block aid chan : Nat) : State :=
  let x := Config.syndrome s.fresh
  ({ s with fresh := s.fresh + 1 }.addRecord block 3 4 243 aid (BitVec.ofNat 64 chan) x).blockNotice block 243

/-- The tokens that enter from a flit with some side information, and whether an error is counted (R167): none where the flit is
not one of the channel's next tokens. No side information stands for that of an intact flit. -/
def flitTokens (world : Bool) (chan : Nat) (ts : List Token) (side : Option W64) : Option (List Token × Bool) :=
  match side with
  | none => some (ts, false)
  | some w =>
    if !flitOk w then some (ts.map (fun _ => { dross := true }), true)
    else if fld w 31 30 = 3 then some ([], true)
    else if sideFits world chan ts w then some (ts, false)
    else none

/-! Markers. -/

/-- A marker that may arrive (R167): its kind, the channels that it may come on, and its world; none of these where the spec does not
tie the marker to any. -/
structure MarkWant where
  kind : Nat
  chans : Option (List Nat) := none
  world : Option Bool := none
  deriving DecidableEq, Repr

/-- Whether a flit is some marker, but for the check code (R167): KIND 2, no dross bit, and the marker kind alone in the payload. -/
def MarkWant.fits (m : MarkWant) (w : W64) (payload : V512) : Bool :=
  decide (fld w 31 30 = 2) && decide (fld w 63 48 = 0) && decide (fld w 20 8 = 0) && m.chans.all (·.contains (fld w 47 32)) &&
    m.world.all (· = w.getLsbD 27) && payload = BitVec.ofNat 512 m.kind

/-- The state in which a marker has come to a block, on a flit where one is given; none where the flit is not that marker. A flit
whose check fails is counted as an uncorrectable error (R167): it has no tokens that the error could lie in, and the marker stands.
DESIGN CHOICE, notes/assumptions/80.md -/
def State.takeMark (s : State) (block aid : Nat) (m : MarkWant) (flit : Option (W64 × V512)) : Option State :=
  match flit with
  | none => some s
  | some (w, payload) =>
    if !flitOk w then some (s.flitError block aid (fld w 47 32))
    else if m.fits w payload then some s
    else none

end Sys2Proof.Machine
end

