-- ==== Sys2Proof/Machine/Silt.lean ====
section
/-! DEFINITION. The group SILT (R403 to R406) and the burst microcode (R407 to R409). -/

namespace Sys2Proof.Machine

/-! Templates and kicks (R403 to R406). -/

/-- An instruction over the template that a selector names: one of the actor's own (R403). -/
def onTemplate (w : W64) (s : State) (a : BitVec 5) (ok : Template → Bool) (e : Nat → Nat → Eff6) : Res :=
  onSeq s [a] [] (fun t f =>
    if f.regs.drossS a then trapAt s t f 7 w
    else
      let found := (siltSel (f.regs.val a)).bind (fun x => (s.graph f.job).template? x.2 x.1)
      match found with
      | some x =>
        if x.aid = f.aid && ok x then .next (s.stepFiring t { f with eff6 := f.eff6 ++ [e x.port x.num] } f.regs)
        else trapAt s t f 3 w
      | none => trapAt s t f 3 w)

/-- sarm (R403, R404). -/
def execSarm (a : BitVec 5) (s : State) : Res :=
  onTemplate (wordOf (.sarm a)) s a (fun _ => true) (fun p n => .arm p n true)

/-- sdis (R403, R404). -/
def execSdis (a : BitVec 5) (s : State) : Res :=
  onTemplate (wordOf (.sdis a)) s a (fun _ => true) (fun p n => .arm p n false)

/-- sbind (R403, R404): the template must be declared with a channel or a named queue. -/
def execSbind (a : BitVec 5) (s : State) : Res :=
  onTemplate (wordOf (.sbind a)) s a (fun x => x.declCh.isSome || x.declQ.isSome) (fun p n => .bind p n true)

/-- sunbind (R403, R404). -/
def execSunbind (a : BitVec 5) (s : State) : Res :=
  onTemplate (wordOf (.sunbind a)) s a (fun _ => true) (fun p n => .bind p n false)

/-- skick (R405): the spec states no value for a 65th entry's cause, which is a free value of the engine and the record, the same in every
run (R173). DESIGN CHOICE, notes/assumptions/83.md -/
def execSkick (d a : BitVec 5) (s : State) : Res :=
  let w := wordOf (.skick d a)
  onSeq s [a] [d] (fun t f =>
    let p := fld (f.regs.val a) 7 0
    let kr := f.regs.rdV d
    let g := s.graph f.job
    let named := s.loaded? p (krTemplate kr.val)
    if f.regs.drossS a then trapAt s t f 7 w
    else if fld (f.regs.val a) 63 8 ≠ 0 || !g.templates.any (fun x => x.port = p) ||
        named.any (fun x => !(x.1 = f.job && x.2.aid = f.aid)) then trapAt s t f 3 w
    else
      let f' : Firing := { f with eff6 := f.eff6 ++ [.kick p kr.val (decide (kr.dross ≠ 0))] }
      if 64 < f'.entries then trapAt s t f 6 (Config.openKick p kr.val)
      else .next (s.stepFiring t f' f.regs))

/-- swait (R406): it waits until the tile knows of the mailbox release of each copy that the actor has kicked under this
identity, so that the completion firing runs at the next boundary (R160). DEDUCED, notes/assumptions/34.md -/
def execSwait (a : BitVec 5) (s : State) : Res :=
  onSeq s [a] [] (fun t f =>
    let x := f.regs.val a
    if f.regs.drossS a then trapAt s t f 7 (wordOf (.swait a))
    else
      let cs := (s.actor f.job f.aid).comps.filter (fun c => c.cxid = x && !c.bound)
      if cs.any (fun c => !c.done) then .next (s.setFiring t { f with phase := .swait x })
      else .next (s.stepFiring t { f with phase := .running, waited := f.waited ++ cs.map (·.uid) } f.regs))

/-! Burst microcode (R407 to R409). -/

/-- A burst instruction: microcode only (R315). It waits until the reads into the buffer have completed (R408). -/
def onBurst (w : W64) (s : State) (ss : List (BitVec 5)) (k : Nat → Copy → Regs → Res) : Res :=
  onEither s ss [] (fun t f => trapAt s t f 1 w) (fun p c r =>
    if s.inflight.any (fun a => a.src.ofEngine p && (match a.dest with
      | .burst _ => true
      | _ => false)) then .next s
    else if ss.any r.drossS then drossUse s w
    else k p c r)

/-- The template of a copy. -/
def State.copyTemplate (s : State) (p : Nat) (c : Copy) : Template :=
  ((s.graph c.job).template? p c.tmpl).getD {}

/-- The end of a completed segment (R409). -/
def Copy.nextSeg (c : Copy) : Copy := { c with seg := c.seg + 1 }

/-- The allocation of a local space in an actor: its contents and its length. -/
def Actor.space (a : Actor) (sp : Nat) : Memory × Nat :=
  if sp = 1 then (a.tstore, 256 * a.rows) else (a.hram, a.ramLen)

/-- The actor with bytes written into a local space. -/
def Actor.storeSpace (a : Actor) (sp lo : Nat) (bs : Bytes) : Actor :=
  if sp = 1 then { a with tstore := a.tstore.store lo bs } else { a with hram := a.hram.store lo bs }

/-- brd (R407, R408). -/
def execBrd (d a b : BitVec 5) (s : State) : Res :=
  onBurst (wordOf (.brd d a b)) s [d, a, b] (fun p c r =>
    let lo := (r.val d).toNat
    let ad := (r.val a).toNat
    match burstWord (r.val b) with
    | none => .next (s.mcode p c)
    | some (sp, n) =>
      if sp = 3 then .next (s.mcode p c)
      else if n = 0 then .next (s.stepEngine p r)
      else if 4096 < lo + n ∨ 2 ^ 64 < ad + n then .next (s.mcode p c)
      else if sp = 0 then
        onGlobalE s p c ad n false (fun s c ps =>
          let (nps, s) := State.number (ps.map Piece.noWindow) s
          let req := (nps.map (·.1)).headD 0
          let s := s.sendAccesses (nps.map (fun (e : Nat × Piece) =>
            ({ id := e.1, grp := c.uid, req := req, src := c.src p, cls := (s.copyTemplate p c).cls, kind := .load e.2.len, va := e.2.va,
               tgt := e.2.tgt, node := some (sliceOf (s.pasidOf c.job) e.2.va), pasid := s.pasidOf c.job, dest := .burst (lo + (e.2.va - ad)), world := s.jobSecure c.job,
               after := afterOf c.fenced (s.copyTemplate p c).cls } : Access)))
          .next ((s.setCopy p c).stepEngine p r))
      else
        let (m, len) := (s.actor c.job c.aid).space sp
        if len < ad + n then .next (s.breakCopy p c 4 (BitVec.ofNat 64 ad))
        else
          let bs := m.reads ad n
          .next ((s.setCopy p { c with buf := c.buf.store lo bs, dross := c.dross || anyDross bs }).stepEngine p r))

/-- The writes of a broadcast: the bytes that each subscriber's allocation holds (R166, R408). -/
def State.broadcast (s : State) (c : Copy) (ad : Nat) (bs : Bytes) : State :=
  c.subs.foldl (fun s aid =>
    let a := s.actor c.job aid
    s.setActor c.job aid (a.storeSpace 1 ad (bs.take (256 * a.rows - ad)))) s

/-- bwr (R407 to R409). -/
def execBwr (d a b : BitVec 5) (s : State) : Res :=
  onBurst (wordOf (.bwr d a b)) s [d, a, b] (fun p c r =>
    let ad := (r.val d).toNat
    let lo := (r.val a).toNat
    match burstWord (r.val b) with
    | none => .next (s.mcode p c)
    | some (sp, n) =>
      let bs := c.buf.reads lo n
      let done := fun (s : State) (c : Copy) => (.next ((s.setCopy p c.nextSeg).stepEngine p r) : Res)
      if n = 0 then done s c
      else if 4096 < lo + n ∨ 2 ^ 64 < ad + n then .next (s.mcode p c)
      else match sp with
      | 0 =>
        onGlobalE s p c ad n true (fun s c ps =>
          let (nps, s) := State.number (ps.map Piece.noWindow) s
          let req := (nps.map (·.1)).headD 0
          let s := s.sendAccesses (nps.map (fun (e : Nat × Piece) =>
            ({ id := e.1, grp := c.uid, req := req, src := c.src p, cls := (s.copyTemplate p c).cls,
               kind := .store ((bs.drop (e.2.va - ad)).take e.2.len), va := e.2.va, tgt := e.2.tgt,
               node := some (sliceOf (s.pasidOf c.job) e.2.va), pasid := s.pasidOf c.job,
               world := s.jobSecure c.job, after := afterOf c.fenced (s.copyTemplate p c).cls } : Access)))
          done s c)
      | 3 => done (s.broadcast c ad bs) c
      | _ =>
        let x := s.actor c.job c.aid
        if (x.space sp).2 < ad + n then .next (s.breakCopy p c 4 (BitVec.ofNat 64 ad) true)
        else done (s.setActor c.job c.aid (x.storeSpace sp ad bs)) c)

/-- bfill (R407, R408): the marks are clean whatever the dross of s[a], which gives data and no address. DEDUCED, notes/assumptions/9.md -/
def execBfill (d a b : BitVec 5) (s : State) : Res :=
  onBurst (wordOf (.bfill d a b)) s [d, b] (fun p c r =>
    if r.busy [a] [] then .next s else
    let lo := (r.val d).toNat
    match burstWord (r.val b) with
    | none => .next (s.mcode p c)
    | some (sp, n) =>
      if sp ≠ 0 then .next (s.mcode p c)
      else if n = 0 then .next (s.stepEngine p r)
      else if 4096 < lo + n then .next (s.mcode p c)
      else
        let x := r.val a
        let bs := clean ((List.range n).map (fun i => x.extractLsb' (8 * (i % 8)) 8))
        .next ((s.setCopy p { c with buf := c.buf.store lo bs }).stepEngine p r))

/-- mbrel (R407, R408, R201): the release waits for every access of the copy; the copy then ends. -/
def execMbrel (a : BitVec 5) (s : State) : Res :=
  onBurst (wordOf (.mbrel a)) s [a] (fun p c r =>
    if r.val a ≠ c.cxid then .next (s.mcode p c)
    else if s.inflight.any (fun x => x.src.ofCopy p c.uid) then .next s
    else .next (s.endCopy p c (if c.dross then 1 else 0)))

end Sys2Proof.Machine
end

