-- ==== Sys2Proof/Machine/Save.lean ====
section
/-! DEFINITION. Errors in tile memories (R296, R297), and the context image in the save area (R172, R304 to R306). -/

namespace Sys2Proof.Machine

/-- The requesters of a job, each with its port. -/
def State.reqsOf (s : State) (j : Nat) : List (Nat × Requester) :=
  s.ports.flatMap (fun e => (e.2.reqs.filter (fun r => r.2.job = j)).map (fun r => (e.1, r.2)))

/-- The requesters whose reply buffers lie in the tile of an actor: those whose replies it consumes (R428). -/
def State.repliesTo (s : State) (j aid : Nat) : List Requester :=
  ((s.reqsOf j).map (·.2)).filter (fun r => ((s.graph j).outsOf r.stream).any (fun c => ((s.graph j).chan c).dst.aid? = some aid))

/-! Errors in the tile (R296). -/

/-- A memory with one granule poisoned. -/
def Memory.poison (m : Memory) (a : Nat) : Memory := m.setBad (a / 8) true

/-- The two accumulators of a granule poisoned. -/
def Mctx.poison (m : Mctx) (off : Nat) : Mctx :=
  let i := off / 8 * 2
  { m with acc := Tab.put {} (Tab.put {} m.acc i { dross := true }) (i + 1) { dross := true } }

/-- A token with one granule poisoned: its bytes are zero and it carries dross. -/
def Token.poison (t : Token) (off : Nat) : Token :=
  { t with null := false, dross := true,
           data := t.data &&& ~~~((BitVec.ofNat 512 (2 ^ 64 - 1)) <<< (64 * (off / 8 % 8))) }

/-- A buffer of tokens with one granule poisoned: tokens narrower than a granule share it. -/
def Chan.poison (c : Chan) (off : Nat) : Chan :=
  let lo := off / 8 * 8
  { c with buf := c.buf.zipIdx.map (fun e =>
      if c.width * e.2 < lo + 8 ∧ lo < c.width * (e.2 + 1) then e.1.poison (lo - c.width * e.2) else e.1) }

/-- A requester with one granule of a held reply poisoned. -/
def Requester.poison (q : Requester) (tag off : Nat) : Requester :=
  { q with tags := q.tags.map (fun k => if k.tag = tag then { k with reply := k.reply.map (fun x => x.poison off) } else k) }

/-- Changes the requester of a stream of a job. -/
def State.modReq (s : State) (j stream : Nat) (k : Requester → Requester) : State :=
  { s with ports := s.ports.map (fun (e : Nat × Port) => (e.1, { e.2 with reqs := e.2.reqs.map (fun (x : Nat × Requester) =>
      if x.2.job = j && x.2.stream = stream then (x.1, k x.2) else x) })) }

/-- An undo entry with one granule poisoned. -/
def Undo.poison (u : Undo) (off : Nat) : Undo :=
  { u with old := u.old.zipIdx.map (fun b => if b.2 / 8 = off / 8 then (0, true) else b.1) }

/-- The actor of a tile that an error lies in: of two with one number, the one that is loaded and has not ended (R101). -/
def State.owner (s : State) (t aid : Nat) : Option (Nat × Actor) :=
  let mine := (s.residents t).filter (fun r => r.2.1 = aid)
  ((mine.find? (fun r => r.2.2.loaded && !r.2.2.ended)).or mine.head?).map (fun r => (r.1, r.2.2))

/-- A record of the commit buffer with one granule poisoned: its bytes in that granule are zero with dross. -/
def CItem.poison (x : CItem) (off : Nat) : CItem :=
  let hit := fun (lo : Nat) (bs : List (Byte × Bool)) =>
    bs.zipIdx.map (fun b => if (lo + b.2) / 8 = (lo + off) / 8 then ((0, true) : Byte × Bool) else b.1)
  match x with
  | .store sp lo cls grp tgt bs after => .store sp lo cls grp tgt (hit lo bs) after
  | .posted sp lo bs => .posted sp lo (hit lo bs)
  | .atomic a cls tgt op _ _ after => .atomic a cls tgt op 0 true after
  | .fence m d => .fence m d

/-- Changes an entry of a list. -/
def modNth {α : Type} (l : List α) (n : Nat) (k : α → α) : List α :=
  l.zipIdx.map (fun e => if e.2 = n then k e.1 else e.1)

/-- Poisons a granule of a tile memory, numbered as R299 numbers them. Offsets count through the slots and contexts of
an actor, 16 KiB each, the shadow banks after the contexts; 64 KiB for each channel; 64 bytes for each token of the
outbound buffer; 64 bytes for each
record of the commit buffer; 512 bytes for each reply buffer in the actor's tile; 256 bytes for each undo entry. -/
def State.poisonSite (s : State) (t : Nat) (e : ErrSite) : State :=
  match s.owner t e.aid with
  | none => s
  | some (j, a) =>
    let put := fun a : Actor => s.setActor j e.aid a
    let firing := fun (k : Firing → Firing) => match s.firingOf j e.aid with
      | some (t, f) => s.setFiring t (k f)
      | none => s
    match e.mem with
    | 1 => put { a with hram := a.hram.poison e.off }
    | 2 => put { a with tstore := a.tstore.poison e.off }
    | 3 => put { a with slots := Tab.modify a.slots (e.off / 16384) (fun x => { x with mem := x.mem.poison (e.off % 16384) }) }
    | 4 =>
      if e.off / 16384 < 4 then put { a with ctxs := Tab.modify a.ctxs (e.off / 16384) (fun m => m.poison (e.off % 16384)) }
      else firing (fun f => { f with ckpt := Tab.modify f.ckpt (e.off / 16384 % 4) (fun m => m.poison (e.off % 16384)) })
    | 5 =>
      let g := s.graph j
      let c := e.off / 65536
      match Tab.find g.chans c with
      | some x => if x.dst.aid? = some e.aid then s.setGraph j (g.setChan c (x.poison (e.off % 65536))) else s
      | none => s
    | 6 => firing (fun f => { f with out := modNth f.out (e.off / 64) (fun o => { o with tok := o.tok.poison (e.off % 64) }) })
    | 7 => firing (fun f => { f with cbuf := modNth f.cbuf (e.off / 64) (fun x => x.poison (e.off % 64)) })
    | 8 =>
      match (s.repliesTo j e.aid)[e.off / 512]? with
      | some r => s.modReq j r.stream (fun q => q.poison (e.off % 512 / 64) (e.off % 64))
      | none => s
    | 9 => firing (fun f => { f with undo := modNth f.undo (e.off / 256) (fun u => u.poison (e.off % 256)) })
    | _ => s

/-- Where an error lies, as AADDR gives it (R299). -/
def aaddrOf (e : ErrSite) : W64 := BitVec.ofNat 64 (inFld e.mem 63 60 + inFld e.off 59 0)

/-- Makes the record of an error in a tile memory (R296, R297). -/
def State.tileRecord (s : State) (t : Nat) (e : ErrSite) (rank : Nat) : State :=
  let x := Config.syndrome s.fresh
  { s with fresh := s.fresh + 1 }.addRecord t rank 3 (if rank = 3 then 243 else 0) e.aid (aaddrOf e) x

/-! The context image (R172, R304 to R306). -/

/-- A field of a context record (R172): a number, reserved bytes, bytes of a tile memory or their dross bits (R296 numbers the memory, and
`base` is where they begin in it), values of an accumulator bank or their dross bits, a lane of an ingot register, a token of a channel, a
held reply, or a number of the `i`-th restart record. -/
inductive CtxField
  | num (n v : Nat)
  | pad (n : Nat)
  | mem (k base n : Nat) (m : Memory)
  | marks (k base n : Nat) (m : Memory)
  | accs (c : Nat) (m : Mctx)
  | accMarks (c : Nat) (m : Mctx)
  | ingot (second : Bool) (i : Nat) (x : Ingot)
  | tok (chan i w : Nat) (t : Token)
  | reply (stream tag : Nat) (t : Token)
  | restart (i n v : Nat)
  deriving DecidableEq, Repr

/-- The bytes of a field. -/
def CtxField.len : CtxField → Nat
  | .num n _ => n
  | .pad n => n
  | .mem _ _ n _ => n
  | .marks _ _ n _ => (n + 63) / 64
  | .accs _ _ => 16384
  | .accMarks _ _ => 512
  | .ingot _ _ _ => 40
  | .tok _ _ w _ => w + 1
  | .reply _ _ _ => 65
  | .restart _ n _ => n

/-- Bits as bytes, the lowest bit first. -/
def bitBytes (n : Nat) (bit : Nat → Bool) : List Byte :=
  (List.range n).map (fun k => BitVec.ofNat 8 (bitsNat ((List.range 8).map (fun b => bit (8 * k + b)))))

/-- A lane of an ingot register as R272 lays it out. -/
def Ingot.bits (x : Ingot) : Nat :=
  x.sum.toNat + 2 ^ 311 * bitsNat [x.pinf, x.ninf, x.nan, x.dross]

/-- A token as a context record holds it: a byte with its null and its dross bit, and its data. DESIGN CHOICE, notes/assumptions/38.md -/
def Token.ctxBytes (t : Token) (w : Nat) : List Byte :=
  BitVec.ofNat 8 (bitsNat [t.null, t.dross]) :: leBytes w t.data.toNat

/-- The contents of a field. -/
def CtxField.bytes : CtxField → List Byte
  | .num n v => leBytes n v
  | .pad n => List.replicate n 0
  | .mem _ _ n m => (m.reads 0 n).map (·.1)
  | .marks _ _ n m => bitBytes ((n + 63) / 64) m.isBad
  | .accs _ m => (List.range 4096).flatMap (fun i => leBytes 4 (Tab.get {} m.acc i).val.toNat)
  | .accMarks _ m => bitBytes 512 (fun i => (Tab.get {} m.acc i).dross)
  | .ingot _ _ x => leBytes 40 x.bits
  | .tok _ _ w t => t.ctxBytes w
  | .reply _ _ t => t.ctxBytes 64
  | .restart _ n v => leBytes n v

/-- The reserved bits of a field (R7, R172, R272): bytes with the bits of each that are zero. -/
def CtxField.zeros : CtxField → List (Nat × Byte)
  | .pad n => (List.range n).map (fun i => (i, 0xFF))
  | .ingot _ _ _ => [(38, 0x40), (39, 0xF8)]
  | _ => []

/-- A record of a context image (R172): TYPE, the aid that orders it, the node that saves it, and what follows its header. -/
structure CtxRec where
  ty : Nat
  aid : Nat := 0
  node : Option Nat := none
  fields : List CtxField
  deriving DecidableEq, Repr

/-- The bytes of some fields. -/
def fieldsLen (l : List CtxField) : Nat := (l.map CtxField.len).foldl (· + ·) 0

/-- LENGTH: the record with its header, a multiple of 8 (R172). -/
def CtxRec.len (r : CtxRec) : Nat := 8 + (fieldsLen r.fields + 7) / 8 * 8

/-- The bytes of a record: its header, its contents, and zeros (R172). -/
def CtxRec.bytes (r : CtxRec) : List Byte :=
  leBytes 8 (r.ty + r.len * 2 ^ 32) ++ r.fields.flatMap CtxField.bytes ++ List.replicate (r.len - 8 - fieldsLen r.fields) 0

/-- Things with their offsets, one after another. -/
def placed {α : Type} (len : α → Nat) : Nat → List α → List (Nat × α)
  | _, [] => []
  | o, r :: l => (o, r) :: placed len (o + len r) l

/-- The ingot lanes of one register. -/
def ingotFields (second : Bool) (t : Tab Ingot) : List CtxField := (List.range 16).map (fun i => .ingot second i (Tab.get {} t i))

/-- The Actor record (R172). -/
def Actor.stateFields (a : Actor) (aid : Nat) : List CtxField :=
  let cs := a.comps.filter (·.done)
  [.num 2 aid, .num 1 a.slot, .num 1 a.ended.toNat, .num 4 (tcoord a.tile).toNat, .num 4 a.tgen.toNat, .num 8 a.gctr.toNat,
    .num 1 a.fflags.toNat, .num 1 a.pressure, .num 1 (bitsNat ((List.range 4).map (fun c => (Tab.find a.ctxs c).isSome))), .pad 1] ++
  ingotFields false a.w0 ++ ingotFields true a.w1 ++
  .num 2 cs.length :: cs.flatMap (fun c => [.num 8 c.cxid.toNat, .num 1 c.cxst.toNat, .pad 7])

/-- The Configuration record (R172, R439). -/
def Actor.configFields (a : Actor) (aid : Nat) : List CtxField :=
  [.num 2 aid, .num 1 0, .pad 1] ++ (List.range 16).map (fun n => .num 4 (a.lane.word n).toNat) ++
  (List.range 16).map (fun n => .num 4 (a.lane.opWord n).toNat) ++
  (List.range 16).flatMap (fun n => [.num 2 (a.lane.swi n).toNat, .num 2 (a.lane.swo n).toNat]) ++
  (List.range 4).map (fun c => .num 4 (((Tab.find a.ctxs c).map (fun m => m.word.toNat)).getD 0)) ++
  a.nodes.flatMap (fun n => [.num 1 n.1, .pad 1, .num 2 n.2.taken, .num 2 ((n.2.cur.map (·.em)).getD 0), .num 2 ((n.2.cur.map (·.row)).getD 0)])

/-- The records of one actor, of TYPE 0x0003 to 0x0008 and 0x000C (R172). -/
def Actor.ctxRecs (a : Actor) (aid : Nat) : List CtxRec :=
  let rec' := fun (ty : Nat) (fs : List CtxField) => ({ ty := ty, aid := aid, node := some aid, fields := fs } : CtxRec)
  [rec' 3 (a.stateFields aid),
   rec' 4 [.num 2 aid, .num 2 0, .num 4 a.ramLen, .mem 1 0 a.ramLen a.hram, .marks 1 0 a.ramLen a.hram],
   rec' 5 [.num 2 aid, .num 2 0, .num 2 a.rows, .mem 2 0 (256 * a.rows) a.tstore, .marks 2 0 (256 * a.rows) a.tstore],
   rec' 8 (a.configFields aid)] ++
  a.slots.map (fun x => rec' 6 [.num 2 aid, .num 1 x.1, .num 1 x.2.claimed.toNat, .mem 3 (16384 * x.1) 16384 x.2.mem,
    .marks 3 (16384 * x.1) 16384 x.2.mem]) ++
  a.ctxs.map (fun x => rec' 7 [.num 2 aid, .num 1 x.1, .num 1 (x.2.word.getLsbD 23).toNat, .accs x.1 x.2, .accMarks x.1 x.2,
    .num 1 x.2.flags.toNat]) ++
  a.subs.map (fun x => rec' 12 [.num 2 aid, .num 2 x])

/-- The Silt restart record of a copy (R172, R409): after the template parameters stands its kick record, and the span is that of each
space that it touches. DESIGN CHOICE, notes/assumptions/38.md -/
def Graph.kickRec (g : Graph) (i p : Nat) (k : Kick) : CtxRec :=
  let es := g.sb.filter (fun e => e.uid = k.uid && e.aid = k.aid)
  { ty := 11, aid := k.aid, fields :=
      [.restart i 2 p, .restart i 8 (cxidOf p k.tmpl k.aid k.kr).toNat, .restart i 2 k.aid, .restart i 4 k.seg] ++
      (List.range 16).map (fun n => .restart i 8 (((g.template? p k.tmpl).getD {}).dw n).toNat) ++ [.restart i 64 k.kr.toNat] ++
      (List.range 2).flatMap (fun n => [.restart i 4 ((es[n]?.map (·.lo)).getD 0), .restart i 4 ((es[n]?.map (·.hi)).getD 0)]) }

/-- The Silt restart record of a stream (R235): its number in place of cxid, its position and its latched entry. DESIGN CHOICE,
notes/assumptions/38.md -/
def Stream.ctxRec (st : Stream) (n : Nat) : CtxRec :=
  let e := st.latched.toList
  { ty := 11, aid := 0xFFFF, fields :=
      [.num 2 st.port, .num 8 n, .num 2 0xFFFF, .num 4 0, .num 8 st.next, .num 1 e.length] ++
      e.flatMap (fun x => [.num 4 x.pasid, .num 8 x.va, .num 1 x.sh, .num 8 x.tgt, .num 1 x.w.toNat]) }

/-- The Reply buffer record (R172). -/
def replyRec (p n : Nat) (r : Requester) : CtxRec :=
  { ty := 10, fields := [.num 2 p, .num 1 n, .num 1 r.nextTag] ++
      r.tags.flatMap (fun t => (t.reply.map (CtxField.reply r.stream t.tag)).toList) }

/-- The Template record (R172, R404). -/
def Template.ctxRec (t : Template) : CtxRec :=
  { ty := 13, aid := t.aid, fields :=
      [.num 2 t.port, .num 1 t.num, .num 1 (bitsNat [t.armed, t.bound && t.declCh.isSome, t.bound && t.declCh.isNone && t.declQ.isSome]),
        .num 2 t.aid, .num 2 (if t.bound then (t.declCh.or t.declQ).getD 0 else 0)] }

/-- Puts a record where its TYPE and then its aid order it (R172). -/
def CtxRec.insert (r : CtxRec) : List CtxRec → List CtxRec
  | [] => [r]
  | x :: l => if r.ty * 65536 + r.aid ≤ x.ty * 65536 + x.aid then r :: x :: l else x :: r.insert l

/-- The records of a graph after its Header record (R172): ascending TYPE, then ascending aid. -/
def Graph.ctxRecs (g : Graph) : List CtxRec :=
  let all := g.alloys.map (fun e => ({ ty := 2, fields :=
      [.num 2 e.1, .num 1 e.2.barriers, .pad 1, .num 8 e.2.rounds] ++
      (g.actors.filter (fun a => e.2.members.contains a.1)).flatMap (fun a =>
        (List.range e.2.barriers).map (fun b => .num 4 (Tab.get 0 a.2.gens b))) } : CtxRec)) ++
    g.actors.flatMap (fun e => e.2.ctxRecs e.1) ++
    g.chans.map (fun e => ({ ty := 9, node := e.2.dst.aid?.or e.2.src.aid?, fields :=
      ([.num 2 e.1, .num 1 e.2.ended.toNat, .pad 1, .num 4 e.2.buf.length] ++
        e.2.buf.zipIdx.map (fun t => CtxField.tok e.1 t.2 e.2.width t.1)) } : CtxRec)) ++
    g.parkedReqs.zipIdx.map (fun e => replyRec e.1.1 e.2 e.1.2) ++
    g.parked.zipIdx.map (fun e => g.kickRec e.2 e.1.1 e.1.2) ++
    (g.streams.filter (fun e => e.2.kind ≠ .requester && e.2.kind ≠ .reduce)).map (fun e => e.2.ctxRec e.1) ++
    g.templates.map Template.ctxRec
  all.foldr CtxRec.insert []

/-- MAGIC of the Header record (R172). -/
def ctxMagic : Nat := 0x4E4D4358

/-- The Header record of a job (R172); the spec names no flag, and the model writes none. DESIGN CHOICE, notes/assumptions/38.md -/
def State.ctxHeader (s : State) (j : Nat) : CtxRec :=
  let g := s.graph j
  let r := s.job (s.root j)
  { ty := 1, fields :=
      [.num 4 ctxMagic, .num 2 1, .num 1 g.variant, .num 1 0, .num 2 r.queue, .num 4 r.index.toNat, .num 4 g.instId.toNat] ++
      (List.range 4).map (fun k => .num 4 (g.key.getD k 0).toNat) ++
      [.num 4 ((s.job j).lease / 1000), .num 2 g.actors.length, .num 2 g.chans.length, .num 2 g.alloys.length] }

/-- The records of a saved graph with their offsets in its image. -/
def State.imageRecs (s : State) (j : Nat) : List (Nat × CtxRec) := placed CtxRec.len 0 (s.ctxHeader j :: (s.graph j).ctxRecs)

/-- Where a byte of a job's context image lies: in the 2 MiB units that the job has reserved (R304). -/
def State.ctxAddr (s : State) (j off : Nat) : Option Nat :=
  ((s.job j).saveUnits[off / 2 ^ 21]?).map (fun u => s.board.svbase.toNat + 2 ^ 21 * u + off % 2 ^ 21)

/-- A doubleword of a job's context image as it is read. -/
def State.ctxRead (s : State) (j off : Nat) : Bytes :=
  ((s.ctxAddr j off).map (fun pa => s.mem.reads pa 8)).getD (List.replicate 8 (0, false))

/-- Bytes into a job's context image. -/
def State.ctxWrite (s : State) (j off : Nat) (bs : List Byte) : State :=
  bs.zipIdx.foldl (fun s b => match s.ctxAddr j (off + b.2) with
    | some pa => { s with mem := s.mem.setByte pa b.1 }
    | none => s) s

/-- Writes the context image of a saved graph into the save area: the records of its nodes in the order in which these saved, then those
of its ports and alloys, and last the Header record (R172, R305). DESIGN CHOICE, notes/assumptions/38.md -/
def State.saveImage (s : State) (j : Nat) (order : List Nat) : State :=
  let rs := s.imageRecs j
  let s := (s.job j).saveUnits.foldl (fun s u =>
    let lo := s.board.svbase.toNat + 2 ^ 21 * u
    { s with mem := s.mem.clearRange lo (lo + 2 ^ 21) }) s
  let put := fun (s : State) (l : List (Nat × CtxRec)) => l.foldl (fun s r => s.ctxWrite j r.1 r.2.bytes) s
  let s := order.foldl (fun s n => put s ((rs.drop 1).filter (fun r => r.2.node = some n))) s
  put (put s ((rs.drop 1).filter (fun r => r.2.node.isNone))) (rs.take 1)

/-- Whether a restore refuses a record (R7, R172, R306): a poisoned granule in its header, a reserved bit set, a TYPE that is not used, or,
in the Header record, another MAGIC or VERSION. A set bit in a reserved field of the contents is refused alike. DEDUCED, notes/assumptions/38.md -/
def State.recBad (s : State) (j : Nat) (r : Nat × CtxRec) : Bool :=
  let h := s.ctxRead j r.1
  let ty := leNat ((h.take 2).map (·.1))
  let m := s.ctxRead j (r.1 + 8)
  anyDross h || ty = 0 || decide (13 < ty) || ((h.drop 2).take 2).any (fun b => b.1 ≠ 0) ||
    (r.2.ty = 1 && (leNat ((m.take 4).map (·.1)) ≠ ctxMagic || leNat (((m.drop 4).take 2).map (·.1)) ≠ 1)) ||
    (placed CtxField.len (r.1 + 8) r.2.fields).any (fun f => f.2.zeros.any (fun z =>
      (s.ctxRead j ((f.1 + z.1) / 8 * 8))[(f.1 + z.1) % 8]?.any (fun b => b.1 &&& z.2 ≠ 0)))

/-- The records that lie in the units which the job has reserved. -/
def State.heldRecs (s : State) (j : Nat) : List (Nat × CtxRec) :=
  (s.imageRecs j).filter (fun r => decide (r.1 + r.2.len ≤ 2 ^ 21 * (s.job j).saveUnits.length))

/-- Why the context image of a job is refused: the offset of the first record that is (R306). -/
def State.imageFlaw (s : State) (j : Nat) : Option Nat := ((s.heldRecs j).find? (s.recBad j)).map (·.1)

/-- A part of a field that a restore finds poisoned: the aid of its record, the field, the first byte and how many. -/
structure CtxHit where
  aid : Nat
  field : CtxField
  lo : Nat
  n : Nat
  deriving DecidableEq, Repr

/-- What a poisoned granule after the header of a record hits; `x` counts from the header's end. -/
def CtxRec.hits (r : CtxRec) (x : Nat) : List CtxHit :=
  ((placed CtxField.len 0 r.fields).filter (fun f => decide (f.1 < x + 8) && decide (x < f.1 + f.2.len))).map (fun f =>
    { aid := r.aid, field := f.2, lo := x - f.1, n := min (x + 8) (f.1 + f.2.len) - max x f.1 })

/-- What a restore finds poisoned in the contents of its image's records (R306). -/
def State.imageHits (s : State) (j : Nat) : List CtxHit :=
  if s.mem.bad = [] then []
  else (s.heldRecs j).flatMap (fun r =>
    ((List.range (r.2.len / 8 - 1)).filter (fun k => anyDross (s.ctxRead j (r.1 + 8 + 8 * k)))).flatMap (fun k => r.2.hits (8 * k)))

/-- Restores with dross what a poisoned granule held (R306): where the dross bits of other granules are lost, these carry dross. A number
has no dross bit and keeps its value. DESIGN CHOICE, notes/assumptions/38.md -/
def State.strike (s : State) (j : Nat) (h : CtxHit) : State :=
  let t := (s.actor j h.aid).tile
  let sites := fun (s : State) (k : Nat) (offs : List Nat) =>
    offs.foldl (fun s o => s.poisonSite t { mem := k, aid := h.aid, off := o }) s
  let bits := (List.range h.n).flatMap (fun b => (List.range 8).map (fun i => 8 * (h.lo + b) + i))
  match h.field with
  | .num _ _ => s
  | .pad _ => s
  | .mem k base _ _ => sites s k [base + h.lo, base + h.lo + h.n - 1]
  | .marks k base n _ => sites s k ((bits.filter (fun g => decide (8 * g < n))).map (fun g => base + 8 * g))
  | .accs c _ => sites s 4 [16384 * c + h.lo, 16384 * c + h.lo + h.n - 1]
  | .accMarks c _ => sites s 4 (bits.map (fun i => 16384 * c + 4 * i))
  | .ingot second i _ =>
    let a := s.actor j h.aid
    let hit := fun (w : Tab Ingot) => Tab.set w i { Tab.get {} w i with dross := true }
    s.setActor j h.aid (if second then { a with w1 := hit a.w1 } else { a with w0 := hit a.w0 })
  | .tok c i _ _ =>
    let g := s.graph j
    let x := g.chan c
    s.setGraph j (g.setChan c { x with buf := modNth x.buf i (fun k => { k with null := false, dross := true, data := 0 }) })
  | .reply stream tag _ => s.modReq j stream (fun q => { q with tags := q.tags.map (fun k =>
      if k.tag = tag then { k with reply := k.reply.map (fun x => { x with dross := true, data := 0 }) } else k) })
  | .restart i _ _ =>
    let g := s.graph j
    s.setGraph j { g with parked := modNth g.parked i (fun e => (e.1, { e.2 with dross := true })) }

/-- Restores dross where an image's contents were poisoned (R306). -/
def State.restoreDross (s : State) (j : Nat) (es : List CtxHit) : State := es.foldl (fun s e => s.strike j e) s

end Sys2Proof.Machine
end

