-- ==== Sys2Proof/Machine/Quench.lean ====
section
/-! DEFINITION. The graph quench (R171, R156, R305), and the parking of copies and requesters (R55, R137, R409). -/

namespace Sys2Proof.Machine

/-! Starting a quench. -/

/-- The jobs whose graphs are welded with a job's graph (R100). -/
def State.partners (s : State) (j : Nat) : List Nat :=
  (s.graphs.map (·.1)).filter (fun k => k ≠ j && ((s.job j).welded = some k || (s.job k).welded = some j))

/-- The graphs that are welded with some graphs, one onto another (R101, R102). -/
def State.weldSet (s : State) : Nat → List Nat → List Nat
  | 0, l => l
  | n + 1, l =>
    let l' := (l ++ l.flatMap s.partners).dedup
    if l'.length = l.length then l else State.weldSet s n l'

/-- Asks one graph for a quench; a graph that is loading completes its load first (R110). -/
def State.askQuench (s : State) (j : Nat) : State :=
  if !s.hasGraph j then s else
  let g := s.graph j
  if g.quench.isSome || g.phase = .saved then s
  else s.setGraph j { g with quench := some { bound := s.kiln.bound }, phase := if g.phase = .resident then .quenching else g.phase }

/-- Starts the quench of a graph and of its weld partners (R102, R171). -/
def State.beginQuench (s : State) (j : Nat) : State := (s.weldSet 256 [j]).foldl State.askQuench s

/-! The markers. -/

/-- Whether the quench marker has come down a channel to its consumer (R171): its tokens have arrived, and its producer
has saved or is a port, whose marker follows its last token. -/
def Graph.markerIn (g : Graph) (q : Quench) (aid : Nat) (c : Chan) : Bool :=
  c.back || (c.transit = [] && c.ending = c.ended &&
    (match c.src with
      | .actor b _ => b = aid || q.saved.contains b
      | .node _ _ _ => true
      | .stream n => (g.stream n).ops = []))

/-- The channels that end at an actor's node, but for back edges. -/
def Graph.inboundOf (g : Graph) (aid : Nat) : List Nat :=
  (g.chans.filter (fun e => e.2.dst.aid? = some aid && !e.2.back)).map (·.1)

/-- Whether an actor's node has the marker on every inbound link that is waited for (R171). -/
def Graph.markersIn (g : Graph) (q : Quench) (aid : Nat) : Bool :=
  g.chans.all (fun e => e.2.dst.aid? ≠ some aid || g.markerIn q aid e.2)

/-- An actor as its node saves it: queued deliveries, a wait on a ticket and a yield's sleep are not saved (R172,
R288). -/
def Actor.save (a : Actor) : Actor :=
  { a with deliveries := [], suspended := false, asleep := false, held := [] }

/-- Saves the node of an actor (R171, R288). -/
def State.saveNode (s : State) (j aid : Nat) (q : Quench) : State :=
  let a := s.actor j aid
  let s := a.deliveries.foldl (fun s c => s.releaseTrapped j c) s
  let g := s.graph j
  s.setGraph j { g.setActor aid a.save with quench := some { q with saved := q.saved ++ [aid] } }

/-- Whether a firing waits where only other firings can let it go on (R156, R424). -/
def FPhase.waits : FPhase → Bool
  | .bar _ false => true
  | .claim _ => true
  | _ => false

/-- The memories that a save reads (R172). -/
def ErrSite.saved (e : ErrSite) (node : Nat) : Bool :=
  e.aid = node && ((decide (1 ≤ e.mem) && decide (e.mem ≤ 5)) || e.mem = 8)

/-- A node saved, where some of its granules are found uncorrectable: they are saved with dross, under an uncorrected record, and
nothing aborts (R305). -/
def State.saveFound (s : State) (j aid tile : Nat) (q : Quench) (found : List ErrSite) : State :=
  (found.foldl (fun s e => (s.poisonSite tile e).tileRecord tile e 3) s).saveNode j aid q

/-- QUENCH_MARKER (R167, R171, R156, R305, R424): the node is that of one actor, whose firing has ended or aborts. DEDUCED, notes/assumptions/35.md -/
def execQuenchMarker (job : Nat) (x : NodeSave) (s : State) : Res :=
  let g := s.graph job
  let node := x.node
  match g.quench, Tab.find g.actors node with
  | some q, some a =>
    if !s.hasGraph job || g.phase ≠ .quenching || q.saved.contains node || s.inMove a.tile || !g.markersIn q node ||
        !x.found.all (ErrSite.saved · node) ||
        ((s.tile a.tile).causes.any (fun c => c.1 = job && c.2.aid = node)) then disabled "QUENCH_MARKER"
    else match s.takeMark a.tile node { kind := 2, chans := some (g.inboundOf node), world := s.jobSecure job } x.flit with
    | none => disabled "QUENCH_MARKER"
    | some s =>
    match s.firingOf job node with
    | none => .next (s.saveFound job node a.tile q x.found)
    | some (t, f) =>
      if f.replay then .next ((s.rollback t f).saveFound job node a.tile q x.found)
      else if f.phase.waits && g.actors.all (fun e => e.1 = node || q.saved.contains e.1) then
        .next (s.abortGraph job stFault { code := 98 })
      else disabled "QUENCH_MARKER"
  | _, _ => disabled "QUENCH_MARKER"

/-! The completion. -/

/-- The engines that hold a copy or a kick of a job. -/
def State.enginesOf (s : State) (j : Nat) : List Nat :=
  (s.ports.filter (fun e => e.2.eng.copy.any (·.job = j) || (e.2.eng.kicks ++ e.2.eng.late).any (·.job = j))).map (·.1)

/-- Whether a non-replayable firing waits for a copy in swait: the copy is then not parked (R424). -/
def State.swaited (s : State) (j : Nat) (cxid : W64) : Bool :=
  s.tiles.any (fun e => e.2.firing.any (fun f => f.job = j && f.phase = .swait cxid))

/-- Whether an engine's copy may be parked: no access of it is in flight, and none waits on a ticket (R137, R409). -/
def State.parkable (s : State) (p : Nat) (c : Copy) : Bool :=
  !s.inflight.any (fun a => a.src.ofEngine p) && c.ticket.isNone && !s.swaited c.job c.cxid

/-- The kick that starts a parked copy again, at its next segment (R409). -/
def Copy.restart (c : Copy) : Kick :=
  { job := c.job, aid := c.aid, kr := c.kr, tmpl := c.tmpl, uid := c.uid, seg := c.seg, subs := c.subs, dross := c.dross }

/-- Takes the copies and kicks of a job out of an engine: the restart records, oldest first (R137). -/
def State.parkEngine (s : State) (j : Nat) (p : Nat) : List (Nat × Kick) × State :=
  let e := (s.port p).eng
  let mine := fun (k : Kick) => k.job = j
  let ks := (e.copy.toList.filter (·.job = j)).map Copy.restart ++ (e.kicks ++ e.late).filter mine
  let e := { e.queued ((e.kicks ++ e.late).filter (fun k => !mine k)) with copy := e.copy.filter (·.job ≠ j) }
  (ks.map (fun k => (p, k)), s.setEngine p e)

/-- Takes the copies and kicks of a job out of every engine. -/
def State.parkEngines (s : State) (j : Nat) : List (Nat × Kick) × State :=
  (s.enginesOf j).foldl (fun x p => let (ks, s) := x.2.parkEngine j p; (x.1 ++ ks, s)) ([], s)

/-- Whether every port of a graph has drained (R55, R137, R171, R239): tags, streams and copies. -/
def State.drained (s : State) (j : Nat) : Bool :=
  let g := s.graph j
  (s.reqsOf j).all (fun r => r.2.tags.all (fun t => t.reply.isSome)) &&
    g.streams.all (fun e => e.2.ops = [] && (e.2.kind = .read || e.2.window = [])) &&
    g.chans.all (fun e => e.2.transit = []) &&
    s.ports.all (fun e => e.2.eng.ending.all (·.job ≠ j) && e.2.eng.copy.all (fun c => c.job ≠ j || s.parkable e.1 c)) &&
    g.actors.all (fun a => a.2.comps.all (fun c => !c.released || c.done)) &&
    !s.inflight.any (fun a => match a.src with
      | .stream k _ _ _ => k = j
      | _ => false)

/-- A stream as it is saved: its position is the oldest unfinished element (R239). -/
def Stream.save (st : Stream) : Stream :=
  { st with window := [], got := [], next := st.window.foldl (fun n e => min n e.idx) st.next }

/-- Puts the tokens of contributions that are not complete back at the heads of their channels: tokens not yet sent stay there
(R36). -/
def Graph.ungather (g : Graph) : Graph :=
  g.streams.foldl (fun g e => if e.2.got = [] then g else
    g.setChan e.2.chan { g.chan e.2.chan with buf := e.2.got ++ (g.chan e.2.chan).buf }) g

/-- The queued job of a tree that has a quota account, and what is left on it (R110). -/
def State.accountOf (s : State) (j : Nat) : Option Nat := (s.job (s.root j)).account

/-- Whether the quench of a graph can complete: every node has saved and every port has drained (R171). -/
def State.quenched (s : State) (j : Nat) : Bool :=
  let g := s.graph j
  s.hasGraph j && g.phase = .quenching && s.drained j &&
    (match g.quench with
      | some q => g.actors.all (fun a => q.saved.contains a.1)
      | none => false)

/-- The tiles of a graph that an assay waits for (R301, R307). -/
def State.assayTiles (s : State) (j : Nat) : List Nat :=
  (((s.graph j).actors.map (fun e => e.2.tile)).dedup).filter (fun t => (s.block t).assaying)

/-- The completion of a quench (R171, R104, R110, R305): the graph is saved whole, its context image is written, and its plots are
free. -/
def State.finishQuench (s : State) (j : Nat) : State :=
  let reqs := s.reqsOf j
  let tiles := s.assayTiles j
  let order := ((s.graph j).quench.map (·.saved)).getD []
  let (ks, s) := s.parkEngines j
  let s := { s with ports := s.ports.map (fun (e : Nat × Port) =>
    (e.1, { e.2 with reqs := e.2.reqs.filter (fun r => r.2.job ≠ j) })) }
  let g := (s.graph j).ungather
  let g := { g with phase := .saved, quench := none, parked := g.parked ++ ks, parkedReqs := reqs, used := [],
                    streams := g.streams.map (fun (e : Nat × Stream) => (e.1, e.2.save)) }
  let b := s.job j
  let st := if s.accountOf j = some 0 then JState.stalled else JState.parked
  ((s.setGraph j g).saveImage j order).setJob j { b with st := st, quotaStall := st = .stalled, assays := tiles, eff := 0, passes := 0, held := none }

end Sys2Proof.Machine
end

