-- ==== Sys2Proof/Machine/Engine.lean ====
section
/-! DEFINITION. The Silt engines between copies (R198 to R203): copy starts, bound kicks, kick registers and mailbox
events. -/

namespace Sys2Proof.Machine

/-- A free value for a vector register. -/
def State.freeVector (s : State) : V512 × State :=
  (List.range 8).foldl (fun x i =>
    let (w, s) := x.2.freeValue
    (x.1 ||| (w.zeroExtend 512 <<< (64 * i)), s)) (0, s)

/-- The registers as a copy starts: they keep their values (R316). The spec states no value for one whose load was
cut short. -/
def State.keptRegs (s : State) (r : Regs) : Regs × State :=
  let x := r.s.foldl (fun (x : Tab SReg × State) e =>
    if e.2.pend = [] then (x.1 ++ [e], x.2) else
      let (w, s) := x.2.freeValue
      (x.1 ++ [(e.1, { val := w })], s)) ([], s)
  let y := r.v.foldl (fun (y : Tab VReg × State) e =>
    if e.2.pend = [] then (y.1 ++ [e], y.2) else
      let (w, s) := y.2.freeVector
      (y.1 ++ [(e.1, { val := w })], s)) ([], x.2)
  ({ r with s := x.1, v := y.1 }, y.2)

/-- A state in which an engine has taken a kick, with `rest` still to come, and begins its copy: s1 names the record, s2 the template and s3 the
next segment (R201, R409, R407). -/
def State.startCopy (s : State) (p : Nat) (k : Kick) (t : Template) (rest : List Kick) : State :=
  let e := (s.port p).eng
  let (r, s) := s.keptRegs e.regs
  let r := ((r.wr 1 0x2000 false).wr 2 (BitVec.ofNat 64 (128 * k.tmpl)) false).wr 3 (BitVec.ofNat 64 k.seg) false
  let c : Copy := { job := k.job, aid := k.aid, tmpl := k.tmpl, uid := k.uid, cxid := cxidOf p k.tmpl k.aid k.kr, kr := k.kr,
                    seg := k.seg, subs := k.subs, dross := k.dross }
  s.setEngine p { e.queued rest with regs := { r with pc := t.mcode }, copy := some c }

/-- Whether the copies of a graph run: it is placed, and no quench parks them (R137, R202, R424). -/
def State.copiesRun (s : State) (k : Kick) (p : Nat) : Bool :=
  let g := s.graph k.job
  s.hasGraph k.job && g.phase ≠ .saved &&
    (g.quench.isNone || s.swaited k.job (cxidOf p k.tmpl k.aid k.kr))

/-- Whether a kick waits for the quench of its graph, which no firing waits for in swait: the next kick goes first (R137, R424). -/
def State.kickWaits (s : State) (k : Kick) (p : Nat) : Bool :=
  (s.graph k.job).quench.isSome && !s.swaited k.job (cxidOf p k.tmpl k.aid k.kr)

/-- SILT_COPY_START (R201, R424): the kick records are taken in arrival order, but for those that wait for a quench. -/
def execSiltCopyStart (port : Nat) (s : State) : Res :=
  let e := (s.port port).eng
  let ks := e.kicks ++ e.late
  if s.portStopped port then disabled "SILT_COPY_START" else
  match e.copy, ks.find? (fun k => !s.kickWaits k port) with
  | none, some k =>
    match (s.graph k.job).template? port k.tmpl with
    | some t => if s.copiesRun k port then .next (s.startCopy port k t (ks.erase k)) else disabled "SILT_COPY_START"
    | none => disabled "SILT_COPY_START"
  | _, _ => disabled "SILT_COPY_START"

/-- BOUND_KICK (R202, R203): the token at the head of the bound channel, or the record at the head of the named queue,
is a kick record. DEDUCED, notes/assumptions/11.md -/
def execBoundKick (port template : Nat) (s : State) : Res :=
  match s.loaded? port template with
  | none => disabled "BOUND_KICK"
  | some (j, t) =>
    let g := s.graph j
    if !t.armed || !t.bound || g.quench.isSome || !(g.phase = .resident) || s.portStopped port then disabled "BOUND_KICK"
    else match t.declCh, t.declQ with
    | some c, _ =>
      match (g.chan c).buf with
      | [] => disabled "BOUND_KICK"
      | x :: _ =>
        let s := s.setGraph j (g.consume c 1)
        if x.null then .next s
        else match s.kick j t.aid port (some template) x.data x.dross with
        | some s => .next s
        | none => disabled "BOUND_KICK"
    | none, some q =>
      let e := (s.port port).eng
      match Tab.get [] e.named q with
      | [] => disabled "BOUND_KICK"
      | (kr, x) :: rest =>
        let s := s.setEngine port { e with named := Tab.set e.named q rest }
        match s.kick j t.aid port (some template) kr x with
        | some s => .next s
        | none => disabled "BOUND_KICK"
    | none, none => disabled "BOUND_KICK"

/-- KICK_REGISTER_WRITE (R203): a 64-byte write of a host's physical function. Any other is ignored; one from another
world than the engine's port tile is dropped, with a record of its physical address; one to a full queue waits. DESIGN CHOICE,
notes/assumptions/49.md -/
def execKickRegisterWrite (who : Who) (off : Nat) (data : V512) (s : State) : Res :=
  if off < 0x740000 || 0x750000 ≤ off then disabled "KICK_REGISTER_WRITE"
  else match who with
  | .pf l =>
    let p := (off - 0x740000) / 256
    if 4 ≤ l || !s.hostUp l then disabled "KICK_REGISTER_WRITE"
    else if off % 64 ≠ 0 then .next s
    else if s.portSecure p then .next (s.pushRecord false { cause := 338, tval := BitVec.ofNat 64 (0x18000000000 + off), wr := true })
    else match s.pushNamed p (off % 256 / 64) data false with
    | some s => .next s
    | none => disabled "KICK_REGISTER_WRITE"
  | _ => .next s

/-- The actor that waits for the mailbox event of a copy, with its completion. -/
def Graph.mailbox (g : Graph) (cxid : W64) : Option (Nat × Completion) :=
  g.actors.findSome? (fun a =>
    (a.2.comps.find? (fun c => c.cxid = cxid && c.released && !c.done)).map (fun c => (a.1, c)))

/-- MAILBOX_EVENT (R201, R195): the scoreboard entries of the copy go, and its completion firing is pending. -/
def execMailboxEvent (job : Nat) (cxid : W64) (s : State) : Res :=
  let g := s.graph job
  match g.mailbox cxid with
  | none => disabled "MAILBOX_EVENT"
  | some (aid, c) =>
    let a := g.actor aid
    if s.midMove a.tile then disabled "MAILBOX_EVENT"
    else
      let a := { a with comps := a.comps.map (fun x => if x.uid = c.uid then { x with done := true } else x) }
      .next (s.setGraph job { g.setActor aid a with sb := g.sb.filter (fun e => e.uid ≠ c.uid) })

end Sys2Proof.Machine
end

