-- ==== Sys2Proof/Machine/Queues.lean ====
section
/-! DEFINITION. The queue registers and states (R59, R60, R67 to R71, R444). -/

namespace Sys2Proof.Machine

/-- The value that a register takes whole from a write of 4 or 8 bytes (R59). -/
def mergeWrite (old : W64) (off size : Nat) (data : W64) : W64 :=
  if size = 8 then data
  else if off % 8 = 0 then BitVec.ofNat 64 (inFld (fld old 63 32) 63 32 + fld data 31 0)
  else BitVec.ofNat 64 (inFld (fld data 31 0) 63 32 + fld old 31 0)

/-- Whether an access of a register has a size and an alignment that registers take (R59). -/
def regAligned (off size : Nat) : Bool := (size = 4 || size = 8) && off % size = 0

/-- The records that a ring holds (R67). -/
def Queue.size (q : Queue) : Nat := 2 ^ fld q.base 3 0

/-- The fields of QCFG. -/
def Queue.pasid (q : Queue) : Nat := fld q.cfg 63 44
/-- The host link of the owning function. -/
def Queue.link (q : Queue) : Nat := fld q.cfg 39 38
/-- The owning function. -/
def Queue.fn (q : Queue) : Nat := fld q.cfg 37 32
/-- Whether a queue is of the secure world. -/
def Queue.secure (q : Queue) : Bool := q.cfg.getLsbD 20
/-- The stored level EN. -/
def Queue.en (q : Queue) : Bool := q.cfg.getLsbD 0

/-- The code of a queue state in QSTAT. -/
def QState.code : QState → Nat
  | .disabled => 0
  | .running => 1
  | .draining => 2
  | .halted => 3

/-- Records the first error since the last clear (R67). -/
def Queue.error (q : Queue) (e : Nat) : Queue := if q.err = 0 then { q with err := e } else q

/-- A queue as a reset leaves it (R71): EN is a stored level. -/
def Queue.cleared (q : Queue) : Queue :=
  { q with head := 0, tail := 0, retire := 0, err := 0, last := none, st := .disabled, flr := false, got := [] }

/-- QCTL.RESET (R71): of a Disabled queue, or of a Halted one whose jobs have retired; in any other state it is ignored. -/
def Queue.reset (q : Queue) : Queue :=
  if q.st = .disabled ∨ (q.st = .halted ∧ q.retire = q.head) then q.cleared else q

/-- A function reset (R61): the queue fetches no more, and is reset once its killed jobs have retired. DEDUCED,
notes/assumptions/41.md -/
def Queue.flReset (q : Queue) : Queue :=
  if q.st = .running then { q with st := .draining, flr := true, got := [] } else { q with flr := true }

/-- The transitions that happen without a write (R71): a function reset or a drain that completes, and EN with READY. -/
def Queue.settle (q : Queue) (ready : Bool) : Queue :=
  let q := if q.flr ∧ q.retire = q.head then q.cleared else q
  let q := if q.st = .draining ∧ q.retire = q.head then { q with st := .disabled } else q
  if q.st = .disabled ∧ q.en ∧ ready then { q with st := .running } else q

/-- Sets a queue and lets its state settle (R71). -/
def State.settleQueue (s : State) (n : Nat) (q : Queue) : State := s.setQueue n (q.settle s.board.ready)

/-- A queue register as it reads: QBASE, QCFG, QTAIL, QHEAD, QRETIRE, QCTL and QSTAT (R67). -/
def Queue.read (q : Queue) (off : Nat) : W64 :=
  match off with
  | 0x00 => q.base
  | 0x08 => q.cfg
  | 0x10 => q.tail.zeroExtend 64
  | 0x18 => q.head.zeroExtend 64
  | 0x20 => q.retire.zeroExtend 64
  | 0x30 => BitVec.ofNat 64 (inFld q.err 7 4 + inFld q.st.code 1 0)
  | _ => 0

/-- Whether an offset of the register space lies in the queue block. -/
def inQueues (off : Nat) : Bool := decide (0x100000 ≤ off) && decide (off < 0x140000)

/-- The queue of an offset in the queue block. -/
def queueAt (off : Nat) : Nat := (off - 0x100000) / 64

/-- The register of an offset in the queue block. -/
def queueReg (off : Nat) : Nat := off % 64 / 8 * 8

/-- Whether a requester sees a queue (R60). -/
def State.seesQueue (s : State) (w : Who) (n : Nat) : Bool :=
  match w with
  | .vf link fn => (s.queue n).link = link && (s.queue n).fn = fn
  | _ => true

/-- A write of QTAIL is judged alone (R69, R70). -/
def Queue.writeTail (q : Queue) (w : Who) (t : W32) : Queue :=
  let denied : Option Nat := match w with
    | .peer _ => if q.cfg.getLsbD 18 then none else some 3
    | .actor _ => if q.cfg.getLsbD 19 then none else some 4
    | _ => none
  match denied with
  | some e => q.error e
  | none =>
    if q.size < (t - q.head).toNat then q.error 1
    else if (t - q.head).toNat < (q.tail - q.head).toNat then q.error 2
    else { q with tail := t }

/-- A write of QBASE (R67, R68): values of LOG2N below 4 are stored as 4. -/
def Queue.writeBase (q : Queue) (v : W64) : Queue :=
  if q.st = .disabled then { q with base := BitVec.ofNat 64 (inFld (fld v 63 12) 63 12 + max 4 (fld v 3 0)) } else q

/-- A write of QCFG (R67, R68, R71). -/
def Queue.writeCfg (q : Queue) (w : Who) (v : W64) : Queue :=
  let own : W64 := if q.st = .disabled then v else q.cfg
  let world := if q.st = .disabled ∧ w = .secure then fld v 20 20 else fld q.cfg 20 20
  let cfg := BitVec.ofNat 64 (inFld (fld own 63 44) 63 44 + inFld (fld own 39 32) 39 32 + inFld (fld v 31 21) 31 21
    + inFld world 20 20 + inFld (fld v 19 17) 19 17 + fld v 0 0)
  if q.st = .running ∧ !v.getLsbD 0 then { q with cfg := cfg, st := .draining, got := [] } else { q with cfg := cfg }

/-- A write of a queue register other than QCTL, on the merged value. -/
def State.writeQueue (s : State) (w : Who) (off size : Nat) (data : W64) : State :=
  let n := queueAt off
  let q := s.queue n
  let v := mergeWrite (q.read (queueReg off)) off size data
  let own : Bool := match w with
    | .actor _ => false
    | .peer _ => false
    | _ => true
  match queueReg off with
  | 0x10 => s.setQueue n (q.writeTail w (v.truncate 32))
  | 0x00 => if own then s.setQueue n (q.writeBase v) else s
  | 0x08 => if own then s.settleQueue n (q.writeCfg w v) else s
  | 0x30 =>
    let written : W64 := mergeWrite 0 off size data
    if own && fld written 7 4 ≠ 0 then s.setQueue n { q with err := 0 } else s
  | _ => s

/-- A write of a queue register whose data carries dross (R444). -/
def State.poisonQueue (s : State) (off : Nat) : State :=
  let n := queueAt off
  if off % 64 < 0x38 then s.setQueue n ((s.queue n).error 6) else s

end Sys2Proof.Machine
end

