-- ==== Sys2Proof/Machine/Perform.lean ====
section
/-! DEFINITION. Global accesses at the node that owns their address: memory, the register window, host links and peers
(R50, R52, R60, R86, R206 to R210, R219, R220, R303, R410 to R412), and the completions of host links. -/

namespace Sys2Proof.Machine

/-! Atomics (R410). -/

/-- The number that an atomic of `n` bits writes; none where it writes none (R219, R410). -/
def atomicNew (op : AtomOp) (n old x e : Nat) : Option Nat :=
  match op with
  | .add => some ((old + x) % 2 ^ n)
  | .and => some (old &&& x)
  | .or => some (old ||| x)
  | .xor => some (old ^^^ x)
  | .min => some (if sgn n old ≤ sgn n x then old else x)
  | .max => some (if sgn n old ≤ sgn n x then x else old)
  | .minu => some (min old x)
  | .maxu => some (max old x)
  | .swap => some x
  | .cas => if old = e then some x else none

/-- An atomic on memory: the memory after it and the bytes it returns (R220, R412). -/
def Memory.atomic (m : Memory) (a : Nat) (op : AtomOp) (size : Nat) (x e : W64) (dross : Bool) : Memory × Bytes :=
  if m.isBad (a / 8) then (m, drossBytes size)
  else
    let old := (List.range size).map (fun i => m.byte (a + i))
    let n := 8 * size
    let new := (atomicNew op n (leNat old) (x.toNat % 2 ^ n) (e.toNat % 2 ^ n)).getD (leNat old)
    (m.writePiece a (marked dross (leBytes size new)), clean old)

/-! Reports. -/

/-- The actor that an access is made for (R289). -/
def Src.aid : Src → Nat
  | .firing _ aid => aid
  | .engine _ _ _ aid => aid
  | .stream _ _ _ _ => 0
  | .inbound _ _ => 0
  | .own _ => 0

/-- A notice about an access (R284). -/
def State.accessNotice (s : State) (a : Access) (code : Nat) (tval : Nat) : State :=
  let v := BitVec.ofNat 64 tval
  match a.src.job with
  | some j => s.jobNotice j { code := code, tval := v, aid := a.src.aid, wr := a.writes, pasid := s.pasidOf j }
  | none => s.pushRecord a.world { cause := code, tval := v, wr := a.writes }

/-- A non-secure access of secure memory is not performed, and the job that caused it retires WORLD (R86), also once its graph has
gone. -/
def State.worldViolation (s : State) (a : Access) (pa : Nat) : State :=
  let c : Cause := { code := if a.writes then 338 else 337, tval := BitVec.ofNat 64 pa, aid := a.src.aid, wr := a.writes }
  let s := s.finishError a
  match a.src.job with
  | some j =>
    if s.hasGraph j then s.abortGraph j stWorld c
    else
      let s := s.pushRecord false { cause := c.code, tval := c.tval, wr := c.wr }
      if (Tab.find s.jobs j).isNone then s else s.setJob j { s.job j with fail := (s.job j).fail.or (some (stWorld, c.code)) }
  | none => s.pushRecord false { cause := c.code, tval := c.tval, wr := c.wr }

/-! Targets. -/

/-- An access of local memory (R50, R52, R86, R209, R210). -/
def State.performLocal (s : State) (a : Access) (pa : Nat) : State :=
  if !a.world && s.secureAt pa then s.worldViolation a pa
  else match s.inExpander pa with
    | some (_, _, true) => (s.accessNotice a 58 pa).finishError a
    | _ =>
      match a.kind with
      | .load n => s.finish a (s.mem.reads pa n)
      | .store bs => { s with mem := s.mem.writePiece pa bs }.finish a []
      | .atomic op x e d size =>
        let (m, bs) := s.mem.atomic pa op size x e d
        { s with mem := m }.finish a bs
      | .fence _ => s.finish a []

/-- The requester of an access to the register window. -/
def Access.who (a : Access) : Who :=
  match a.src with
  | .inbound q _ => .peer q
  | _ => .actor a.world

/-- An access of the register window by an actor or a peer (R59, R60, R69, R70, R444): the other accesses meet no memory, and a
peer's atomic returns zeros with dross and changes nothing. DESIGN CHOICE, notes/assumptions/76.md -/
def State.performReg (s : State) (a : Access) (off : Nat) : State :=
  match a.kind with
  | .load n =>
    let v := if inQueues off && regAligned off n then (s.queue (queueAt off)).read (queueReg off) else 0
    s.finish a (clean (leBytes n (v.toNat / 2 ^ (8 * (off % 8)))))
  | .store bs =>
    let n := bs.length
    let s' := s.finish a []
    if !(inQueues off && regAligned off n) then s'
    else if anyDross bs then s'.poisonQueue off
    else s'.writeQueue a.who off n (BitVec.ofNat 64 (leNat (bs.map (·.1))))
  | _ => s.finishError a

/-- HPCTL's bit of a host link (R303). -/
def State.hostTakesPoison (s : State) (n : Nat) : Bool := s.board.hpctl.getLsbD n

/-- The granules of one request of the Fewin toward a host: of one store, or of one copy element (R303). -/
def State.request (s : State) (a : Access) : List Access :=
  s.inflight.filter (fun x => a.mate x && !x.reads && (match x.tgt with
    | .host _ _ => true
    | _ => false))

/-- Whether the data of an access carries dross. -/
def Access.dross (a : Access) : Bool :=
  match a.kind with
  | .store bs => anyDross bs
  | .atomic _ _ _ d _ => d
  | _ => false

/-- Whether an atomic of `size` bytes is made on a host link (R19, R219): as an AtomicOp of 64 bits in mode 0, under CXL.cache
in mode 1. -/
def HostLink.sends (l : HostLink) (op : AtomOp) (size : Nat) : Bool :=
  match l.mode with
  | 0 => l.atomicEn && size = 8 && (op = .add || op = .swap || op = .cas)
  | 1 => true
  | _ => false

/-- What goes out for an atomic on a host window (R19, R303): mode 1 sends no AtomicOp. -/
def HostLink.atomicOut (l : HostLink) (link addr : Nat) (op : AtomOp) (x e : W64) (size : Nat) (d : Bool) : Out :=
  if l.mode = 1 then .hostCache link addr op x e size d else .hostAtomic link addr op x e d

/-- An access of a host window (R219, R303). A write is posted; a read or an atomic waits for its completion. -/
def State.performHost (s : State) (a : Access) (link addr : Nat) : State :=
  if !s.hostUp link then (s.raiseNomem a (hostWindow link addr)).finishError a
  else match a.kind with
    | .store bs =>
      let whole := s.request a
      if whole.any Access.dross && !s.hostTakesPoison link then
        whole.foldl (fun s x => s.finish x []) (s.accessNotice a 197 (hostWindow link addr))
      else (s.emit (.hostWrite link addr bs)).finish a []
    | .load n => { s.emit (.hostRead link addr n) with
        inflight := s.inflight.map (fun x => if x.id = a.id then { x with sent := true } else x) }
    | .atomic op x e d size =>
      if !(s.hostLink link).sends op size then s.finishError a
      else if d && !s.hostTakesPoison link then (s.accessNotice a 197 (hostWindow link addr)).finishError a
      else { s.emit ((s.hostLink link).atomicOut link addr op x e size d) with
        inflight := s.inflight.map (fun x => if x.id = a.id then { x with sent := true } else x) }
    | .fence _ => s.finish a []

/-- Answers a host's request of BAR2 (R86, R208, R303): dross leaves only toward a host whose bit is set; otherwise Completer Abort. -/
def State.answerHost (s : State) (link : Nat) (r : InReq) (bs : List (Byte × Bool)) : State :=
  if !r.read then s
  else if r.err then s.emit (.bar2 link r.addr [] false true)
  else if anyDross bs && !s.hostTakesPoison link then
    (s.notice false 196 (BitVec.ofNat 64 r.addr)).emit (.bar2 link r.addr [] false true)
  else s.emit (.bar2 link r.addr (bs.map (·.1)) (anyDross bs) false)

/-- Answers a request of a peer, or of a host, once all of it has been performed (R21, R86, R303). -/
def State.answer (s : State) (id : Nat) : State :=
  match s.inreqs.find? (fun r => r.id = id) with
  | none => s
  | some r =>
    if r.parts.any (fun p => p.2.2.isNone) then s else
    let p := s.peer r.peer
    let bs := r.parts.flatMap (fun x => x.2.2.getD [])
    let s := { s with inreqs := s.inreqs.filter (fun x => x.id ≠ id) }
    if 4096 ≤ r.peer then s.answerHost (r.peer - 4096) r bs else
    let s := s.setPeer r.peer { p with icount := p.icount - 1 }
    if r.err then s.emit (.peerReply r.peer [] false true false)
    else if anyDross bs && !p.poison then
      (s.notice false 194 (BitVec.ofNat 64 r.addr)).emit (.peerReply r.peer [] false true false)
    else s.emit (.peerReply r.peer (bs.map (·.1)) (anyDross bs) false false)

/-- Marks a request that broke a world: a read is answered with completer abort (R86). -/
def State.abortInbound (s : State) (id : Nat) : State :=
  { s with inreqs := s.inreqs.map (fun r => if r.id = id then { r with err := r.err || r.read, broke := true } else r) }

/-- Performs one access of a request of a peer or a host (R21, R60, R86, R208): a request that breaks a world makes one record, and
a host does not reach the registers through BAR2. -/
def State.performInbound (s : State) (a : Access) (q id : Nat) : State :=
  let s := match a.tgt with
    | .loc pa =>
      if !s.secureAt pa then s.performLocal a pa
      else if s.inreqs.any (fun r => r.id = id && r.broke) then s.finishError a
      else (s.abortInbound id).worldViolation a pa
    | .reg off => if 4096 ≤ q then s.finish a (clean (List.replicate a.kind.retBytes 0)) else s.performReg a off
    | _ => s.finishError a
  s.answer id

/-- The non-posted requests that a host link has outstanding (R19). -/
def State.nonPosted (s : State) (link : Nat) : Nat :=
  (s.inflight.filter (fun a => a.sent && (match a.tgt with
    | .host n _ => n = link
    | _ => false))).length

/-- Whether an access waits for a tag of its host link, of which 1024 requests may be outstanding (R19). -/
def State.tagsBusy (s : State) (a : Access) : Bool :=
  match a.tgt, a.kind with
  | .host _ _, .store _ => false
  | .host n _, _ => decide (1024 ≤ s.nonPosted n)
  | _, _ => false

/-- Whether a request to a peer carries an access. -/
def State.carried (s : State) (a : Access) : Bool := s.outreqs.any (fun o => o.accs.contains a.id)

/-- GLOBAL_ACCESS_PERFORM (R19, R206, R210, R219): an access that nothing holds back. One that a request to a peer carries is
performed at the peer. -/
def execGlobalAccessPerform (id : Nat) (s : State) : Res :=
  match s.access? id with
  | none => disabled "GLOBAL_ACCESS_PERFORM"
  | some a =>
    if !s.free a || a.sent || s.carried a || s.tagsBusy a then disabled "GLOBAL_ACCESS_PERFORM"
    else match a.src, a.tgt with
      | .inbound q r, _ => .next (s.performInbound a q r)
      | _, .loc pa => .next (s.performLocal a pa)
      | _, .reg off => .next (s.performReg a off)
      | _, .host n addr => .next (s.performHost a n addr)
      | _, .peer _ _ => .next (s.finishError a)
      | _, .none pa => .next ((s.raiseNomem a pa).finishError a)

/-- Performs an access of local memory, a peer's or the part's own. -/
def State.performAt (s : State) (a : Access) (pa : Nat) : State :=
  match a.src with
  | .inbound q r => s.performInbound a q r
  | _ => s.performLocal a pa

/-- HOST_COMPLETION (R219, R52, R303): the completion of a read or an atomic that a host link carries, or of a request to an
expander, whose poison is that of the granule. Bytes that a host does not return read as zero with dross. DEDUCED,
notes/assumptions/36.md -/
def execHostCompletion (id : Nat) (data : W64) (status : HostStatus) (s : State) : Res :=
  match s.access? id with
  | none => disabled "HOST_COMPLETION"
  | some a =>
    match a.tgt with
    | .host _ _ =>
      if !a.sent then disabled "HOST_COMPLETION"
      else if status = .ok then .next (s.finish a (clean (leBytes a.kind.retBytes data.toNat)))
      else .next (s.finishError a)
    | .loc pa =>
      if !s.free a || (s.inExpander pa).isNone then disabled "HOST_COMPLETION"
      else match status with
        | .ok => .next (s.performAt a pa)
        | .poison => .next ({ s with mem := s.mem.setBad (pa / 8) true }.performAt a pa)
        | _ => disabled "HOST_COMPLETION"
    | _ => disabled "HOST_COMPLETION"

end Sys2Proof.Machine
end

