-- ==== Sys2Proof/Machine/Streams.lean ====
section
/-! DEFINITION. Memory streams (R234 to R239, R432 to R434): issue, spilling, performance and end. -/

namespace Sys2Proof.Machine

/-! Elements. -/

/-- The elements that the counts of an affine stream define (R234). DEDUCED, notes/assumptions/50.md -/
def Stream.total (st : Stream) : Nat := st.count.foldl (· * ·) 1

/-- Whether a stream is affine. -/
def Stream.affine (st : Stream) : Bool := st.mode = 0

/-- Whether a stream's elements write. -/
def Stream.writes (st : Stream) : Bool := st.kind ≠ .read

/-- The sum of the coordinates of an element, each times its stride, in ascending i0, then i1, i2 and i3 (R234). -/
def affineSum : List Nat → List Int → Nat → Int
  | c :: cs, d :: ds, e => (e % c : Nat) * d + affineSum cs ds (e / c)
  | _, _, _ => 0

/-- The address of an element of an affine stream (R234). -/
def Stream.address (st : Stream) (e : Nat) : Int := st.base + affineSum st.count st.stride e

/-- The bytes that an element of an indexed WRITE or ACCUM stream acts on (R432). -/
def indexedSize (va : Nat) : Nat :=
  if va % 8 = 0 then 8 else if va % 4 = 0 then 4 else if va % 2 = 0 then 2 else 1

/-- Whether a stream is declared commutative (R238). -/
def Graph.commutes (g : Graph) (st : Stream) : Bool := st.kind = .accum && (g.chan st.chan).comm

/-- The token width of a stream: what it sends has the greatest width among its branches (R165). -/
def Graph.streamWidth (g : Graph) (st : Stream) : Nat :=
  let c := g.chan st.chan
  if st.kind = .read then
    ((g.chans.filter (fun e => e.2.src = c.src)).map (fun e => e.2.width)).foldl max c.width
  else c.width

/-- The operation of an ACCUM stream (R328). -/
def streamOp (op : Nat) : AtomOp :=
  match op with
  | 0 => .add
  | 1 => .min
  | 2 => .max
  | 3 => .minu
  | 4 => .maxu
  | 5 => .and
  | 6 => .or
  | _ => .xor

/-- Whether an element is spilled. -/
def Elem.spilled (e : Elem) : Bool :=
  match e.st with
  | .spilled _ => true
  | _ => false

/-- The entries in use of the spill queue of a port (R237). -/
def State.spills (s : State) (p : Nat) : Nat :=
  ((s.graphs.flatMap (fun g => g.2.streams.map (fun st =>
    if st.2.port = p then (st.2.window.filter Elem.spilled).length else 0)))).foldl (· + ·) 0

/-- The number that marks an element which waits at its translating node without a ticket (R230, R233). -/
def noTicket : Nat := 1024

/-! Translation (R231, R235). -/

/-- Whether a latched entry serves an address. -/
def TlbEntry.serves (e : TlbEntry) (va : Nat) (write : Bool) : Bool :=
  decide (e.va ≤ va) && decide (va < e.va + 2 ^ e.sh) && (e.w || !write)

/-- Whether a stream may latch an entry that a slice holds: not an old one that a flux would leave behind, since the flux has
emerged from the stream's port and not from the slice's (R241, R243). -/
def State.mayLatch (s : State) (slot h : Nat) (e : TlbEntry) : Bool :=
  match s.flux with
  | none => true
  | some x => !x.covers e.pasid e.va e.sh || x.left.contains slot || !x.left.contains h

/-- Translates the granules of an element with the latched entry of its stream, up to the first that does not translate, with
the port tiles that translate them (R231, R235, R241). A page of a failed ticket, and a page that the host denies, lead to no
memory. -/
def State.walkElem (pasid slot : Nat) (failed : List Nat) (affine write : Bool) (who : Waiter) :
    List (Nat × Nat) → Option TlbEntry → State → (List (Target × Nat) × List Nat × Option (Nat × Xl) × Option TlbEntry) × State
  | [], l, s => (([], [], none, l), s)
  | (va, n) :: t, l, s =>
    let go := fun (g : Target) (node : Nat) (l : Option TlbEntry) (s : State) =>
      let ((ts, ns, x, l), s) := State.walkElem pasid slot failed affine write who t l s
      ((((match g with
        | .reg off => Target.none (0x18000000000 + off)
        | g => g), n) :: ts, node :: ns, x, l), s)
    let h := sliceOf pasid va
    if failed.contains (va / 4096) then go (.none va) h l s
    else match l.filter (fun e => e.serves va write) with
      | some e => go (s.target (e.tgt + (va - e.va))) slot l s
      | none =>
        match s.translate pasid va write who with
        | (.ok pa, s) =>
          let e := ((s.cached h pasid va).find? (fun e => e.tgt + (va - e.va) = pa)).filter (s.mayLatch slot h)
          go (s.target pa) h (if affine then e.map (fun x => { x with node := slot }) else l) s
        | (.deny, s) => go (.none va) h l s
        | (x, s) => (([], [], some (va, x), l), s)

/-- An element after its walk: issued, spilled with a ticket, or waiting at its node; none when neither the spill queue nor
the tickets have room (R230, R237). -/
def State.place (s : State) (j n : Nat) (st : Stream) (e : Elem) : Option (Elem × Option TlbEntry) × State :=
  let pasid := s.pasidOf j
  let ps := pieces (e.len + 1) e.va e.len
  if !canonicalSpan e.va e.len then (some ({ e with st := .issued (ps.map (fun p => (.none p.1, p.2))) }, st.latched), s) else
  match State.walkElem pasid st.port e.failed st.affine st.writes (.elem j n e.idx) ps st.latched s with
  | ((ts, ns, none, l), s) => (some ({ e with st := .issued ts, nodes := ns }, l), s)
  | ((_, _, some (va, .fault code), l), s) =>
    if 64 ≤ s.spills st.port then (none, s) else
    match s.joinTicket j pasid va code st.writes (.elem j n e.idx) with
    | some (t, s) => (some ({ e with st := .spilled t }, l), s)
    | none => (none, s)
  | ((_, _, some _, _), s) => (none, s)

/-! The end of a stream (R434, R36). -/

/-- The tokens of one contribution to an all-reduce (R36). -/
def Stream.contribution (st : Stream) : Nat := (st.count.headD 0 * 2 ^ (st.mode + 1) + 63) / 64

/-- Whether a stream has no more to do (R434, R36). -/
def Graph.streamOver (g : Graph) (st : Stream) : Bool :=
  let dry := fun c : Nat => (g.chan c).ended && (g.chan c).buf = []
  st.window = [] && (match st.kind with
    | .read => if st.affine then decide (st.total ≤ st.next) else dry st.ichan
    | .write => dry st.chan
    | .accum => dry st.chan
    | .reduce => (g.chan st.chan).ended && st.ops = [] && st.results = [] &&
        decide (st.got.length + ((g.chan st.chan).buf.filter (fun t => !t.null)).length < st.contribution)
    | .requester => false)

/-- Ends a stream that has no more to do: its channels receive an end mark (R163, R434). -/
def Graph.endStream (g : Graph) (n : Nat) : Graph :=
  let st := g.stream n
  if st.ended || !g.streamOver st then g else
  let g := g.setStream n { st with ended := true }
  (g.outsOf n).foldl (fun g c => g.setChan c { g.chan c with ending := true }) g

/-! Issue (R236). -/

/-- Whether the window lets an element issue (R236, R238). -/
def Graph.windowOpen (g : Graph) (st : Stream) : Bool :=
  st.window.all (fun e => (g.commutes st && e.spilled) || decide (st.next < e.idx + 64))

/-- What a stream issues next: nothing, an element that is finished at once, an element, or an address wrap. -/
inductive NextElem
  | none
  | skip
  | elem (e : Elem)
  | wrap
  deriving DecidableEq, Repr

/-- The element at an address (R234). -/
def elemAt (e : Elem) (va : Int) : NextElem :=
  if va < 0 ∨ 2 ^ 64 ≤ va then .wrap else .elem { e with va := va.toNat }

/-- The next element of a READ stream (R234, R433). The index token of an element stays in its channel until the element is
finished. DEDUCED, notes/assumptions/37.md -/
def Graph.nextRead (g : Graph) (st : Stream) : NextElem :=
  let w := g.streamWidth st
  let e : Elem := { idx := st.next, len := w, st := .spilled noTicket }
  if st.affine then
    if st.next < st.total then elemAt e (st.address st.next) else .none
  else match (g.chan st.ichan).buf[st.window.length]? with
    | .none => .none
    | some t =>
      if t.null then .elem { e with st := .read { null := true } }
      else if t.dross then .elem { e with st := .read { dross := true } }
      else elemAt e (bitsOf t.data.toNat 63 0 : Nat)

/-- The next element of a WRITE or ACCUM stream (R234, R432, R433). -/
def Graph.nextWrite (g : Graph) (st : Stream) : NextElem :=
  match (g.chan st.chan).buf with
  | [] => .none
  | t :: _ =>
    if st.affine then
      if st.total ≤ st.next || t.null then .skip
      else elemAt { idx := st.next, len := g.streamWidth st, tok := t, st := .spilled noTicket } (st.address st.next)
    else if t.null then .skip
    else
      let va := bitsOf t.data.toNat 63 0
      .elem { idx := st.next, va := va, len := indexedSize va, tok := { t with data := t.data >>> 64 }, st := .spilled noTicket }

/-- The next element of a stream. -/
def Graph.nextElem (g : Graph) (st : Stream) : NextElem := if st.kind = .read then g.nextRead st else g.nextWrite st

/-- Replaces an element of a window, or removes it. -/
def Stream.putElem (st : Stream) (i : Nat) (e : Option Elem) : Stream :=
  { st with window := st.window.filterMap (fun x => if x.idx = i then e else some x) }

/-- Walks an element of the window again (R230, R237). -/
def State.rewalk (s : State) (j n i : Nat) : State :=
  let st := (s.graph j).stream n
  match st.window.find? (fun e => e.idx = i) with
  | some e =>
    if !e.spilled then s else
    let e := { e with late := true }
    match (s.setGraph j ((s.graph j).setStream n (st.putElem i none))).place j n st e with
    | (some (e', l), s) => s.setGraph j ((s.graph j).setStream n { st.putElem i (some e') with latched := l })
    | (none, s) => s.setGraph j ((s.graph j).setStream n (st.putElem i (some { e with st := .spilled noTicket })))
  | none => s

/-- Puts an element into the window and takes its token (R236). -/
def Graph.enqueue (g : Graph) (n : Nat) (e : Option Elem) (l : Option TlbEntry) : Graph :=
  let st := g.stream n
  let g := if st.kind = .read then g else g.consume st.chan 1
  g.setStream n { st with next := st.next + 1, window := st.window ++ e.toList, latched := l }

/-- STREAM_ELEMENT_ISSUE (R236): an element that waits at its node walks again before the next one is issued; one that writes
does so in a quench too, which waits for it (R239). -/
def execStreamElementIssue (job stream : Nat) (s : State) : Res :=
  let g := s.graph job
  let st := g.stream stream
  let flows := g.phase = .resident && g.quench.isNone
  if !s.hasGraph job || g.phase = .saved || g.phase = .loading || st.ended || !(flows || st.writes) || s.portStopped st.port then
    disabled "STREAM_ELEMENT_ISSUE"
  else if st.kind = .requester || st.kind = .reduce || (Tab.find g.streams stream).isNone then disabled "STREAM_ELEMENT_ISSUE"
  else match st.window.find? (fun e => e.st = .spilled noTicket) with
    | some e =>
      let s' := s.rewalk job stream e.idx
      if s' = s then disabled "STREAM_ELEMENT_ISSUE" else .next s'
    | none =>
      if !flows || !g.windowOpen st then disabled "STREAM_ELEMENT_ISSUE"
      else match g.nextElem st with
        | .none => disabled "STREAM_ELEMENT_ISSUE"
        | .skip => .next (s.setGraph job ((g.enqueue stream none st.latched).endStream stream))
        | .wrap => .next (s.abortGraph job stFault { code := 146, tval := BitVec.ofNat 64 st.next, wr := st.writes })
        | .elem e =>
          match e.st with
          | .read _ => .next (s.setGraph job (g.enqueue stream (some e) st.latched))
          | _ =>
            match s.place job stream st e with
            | (some (e, l), s) => .next (s.setGraph job ((s.graph job).enqueue stream (some e) l))
            | (none, s') => if s' = s then disabled "STREAM_ELEMENT_ISSUE" else .next s'

/-! Performance. -/

/-- Whether an element is on its way to its targets, or done. -/
def Elem.sent (e : Elem) : Bool :=
  match e.st with
  | .external _ _ => true
  | .read _ => true
  | _ => false

/-- Whether a READ element has been performed. -/
def Elem.done (e : Elem) : Bool :=
  match e.st with
  | .read _ => true
  | _ => false

/-- Whether two elements may lead to one granule: no page is smaller than 4 KiB, so the granules of one have the same offsets in
their pages (R227, R236). -/
def Elem.meets (x e : Elem) : Bool :=
  (pieces (x.len + 1) x.va x.len).any (fun p => (pieces (e.len + 1) e.va e.len).any (fun q =>
    decide (p.1 / 8 % 512 = q.1 / 8 % 512)))

/-- Whether an element may be sent on its way now (R234, R236 to R238): the elements of a stream are in element order, and their
chain keeps them so. A spilled element holds back the later ones, but for those of a commutative stream and the reads that cannot
lead to its granules; elements that walk again after a retry are performed one after the other. -/
def Graph.mayPerform (g : Graph) (st : Stream) (e : Elem) : Bool :=
  (st.window.filter (fun x => x.idx < e.idx)).all (fun x =>
    if x.spilled then (st.kind = .read && !x.meets e) || g.commutes st else x.sent && (!(e.late && x.late && st.kind = .read) || x.done))

/-- What one part of an element does at its target. -/
def Graph.partKind (g : Graph) (st : Stream) (e : Elem) (off n : Nat) : AKind :=
  let bs := ((e.tok.bytes (g.streamWidth st)).drop off).take n
  match st.kind with
  | .read => .load n
  | .accum => .atomic (streamOp st.op) (BitVec.ofNat 64 (leNat bs)) 0 e.tok.dross n
  | _ => .store (marked e.tok.dross bs)

/-- The parts of an element: number, offset, target and length. -/
def parts (ts : List (Target × Nat)) : List (Nat × Nat × Target × Nat) :=
  (ts.zipIdx).map (fun e => (e.2, ((ts.take e.2).map (·.2)).foldl (· + ·) 0, e.1.1, e.1.2))

/-- A notice for an element that resolves to no memory without a ticket (R206). -/
def State.elemNotice (s : State) (j : Nat) (st : Stream) (e : Elem) (ts : List (Target × Nat)) : State :=
  let base := (parts ts).find? (fun p => match p.2.2.1 with
    | .none _ => !e.failed.contains ((e.va + p.2.1) / 4096)
    | _ => false)
  match base with
  | some (_, _, .none pa, _) =>
    s.jobNotice j { code := 56, tval := BitVec.ofNat 64 pa, wr := st.writes, pasid := s.pasidOf j }
  | _ => s

/-- Whether the doublewords of a stream's elements are accesses of their own, in ascending address order (R432). -/
def Stream.wide (st : Stream) (e : Elem) : Bool := st.affine && st.writes && decide (8 < e.len)

/-- Sends an element on its way: an access for each granule, but for those that lead to no memory (R206, R209, R432). -/
def State.sendParts (s : State) (j n : Nat) (st : Stream) (e : Elem) (ts : List (Target × Nat)) : State :=
  let s := s.elemNotice j st e ts
  let g := s.graph j
  let got := ts.map (fun t => match t.1 with
    | .none _ => some (drossBytes t.2)
    | _ => none)
  let s := s.setGraph j (g.setStream n (st.putElem e.idx (some { e with st := .external got ts })))
  let live := (parts ts).filter (fun p => match p.2.2.1 with
    | .none _ => false
    | _ => true)
  let (nps, s) := State.number live s
  let grp := (nps.map (·.1)).headD 0
  s.sendAccesses (nps.map (fun x =>
    { id := x.1, grp := if st.wide e then x.1 else grp, req := grp, quiet := decide (live.length < ts.length), src := .stream j n e.idx x.2.1, cls := st.cls,
      kind := g.partKind st e x.2.2.1 x.2.2.2.2, va := e.va + x.2.2.1, tgt := x.2.2.2.1, node := e.nodes[x.2.1]?,
      pasid := s.pasidOf j, world := s.jobSecure j }))

/-- The token of what was read. -/
def tokenRead (bs : Bytes) : Token := { data := vOf (bs.map (·.1)), dross := anyDross bs }

/-- A token onto every channel of a stream (R165). -/
def Graph.emitToken (g : Graph) (n : Nat) (t : Token) : Graph :=
  (g.outsOf n).foldl (fun g c =>
    let x := g.chan c
    g.setChan c { x with transit := x.transit ++ [if t.null then t else { t with data := BitVec.ofNat 512 (t.data.toNat % 2 ^ (8 * x.width)) }] }) g

/-- Whether every channel of a stream has a free slot. -/
def Graph.roomFor (g : Graph) (n : Nat) : Bool :=
  (g.outsOf n).all (fun c => decide ((g.chan c).buf.length + (g.chan c).transit.length < (g.chan c).cap))

/-- A READ element's token, or the end of a write element. -/
def Graph.finishElem (g : Graph) (n : Nat) (e : Elem) (bs : Bytes) : Graph :=
  let st := g.stream n
  if st.kind = .read then g.setStream n (st.putElem e.idx (some { e with st := .read (tokenRead bs) }))
  else (g.setStream n (st.putElem e.idx none)).endStream n

/-- STREAM_ELEMENT_COMPLETE (R236 to R238, R434): an issued element goes on its way, and is done once each of its granules has
been performed; a READ element's token enters its channel in
element order. No token enters once the quench marker has followed the last (R171, R239). -/
def execStreamElementComplete (job stream elem : Nat) (s : State) : Res :=
  let g := s.graph job
  let st := g.stream stream
  if !s.hasGraph job || g.phase = .saved || g.phase = .loading || s.portStopped st.port then disabled "STREAM_ELEMENT_COMPLETE"
  else match st.window.find? (fun e => e.idx = elem) with
    | none => disabled "STREAM_ELEMENT_COMPLETE"
    | some e =>
      match e.st with
      | .issued ts =>
        if !g.mayPerform st e then disabled "STREAM_ELEMENT_COMPLETE"
        else .next (s.sendParts job stream st e ts)
      | .external got _ =>
        if got.all (·.isSome) then .next (s.setGraph job (g.finishElem stream e (got.flatMap (fun b => b.getD []))))
        else disabled "STREAM_ELEMENT_COMPLETE"
      | .read t =>
        if g.quench.isSome || !g.roomFor stream || st.window.any (fun x => x.idx < elem) then
          disabled "STREAM_ELEMENT_COMPLETE"
        else
          let g := (g.setStream stream (st.putElem elem none)).emitToken stream t
          let g := if st.affine then g else g.consume st.ichan 1
          .next (s.setGraph job (g.endStream stream))
      | .spilled _ => disabled "STREAM_ELEMENT_COMPLETE"

end Sys2Proof.Machine
end

