-- ==== Sys2Proof/Machine/Sched.lean ====
section
/-! DEFINITION. The tile between and around firings: fire gates and the firing boundary (R149, R150, R163, R286, R301),
the arrival of tokens and end marks (R161 to R163), lane elements in a stream run (R188, R384), and errors in tile
memories (R295, R296). -/

namespace Sys2Proof.Machine

/-! Gates (R149). -/

/-- The free space of a channel as its producer counts it (R149, R161). -/
def Chan.free (c : Chan) : Nat := c.cap - (c.buf.length + c.transit.length)

/-- Whether every inbound channel holds its tokens and every outbound channel has its free space (R149). -/
def Graph.gateOpen (g : Graph) (a : Actor) : Bool :=
  a.ins.all (fun e => decide (e.2 ≤ (g.inChan a e.1).buf.length)) &&
    a.outs.all (fun e => (g.outChans a e.1).all (fun c => decide (e.2 ≤ (g.chan c).free)))

/-- Whether an actor of a graph may start a firing at all (R99, R170, R171). -/
def State.mayFire (s : State) (j aid : Nat) : Bool :=
  let g := s.graph j
  let a := g.actor aid
  match g.phase with
  | .resident => true
  | .quenching => g.quench.all (fun q => !q.saved.contains aid)
  | .loading => (s.job j).welded.isSome && g.argsDone && g.actors.any (fun x => !x.2.loaded) &&
      (Tab.get {} g.alloys a.alloy).members.all (fun m => (g.actor m).loaded)
  | .saved => false

/-- Whether a firing of a kind has aborted on a translation fault and waits for its ticket (R232). -/
def Actor.ticketed (a : Actor) (kind : Nat) : Bool := a.held.any (·.1 = kind)

/-- Whether a fault firing of an actor is pending (R286). -/
def Actor.faultPending (a : Actor) : Bool := a.deliveries ≠ [] && !a.ticketed 2

/-- Whether the completion firing that is next in kick order is pending (R160). -/
def Actor.compPending (a : Actor) : Bool := (a.comps.head?).any (·.done) && !a.ticketed 1

/-- Whether the fire gate of an actor lets an ordinary firing start (R149, R159, R160, R232): not before the completion firing of a
copy that it has waited for, nor once a completion firing has executed aend (R342). -/
def Graph.fires (g : Graph) (a : Actor) : Bool :=
  !a.ended && !a.closing && !a.asleep && !a.ticketed 0 && !a.comps.any (·.waited) && g.gateOpen a

/-- Whether an actor is chosen at a firing boundary (R150, R286). -/
def State.eligible (s : State) (j aid : Nat) : Bool :=
  let g := s.graph j
  let a := g.actor aid
  s.mayFire j aid && (a.faultPending || (!a.suspended && (a.compPending || g.fires a)))

/-- Whether an inbound channel of an actor is exhausted (R163). -/
def Graph.exhausted (g : Graph) (a : Actor) : Bool :=
  a.ins.any (fun e => (g.inChan a e.1).ended && decide ((g.inChan a e.1).buf.length < e.2))

/-- Ends the actors of a tile that have an exhausted inbound channel (R163). -/
def State.endExhausted (s : State) (t : Nat) : State :=
  (s.residents t).foldl (fun s r =>
    let g := s.graph r.1
    let a := g.actor r.2.1
    if s.hasGraph r.1 && !a.ended && a.loaded && s.mayFire r.1 r.2.1 && g.exhausted a then s.endActor r.1 r.2.1 else s) s

/-- The actor that a boundary chooses: the first eligible one in cyclic slot order (R150). -/
def State.nextActor (s : State) (t : Nat) : Option (Nat × Nat × Actor) :=
  (List.range 16).findSome? (fun i =>
    (s.residents t).find? (fun r => r.2.2.slot = ((s.tile t).last + 1 + i) % 16 && s.eligible r.1 r.2.1))

/-- The state in which an ordinary or a completion firing starts (R148, R337). -/
def State.startFiring (s : State) (t j aid : Nat) (kind : FKind) (pc : Nat) : State :=
  let a := s.actor j aid
  s.setFiring t
    { job := j, aid := aid, kind := kind, first := s.nextId, regs := { pc := pc }, w0 := a.w0, w1 := a.w1,
      gctr := a.gctr, fflags := a.fflags, lane := a.lane, words0 := a.ctxs.map (fun e => (e.1, e.2.word)),
      nodes0 := a.nodes, gens := a.gens }

/-- Starts the firing of the chosen actor: fault before completion before ordinary (R150, R286). -/
def State.fireActor (s : State) (t j aid : Nat) (a : Actor) : State :=
  let s := s.setTile t { s.tile t with last := a.slot }
  match (if a.faultPending then a.deliveries.head? else none), (s.graph j).fault with
  | some c, some fa => s.startFault t j fa c
  | _, _ =>
    match a.comps.head? with
    | some c => if a.compPending && !a.suspended then s.startFiring t j aid (.completion c.cxid c.cxst) c.handler
                else s.startFiring t j aid .ordinary 0
    | none => s.startFiring t j aid .ordinary 0

/-- Takes the causes that wait for a boundary (R286). -/
def State.takeCauses (s : State) (t : Nat) : State :=
  let cs := (s.tile t).causes
  cs.foldl (fun s c => s.takeCause c.1 c.2) (s.setTile t { s.tile t with causes := [] })

/-- What an assay request does at the next boundary of an occupied tile: a move to the coolest fallow tile of the plot
or, with none to take, a quench of the tile's graphs (R301). -/
def State.vacate (s : State) (t : Nat) : State :=
  match s.coolest (plotOf t) with
  | some d => if s.plotMoving (plotOf t) then (((s.residents t).map (·.1)).dedup).foldl State.beginQuench s
              else s.startMove t { dst := d, forAssay := true }
  | none => (((s.residents t).map (·.1)).dedup).foldl State.beginQuench s

/-- FIRING_BOUNDARY (R150, R163, R286, R301): no firing starts on a tile that is in a move, that is stopped, or that
waits for its assay. -/
def execFiringBoundary (tile : Nat) (s : State) : Res :=
  if (s.tile tile).firing.isSome || s.inMove tile || (s.block tile).stopped then disabled "FIRING_BOUNDARY"
  else
    let s' := (s.takeCauses tile).endExhausted tile
    let s' :=
      if (s.block tile).assaying && s.residents tile ≠ [] then s'.vacate tile
      else match s'.nextActor tile with
        | some (j, aid, a) => s'.fireActor tile j aid a
        | none => s'
    if s' = s then disabled "FIRING_BOUNDARY" else .next s'

/-! Tokens and marks on their way. -/

/-- TOKEN_ARRIVAL (R161, R162, R167): one flit's tokens, or one run of up to 64 nulls, enter the buffer. A flit whose check fails is an uncorrectable error in its tokens, which then carry dross. DEDUCED,
notes/assumptions/80.md -/
def execTokenArrival (job chan : Nat) (x : Flit) (s : State) : Res :=
  let g := s.graph job
  let n := x.n
  match Tab.find g.chans chan with
  | none => disabled "TOKEN_ARRIVAL"
  | some c =>
    let ts := c.transit.take n
    let whole := ts.all (·.null) && decide (n ≤ 64) || (ts.all (fun t => !t.null) && decide (n * c.width ≤ 64))
    if !s.hasGraph job || g.phase = .saved || n = 0 || c.transit.length < n || !whole ||
        c.dst.aid?.any (fun a => s.midMove (g.actor a).tile) then disabled "TOKEN_ARRIVAL"
    else match flitTokens (s.jobSecure job) chan ts x.side with
    | none => disabled "TOKEN_ARRIVAL"
    | some (got, bad) =>
      let s := if bad then s.flitError (g.dstBlock chan c) (c.dst.aid?.getD 0) chan else s
      let g := g.setChan chan { c with buf := c.buf ++ got, transit := c.transit.drop n }
      let dead := c.dst.aid?.any (fun a => (g.actor a).ended)
      let g := if dead then (g.setChan chan { c with buf := [], transit := c.transit.drop n }).wake c.src else g
      .next (s.setGraph job (g.wake c.dst))

/-- END_MARK (R163, R167, R434): the mark follows the last token. -/
def execEndMark (job : Nat) (x : MarkFlit) (s : State) : Res :=
  let g := s.graph job
  match Tab.find g.chans x.n with
  | none => disabled "END_MARK"
  | some c =>
    if !s.hasGraph job || g.phase = .saved || !c.ending || c.ended || c.transit ≠ [] then disabled "END_MARK"
    else match s.takeMark (g.dstBlock x.n c) (c.dst.aid?.getD 0) { kind := 1, chans := some [x.n], world := s.jobSecure job } x.flit with
    | none => disabled "END_MARK"
    | some s =>
      let g := g.setChan x.n { c with ended := true }
      .next (s.setGraph job (match c.dst with
        | .stream n => g.endStream n
        | _ => g))

/-! Stream runs. -/

/-- LANE_ELEMENT_FIRE (R123, R188, R383). -/
def execLaneElementFire (tile elem : Nat) (s : State) : Res :=
  if (s.block tile).stopped then disabled "LANE_ELEMENT_FIRE" else
  match (s.tile tile).firing with
  | some f =>
    match f.run with
    | some r =>
      if r.ready (s.graph f.job) (s.actor f.job f.aid) f.lane elem then .next (s.setFiring tile (s.fireElem f r elem))
      else disabled "LANE_ELEMENT_FIRE"
    | none => disabled "LANE_ELEMENT_FIRE"
  | none => disabled "LANE_ELEMENT_FIRE"

/-- STREAM_RUN_DONE (R384): the flags of a finished run that vswt or cfgdrn waits for. -/
def execStreamRunDone (tile : Nat) (s : State) : Res :=
  match (s.tile tile).firing with
  | some f =>
    match f.run with
    | some r =>
      if r.finished f.lane && f.phase = .vswt then .next (s.setFiring tile (f.mergeRun r)) else disabled "STREAM_RUN_DONE"
    | none => disabled "STREAM_RUN_DONE"
  | none => disabled "STREAM_RUN_DONE"

/-! Errors in the tile (R295, R296). -/

/-- An uncorrectable error that the firing in progress has met (R156, R158). -/
def State.uncorrAt (s : State) (t : Nat) (aid : Nat) : State :=
  match (s.tile t).firing with
  | some f => if f.aid ≠ aid then s else
    match f.phase with
    | .commit step _ => if 3 < step then s else s.uncorr t f
    | _ => s.uncorr t f
  | none => s

/-- A mismatch of shift-recheck that recurs in a Silt engine (R295): the copy ends. -/
def State.siltRecheck (s : State) (p : Nat) (c : Copy) : State :=
  let x := Config.syndrome s.fresh
  let s := { s with fresh := s.fresh + 1 }
  let s := s.addRecord (portBlock p) 3 5 244 c.aid (BitVec.ofInt 64 (s.port p).eng.regs.pc) x
  (s.blockNotice (portBlock p) 244).breakCopy p c 148 (BitVec.ofNat 64 p)

/-- Whether a unit of a tile executes operations for a firing (R294): the sequencer until commit, and the lane array also while a
stream run goes on in commit step 1. -/
def Firing.computes (f : Firing) (lanes : Bool) : Bool :=
  match f.phase with
  | .commit _ _ => lanes && f.run.isSome
  | _ => true

/-- UNCORRECTABLE_ERROR (R295, R296, R156): memory 0 is handler code, which is reloaded; memories 16 and 17 stand for
mismatches of shift-recheck in the sequencer and the lane array; on a port tile, memory 18 is a mismatch of its engine
that recurs and 19 one that does not. -/
def execUncorrectableError (tile : Nat) (x : FoundErr) (s : State) : Res :=
  let site := x.site
  if 4096 ≤ tile then
    match (s.port (tile - 4096)).eng.copy with
    | none => disabled "UNCORRECTABLE_ERROR"
    | some c =>
      if site.mem = 18 then .next (s.siltRecheck (tile - 4096) c)
      else if site.mem = 19 then
        let x := Config.syndrome s.fresh
        let s := { s with fresh := s.fresh + 1 }
        .next (s.addRecord tile 1 5 0 c.aid (BitVec.ofInt 64 (s.port (tile - 4096)).eng.regs.pc) x)
      else disabled "UNCORRECTABLE_ERROR"
  else if site.mem = 16 || site.mem = 17 then
    match (s.tile tile).firing with
    | some f =>
      let lanes := decide (site.mem = 17)
      if f.computes lanes then
        let pc := match f.run with
          | some r => if lanes then r.pc else f.regs.pc
          | none => f.regs.pc
        .next (s.recheckMiss tile f (site.mem - 16) pc)
      else disabled "UNCORRECTABLE_ERROR"
    | none => disabled "UNCORRECTABLE_ERROR"
  else if site.mem = 0 then .next (s.blockNotice tile 243)
  else if 9 < site.mem then disabled "UNCORRECTABLE_ERROR"
  else
    let s := ((s.poisonSite tile site).tileRecord tile site 3).blockNotice tile 243
    .next (if x.read then s.uncorrAt tile site.aid else s)

/-- TILE_SCRUB (R296): a scrub that finds nothing, a correctable error, or an uncorrectable one. -/
def execTileScrub (tile : Nat) (found : Option (ErrSite × Bool)) (s : State) : Res :=
  match found with
  | none => .next s
  | some (e, true) => .next (s.tileRecord tile e 1)
  | some (e, false) => if e.mem = 0 then .next (s.tileRecord tile e 3) else .next ((s.poisonSite tile e).tileRecord tile e 3)

end Sys2Proof.Machine
end

