-- ==== Sys2Proof/Machine/Power.lean ====
section
/-! DEFINITION. Moves in progress (R53, R54, R132, R133), thermal control (R123), the package limit (R124 to R127),
energy (R135 to R137), ageing (R140, R141) and assays (R300 to R302). -/

namespace Sys2Proof.Machine

/-! Moves. -/

/-- The numbers of the copies of an actor that an engine holds: those that it kicked, until their mailbox release (R199), and those that
bring it a broadcast (R166). -/
def Engine.copiesOf (e : Engine) (j aid : Nat) : List Nat :=
  (e.copy.toList.filter (fun c => c.job = j && (c.aid = aid || c.subs.contains aid))).map (·.uid) ++
    (e.ending.filter (fun x => x.job = j && x.aid = aid)).map (·.uid) ++
    ((e.kicks ++ e.late).filter (fun k => k.job = j && (k.aid = aid || k.subs.contains aid))).map (·.uid)

/-- The tags whose replies an actor consumes, as a port holds them: requester and number (R44, R428). -/
def State.tagsOf (s : State) (p j aid : Nat) : List (Nat × Nat) :=
  ((s.port p).reqs.filter (fun r => r.2.job = j &&
      ((s.graph j).outsOf r.2.stream).any (fun c => ((s.graph j).chan c).dst.aid? = some aid))).flatMap
    (fun r => (r.2.tags.filter (fun t => t.reply.isNone)).map (fun t => (r.1, t.seq)))

/-- Writes the relocation entry of one actor in one port, if the port holds traffic of it, and sends the marker (R53, R54); none while
the table is full. An entry that was there before the move, whose new pair is the old pair of this one, is rewritten; otherwise the
lowest free one is taken. DESIGN CHOICE, notes/assumptions/86.md -/
def Port.relocate (p : Port) (before : Tab Reloc) (copies : List Nat) (tags : List (Nat × Nat)) (old new : Nat × Nat) : Option Port :=
  if copies = [] ∧ tags = [] then some p else
  let p := { p with markers := p.markers ++ [(old, new)] }
  match before.find? (fun e => e.2.new = old) with
  | some e => some { p with reloc := Tab.set p.reloc e.1 { e.2 with
      new := new, copies := (e.2.copies ++ copies).dedup, tags := (e.2.tags ++ tags).dedup } }
  | none =>
    match (List.range 32).find? (fun i => (Tab.find p.reloc i).isNone) with
    | some i => some { p with reloc := Tab.set p.reloc i { old := old, new := new, copies := copies, tags := tags } }
    | none => none

/-- Writes the relocation entries of one actor in every port (R53); none while one of them has no free entry. -/
def State.relocate (before : State) (s : State) (j aid slot old new : Nat) : Option State :=
  (s.ports.map (·.1)).foldl (fun o p => o.bind (fun s =>
    ((s.port p).relocate (before.port p).reloc ((s.port p).eng.copiesOf j aid) (s.tagsOf p j aid) (old, slot) (new, slot)).map (s.setPort p)))
    (some s)

/-- Whether a slot of a tile waits for the relocation marker of an actor that has left it, other than one that comes from a given
pair (R54). -/
def State.slotHeld (s : State) (t slot : Nat) (from? : Nat × Nat) : Bool :=
  s.ports.any (fun p => p.2.markers.any (fun e => e.1 = (t, slot) && e.2 ≠ from?))

/-- Moves the actors of one tile (R131, R132 steps 5 and 6): none while a table is full, or a slot that is not released yet (R54)
is needed. -/
def State.retarget (before : State) (s : State) (rs : List (Nat × Nat × Actor)) (src dst : Nat) : Option State :=
  if rs.any (fun r => before.slotHeld dst r.2.2.slot (src, r.2.2.slot)) then none else
  rs.foldl (fun o r => o.bind (fun s =>
    (before.relocate s r.1 r.2.1 r.2.2.slot src dst).map (fun s =>
      let a := s.actor r.1 r.2.1
      s.setActor r.1 r.2.1 { a with tile := dst, tgen := a.tgen + 1 }))) (some s)

/-- Whether the drain of a move has ended (R132 step 2). -/
def State.moveDrained (s : State) (src : Nat) (m : Move) : Bool :=
  m.step = 1 && (s.tile src).firing.isNone && (!m.swap || (s.tile m.dst).firing.isNone)

/-- MOVE_STATE_COPY (R132 steps 1 to 3). -/
def execMoveStateCopy (src : Nat) (s : State) : Res :=
  match (s.tile src).move with
  | some m =>
    if s.moveDrained src m then .next (s.startMove src { m with step := 4 }) else disabled "MOVE_STATE_COPY"
  | none => disabled "MOVE_STATE_COPY"

/-- MOVE_RETARGET (R132 steps 4 to 7): it waits while a relocation table is full or a slot is not released. -/
def execMoveRetarget (src : Nat) (s : State) : Res :=
  match (s.tile src).move with
  | some m =>
    if m.step ≠ 4 then disabled "MOVE_RETARGET"
    else
      let here := s.residents src
      let there := if m.swap then s.residents m.dst else []
      match (s.retarget s here src m.dst).bind (fun s' => s.retarget s' there m.dst src) with
      | none => disabled "MOVE_RETARGET"
      | some s' =>
        let a := s'.tile src
        let b := s'.tile m.dst
        let s' := s'.setTile src { b with move := none }
        let s' := s'.setTile m.dst { a with move := b.move }
        let k := s'.kiln
        let k := if m.forAssay then k else if m.rebal then { k with rbs := bump k.rbs } else { k with rots := bump k.rots }
        let moved := ((here ++ there).map (·.1)).dedup
        .next { s' with kiln := k, graphs := s'.graphs.map (fun (e : Nat × Graph) => if moved.contains e.1 then (e.1, e.2.rewire) else e) }
  | none => disabled "MOVE_RETARGET"

/-- MOVE_ABANDON (R133): the actors resume on the source, and the target is assayed. -/
def execMoveAbandon (src : Nat) (s : State) : Res :=
  match (s.tile src).move with
  | some m =>
    if s.moveDrained src m then
      let s := s.setTile src { s.tile src with move := none }
      .next (s.setBlock m.dst { s.block m.dst with assaying := true })
    else disabled "MOVE_ABANDON"
  | none => disabled "MOVE_ABANDON"

/-- RELOCATION_MARKER (R54, R167): a marker on its way arrives, `x.n` markers after the oldest, and the slot that was left is
released. -/
def execRelocationMarker (port : Nat) (x : MarkFlit) (s : State) : Res :=
  let p := s.port port
  if x.n < p.markers.length then
    match s.takeMark (portBlock port) 0 { kind := 4 } x.flit with
    | none => disabled "RELOCATION_MARKER"
    | some s => .next ((s.setPort port { p with markers := p.markers.eraseIdx x.n }).clearReloc port)
  else disabled "RELOCATION_MARKER"

/-! Thermal control (R123). -/

/-- The actor in the lowest occupied slot of a tile. -/
def State.lowest (s : State) (t : Nat) : Option (Nat × Nat × Actor) :=
  if 4096 ≤ t then none else (List.range 16).findSome? (fun k => (s.residents t).find? (fun r => r.2.2.slot = k))

/-- THERMAL_READ (R123). -/
def execThermalRead (block celsius : Nat) (s : State) : Res :=
  let b := { s.block block with temp := celsius }
  if 110 ≤ celsius ∧ !b.stopped then .next ((s.setBlock block { b with stopped := true }).blockNotice block 241)
  else if celsius < 100 ∧ b.stopped then .next (s.setBlock block { b with stopped := false, tstep := 0 })
  else .next (s.setBlock block b)

/-- TTHROT as it holds for a block (R144): that of the round of the alloy in its lowest occupied slot, and the register's where no
alloy is. DEDUCED, notes/assumptions/71.md -/
def State.tthrot (s : State) (b : Nat) : Nat :=
  match s.lowest b with
  | some r => (Tab.get {} (s.graph r.1).alloys r.2.2.alloy).tthrot
  | none => fld s.kiln.anctl 39 32

/-- THERMAL_STEP (R123): a full 1 ms above the threshold, or below it by more than 5 °C. -/
def execThermalStep (block : Nat) (s : State) : Res :=
  let b := s.block block
  if s.tthrot block ≤ b.temp then
    if b.tstep = 0 then disabled "THERMAL_STEP" else .next (s.setBlock block { b with tstep := b.tstep - 1 })
  else if b.temp + 5 < s.tthrot block ∧ b.tstep < 68 then .next (s.setBlock block { b with tstep := b.tstep + 1 })
  else disabled "THERMAL_STEP"

/-! The package limit (R124 to R127). -/

/-- The dispatch cap in force (R94). -/
def State.capNow (s : State) : Nat := if s.board.capLow then min s.kiln.cap 5250 else s.kiln.cap

/-- The weight of a job (R92). -/
def State.weight (s : State) (j : Nat) : Nat :=
  let r := s.job (s.root j)
  min r.jr.pweight (fld (s.queue r.queue).cfg 31 24)

/-- The base priority of a job (R92). -/
def State.basePrio (s : State) (j : Nat) : Nat :=
  let r := s.job (s.root j)
  min r.jr.prio (fld (s.queue r.queue).cfg 23 21)

/-- The credit source of a job: its queue, or the pool (R93). -/
def State.source (s : State) (j : Nat) : Nat := if (s.job j).parent.isSome then 4096 else (s.job j).queue

/-- A resident alloy as the power controller ranks it (R124). -/
structure Ranked where
  w : Nat
  src : Nat
  first : Nat
  job : Nat
  alloy : Nat
  deriving DecidableEq, Repr

/-- The resident alloys (R124): in a weld, with the larger weight of the two jobs. -/
def State.ranked (s : State) : List Ranked :=
  s.graphs.flatMap (fun g => if g.2.phase = .saved || g.2.phase = .loading then [] else
    g.2.alloys.map (fun a =>
      { w := (s.partners g.1).foldl (fun w k => max w (s.weight k)) (s.weight g.1), src := s.source g.1,
        first := a.2.members.foldl min 65535, job := g.1, alloy := a.1 }))

/-- The order of throttling: the lowest weight, then the lower queue, then the lower aid (R124). -/
def Ranked.before (x y : Ranked) : Bool :=
  x.w < y.w || (x.w = y.w && (x.src < y.src || (x.src = y.src && x.first < y.first)))

/-- The first of some alloys in an order. -/
def firstOf (lt : Ranked → Ranked → Bool) : List Ranked → Option Ranked
  | [] => none
  | r :: l => some (l.foldl (fun b x => if lt x b then x else b) r)

/-- Whether a graph may enter half-row mode (R127). -/
def Graph.large (g : Graph) : Bool := decide (128 < g.used.length)

/-- Sets an alloy's package limit. -/
def State.setLimit (s : State) (r : Ranked) (k : Nat) : State :=
  let g := s.graph r.job
  s.setGraph r.job { g with alloys := Tab.modify g.alloys r.alloy (fun a => { a with limit := k }) }

/-- The package limit of a ranked alloy. -/
def State.limitOf (s : State) (r : Ranked) : Nat := (Tab.get {} (s.graph r.job).alloys r.alloy).limit

/-- One throttle action (R124). -/
def State.throttle (s : State) : State :=
  let open? := fun r : Ranked => ((s.graph r.job).large && !(s.graph r.job).halfRow) || decide (0 < s.limitOf r)
  match firstOf Ranked.before (s.ranked.filter open?) with
  | none => s
  | some r =>
    let g := s.graph r.job
    if g.large && !g.halfRow then s.setGraph r.job { g with halfRow := true } else s.setLimit r (s.limitOf r - 1)

/-- Undoes one throttle action (R125). -/
def State.unthrottle (s : State) : State :=
  let full := fun j => (s.graph j).alloys.all (fun a => decide (68 ≤ a.2.limit))
  let undo := fun r : Ranked => decide (s.limitOf r < 68) || ((s.graph r.job).halfRow && full r.job)
  match firstOf (fun x y => Ranked.before y x) (s.ranked.filter undo) with
  | none => s
  | some r =>
    if s.limitOf r < 68 then s.setLimit r (s.limitOf r + 1)
    else s.setGraph r.job { s.graph r.job with halfRow := false }

/-- POWER_WINDOW (R124, R125): the end of a window of 1 ms, with the power that the meters have summed. -/
def execPowerWindow (watts : Nat) (s : State) : Res :=
  let binds := decide (s.capNow < watts)
  let low := decide (100 * watts < 95 * s.capNow)
  let calm := if low then s.kiln.calm + 1 else 0
  let s := { s with kiln := { s.kiln with bound := binds, calm := min calm 11 } }
  .next (if binds then s.throttle else if 10 < calm then s.unthrottle else s)

/-! Energy (R135 to R137, R110). -/

/-- The jobs of a tree that hold a graph. -/
def State.treeGraphs (s : State) (root : Nat) : List Nat := (s.graphs.map (·.1)).filter (fun j => s.root j = root)

/-- Marks the quench of a graph as one for an empty account (R137). -/
def State.markStall (s : State) (j : Nat) : State :=
  match (s.graph j).quench with
  | some q => s.setGraph j { s.graph j with quench := some { q with stall := true } }
  | none => s

/-- Stops every resident graph of a tree whose account is empty (R110, R137). -/
def State.stall (s : State) (root : Nat) : State :=
  let js := s.treeGraphs root
  js.foldl State.markStall (js.foldl State.beginQuench s)

/-- Whether a graph of a tree is being quenched for an empty account (R137). -/
def State.stalling (s : State) (root : Nat) : Bool := (s.treeGraphs root).any (fun j => (s.graph j).quench.any (·.stall))

/-- Whether the energy of a block is charged to a job (R135): idle energy to the lowest occupied slot of a tile, that of a firing to
the actor that has fired last, and that of a port tile to the jobs that it works for. -/
def State.chargeable (s : State) (block job : Nat) (idle : Bool) : Bool :=
  if block < 4096 then
    if idle then (s.lowest block).any (fun r => r.1 = job)
    else (s.residents block).any (fun r => r.1 = job && r.2.2.slot = (s.tile block).last)
  else
    let p := s.port (block - 4096)
    !idle && (p.eng.copy.any (·.job = job) || p.eng.ending.any (·.job = job) || p.reqs.any (fun r => r.2.job = job))

/-! Ageing (R140, R141). -/

/-- The thresholds of DRIFT that a value has reached: 50, and each further 10 units. -/
def driftMarks (d : Nat) : Nat := if d < 50 then 0 else (d - 50) / 10 + 1

/-- LIFE at an age of the part (R140): the whole months until the line through the last measurements reaches 50. Nothing is left once
DRIFT has reached 50, and a line that does not rise never reaches it. DESIGN CHOICE, notes/assumptions/72.md -/
def lifeOf (hist : List (Nat × Nat)) (drift age : Nat) : Nat :=
  let (a, b, d) := Config.lifeLine hist
  if 50 ≤ drift then 0
  else if a ≤ 0 then 255
  else min 255 ((50 * ((d : Int) + 1) - b - a * age) / (a * ((Config.monthHours : Int) + 1))).toNat

/-- A measurement of the ring oscillators at an age of the part in hours (R140, R141). -/
def State.measure (s : State) (t drift age : Nat) : State :=
  let b := s.block t
  let d := min drift 255
  let hist := (b.hist ++ [(age, d)]).drop (b.hist.length + 1 - 30)
  let l := lifeOf hist d age
  let old := !b.aged && decide (l < 6)
  let s := s.setBlock t { b with drift := d, life := l, hist := hist, ceilLoss := max b.ceilLoss (2 * driftMarks d), aged := b.aged || old }
  if old then s.blockNotice t 242 else s

/-- The measurements of every block at one age of the part (R140): the DRIFT of a block that is not listed is as it was. -/
def State.measureAll (s : State) (age : Nat) (ms : List (Nat × Nat)) : State :=
  (List.range 4352).foldl (fun s t => s.measure t ((Tab.find ms t).getD (s.block t).drift) age) s

/-- AGEING_MEASURE (R140): only while the tile holds no actor. -/
def execAgeingMeasure (block drift age : Nat) (s : State) : Res :=
  if s.residents block = [] then .next (s.measure block drift age) else disabled "AGEING_MEASURE"

/-! Assays (R300 to R302). -/

/-- ASSAY_RUN (R301, R302): a compute tile must hold no actor and be in no move; a port tile is assayed in place. -/
def execAssayRun (block : Nat) (s : State) : Res :=
  let b := s.block block
  if !b.assaying || b.running || (decide (block < 4096) && (s.residents block ≠ [] || s.inMove block)) then
    disabled "ASSAY_RUN"
  else .next (s.setBlock block { b with running := true })

/-- The step in force on a block (R119, R121, R123, R146), 0 where the oscillator is stopped: a port tile's is 44 lowered by R123 alone,
also where its FCEIL has aged below that. DESIGN CHOICE, notes/assumptions/87.md -/
def State.fcur (s : State) (b : Nat) : Nat :=
  let x := s.block b
  if x.stopped then 0
  else if b < 4096 then (if s.residents b = [] then 0 else s.commonStep b)
  else if s.board.island then min 44 x.tstep else 0

/-- Whether the oscillator of a block runs (R121, R123). -/
def State.clocked (s : State) (b : Nat) : Bool :=
  !(s.block b).stopped && (if b < 4096 then s.residents b ≠ [] else s.board.island)

/-- Whether a port tile's engine is lost: a spent memory port or host port (R302). -/
def State.engineLost (s : State) (p : Nat) : Bool := (s.block (portBlock p)).spent

end Sys2Proof.Machine
end

