-- ==== Sys2Proof/Machine/Ports.lean ====
section
/-! DEFINITION. Memory ports (R38, R40 to R52, R55): requests, replies, the end of a binding, scrubbing and expanders. -/

namespace Sys2Proof.Machine

/-! Which port serves an address (R38, R39, R43, R52). -/

/-- The port tile that owns an address of local memory (R38, R39, R52). -/
def State.ownerTile (s : State) (pa : Nat) : Nat :=
  if pa < 0x18000000000 then memTile (8 * (pa / 2 ^ 36) + bitsOf pa 12 10)
  else match s.board.lpddr.find? (fun e => e.1 ≤ pa ∧ pa < e.1 + e.2.1) with
    | some e => memTile (8 * e.2.2 + bitsOf (pa - e.1) 12 10)
    | none => match s.inExpander pa with
      | some (n, e, _) => 64 * n + 30 + e % 4
      | none => 0

/-! Requests (R41, R42). -/

/-- The fields of a header token. -/
def hdrOp (t : Token) : Nat := dwf t.data 1 3 0
/-- CLASS of a header. -/
def hdrClass (t : Token) : Nat := dwf t.data 1 7 4
/-- ADDR of a header. -/
def hdrAddr (t : Token) : Nat := dwf t.data 0 63 0

/-- Whether a header breaks the rules of its fields (R42). -/
def hdrBad (t : Token) : Bool :=
  decide (2 ≤ hdrOp t) || decide (hdrAddr t % 64 ≠ 0) || decide (dwf t.data 1 63 8 ≠ 0) || decide (bitsOf t.data.toNat 511 192 ≠ 0)

/-- The status that a header settles before it is performed (R42): DROSS, then BADOP. -/
def hdrStatus (t : Token) : Option Nat := if t.dross then some 1 else if hdrBad t then some 4 else none

/-- A requester of a port that may take a header: its graph, and the number of its request channel. -/
def State.taker (s : State) (p r : Nat) : Option (Requester × Graph × Nat) :=
  match Tab.find (s.port p).reqs r with
  | none => none
  | some q =>
    let g := s.graph q.job
    if !s.hasGraph q.job || g.phase ≠ .resident || g.quench.isSome || q.ended || s.portStopped p then none
    else some (q, g, (g.stream q.stream).chan)

/-- Whether the next tag of a requester is free (R44). -/
def Requester.tagFree (q : Requester) : Bool := q.tags.all (fun t => t.tag ≠ q.nextTag)

/-- Sets a requester. -/
def State.setReq (s : State) (p r : Nat) (q : Requester) : State :=
  s.setPort p { s.port p with reqs := Tab.set (s.port p).reqs r q }

/-- Changes one tag of a requester. -/
def State.modTag (s : State) (p r tag : Nat) (k : TagEntry → TagEntry) : State :=
  s.setPort p { s.port p with reqs := Tab.modify (s.port p).reqs r (fun q =>
    { q with tags := q.tags.map (fun t => if t.tag = tag then k t else t) }) }

/-- Where a request's physical address leads (R42): a port serves no address of a host window or of a peer window, the part's own
included. -/
def State.portTarget (s : State) (pa : Nat) : Target :=
  if pa < 0x1000000000000 then s.lowTarget pa
  else if pa < 0x2000000000000 || (decide (0x40000000000000 ≤ pa) && decide (pa < 0x80000000000000)) then .host 0 pa
  else .none pa

/-- Translates the address of a tag (R41, R231): its target, its ticket, or neither while it waits at its node. An address
that is never translated leads to no memory, whatever the port. -/
def State.walkTag (s : State) (p r : Nat) (job : Nat) (t : TagEntry) : State :=
  let lost := fun s : State => s.modTag p r t.tag (fun x => { x with bad := some 2, ticket := none })
  if !canonicalSpan t.addr 64 then lost s else
  match s.translate (s.pasidOf job) t.addr t.write (.req p r t.tag) with
  | (.ok pa, s) => s.modTag p r t.tag (fun x => { x with tgt := some (s.portTarget pa), ticket := none })
  | (.deny, s) => lost s
  | (.wait, s) => s
  | (.fault code, s) =>
    match s.joinTicket job (s.pasidOf job) t.addr code t.write (.req p r t.tag) with
    | some (n, s) => s.modTag p r t.tag (fun x => { x with ticket := some n })
    | none => s

/-- Takes a request with the next tag (R41, R44): `n` tokens leave the request channel. -/
def State.takeReq (s : State) (p r : Nat) (q : Requester) (c n : Nat) (e : TagEntry) : State :=
  let s := s.setGraph q.job ((s.graph q.job).consume c n)
  let e := { e with tag := q.nextTag, seq := q.seq }
  let s := s.setReq p r { q with nextTag := (q.nextTag + 1) % 8, seq := q.seq + 1, tags := q.tags ++ [e] }
  if e.bad.isSome then s else s.walkTag p r q.job e

/-- MEMPORT_READ (R41, R42): a header that is no WRITE takes a tag alone. -/
def execMemportRead (port req : Nat) (s : State) : Res :=
  match s.taker port req with
  | none => disabled "MEMPORT_READ"
  | some (q, g, c) =>
    match (g.chan c).buf with
    | [] => disabled "MEMPORT_READ"
    | t :: _ =>
      if t.null || hdrOp t = 1 || !q.tagFree then disabled "MEMPORT_READ"
      else .next (s.takeReq port req q c 1 { tag := 0, seq := 0, write := false, noOp := decide (2 ≤ hdrOp t), bad := hdrStatus t,
                                             addr := hdrAddr t, cls := hdrClass t, data := t })

/-- MEMPORT_WRITE (R41, R42, R45): a WRITE header with its data token, or alone at the end of its channel. One that carries dross and
stands alone is DROSS by R42 and BADOP by R45: the reply says DROSS. DESIGN CHOICE, notes/assumptions/68.md -/
def execMemportWrite (port req : Nat) (s : State) : Res :=
  match s.taker port req with
  | none => disabled "MEMPORT_WRITE"
  | some (q, g, c) =>
    let x := g.chan c
    match x.buf with
    | [] => disabled "MEMPORT_WRITE"
    | t :: rest =>
      if t.null || hdrOp t ≠ 1 || !q.tagFree then disabled "MEMPORT_WRITE"
      else
        let e : TagEntry := { tag := 0, seq := 0, write := true, bad := hdrStatus t, addr := hdrAddr t, cls := hdrClass t,
                              mask := BitVec.ofNat 64 (dwf t.data 2 63 0) }
        match rest with
        | d :: _ =>
          let e := { e with data := d, bad := if d.null then e.bad.or (some 4) else e.bad }
          .next (s.takeReq port req q c 2 e)
        | [] =>
          if x.ended then .next (s.takeReq port req q c 1 { e with bad := e.bad.or (some 4) })
          else disabled "MEMPORT_WRITE"

/-- MEMPORT_NULL (R41). -/
def execMemportNull (port req : Nat) (s : State) : Res :=
  match s.taker port req with
  | none => disabled "MEMPORT_NULL"
  | some (q, g, c) =>
    match (g.chan c).buf with
    | [] => disabled "MEMPORT_NULL"
    | t :: _ => if t.null then .next (s.setGraph q.job (g.consume c 1)) else disabled "MEMPORT_NULL"

/-! Performance (R46 to R50). -/

/-- The notice that a request to a failed expander makes (R52). -/
def State.expNotice (s : State) (job : Nat) (t : TagEntry) (st : Nat) : State :=
  match st, t.tgt with
  | 5, some (.loc pa) => s.jobNotice job { code := 58, tval := BitVec.ofNat 64 pa, wr := t.write, pasid := s.pasidOf job }
  | _, _ => s

/-- The reply of a request whose granules have all been performed (R42, R49, R50). -/
def TagEntry.result (t : TagEntry) : Nat × Token :=
  if t.write then
    let st := if t.met then 1 else 0
    (st, statusReply st)
  else
    let bs := (List.range 8).flatMap (fun g => Tab.get [] t.part g)
    (if anyDross bs then 1 else 0, tokenRead bs)

/-- Logs a completion and places its reply in the reply buffer (R44, R48). -/
def State.complete (s : State) (p r tag : Nat) (x : Nat × Token) : State :=
  (s.setPort p ((s.port p).log r tag x.1)).modTag p r tag (fun y => { y with reply := some x.2 })

/-- Performs a request of a graph that is gone (R55): it walks first, and performs nothing once its page has a ticket (R243). -/
def State.performOrphan (s : State) (p i : Nat) : Res :=
  match (s.port p).orphans[i]? with
  | none => disabled "MEMPORT_PERFORM"
  | some o =>
    let left := fun s : State => s.setPort p { s.port p with orphans := (s.port p).orphans.eraseIdx i }
    let perform := fun (s : State) (e : TagEntry) => (left s).performDead p o.req o.job e
    let who : Waiter := .req p (64 + 64 * o.job + o.req) o.e.tag
    if ((s.port p).orphans.take i).any (fun x => x.job = o.job && x.req = o.req && x.e.holds o.e) then disabled "MEMPORT_PERFORM"
    else if o.e.bad.isSome || o.e.tgt.isSome then .next (perform s o.e)
    else match s.translate (s.pasidOf o.job) o.e.addr o.e.write who with
      | (.ok pa, s) => .next (perform s { o.e with tgt := some (s.portTarget pa) })
      | (.deny, s) => .next (perform s { o.e with bad := some 2 })
      | (.wait, s') => orWait "MEMPORT_PERFORM" s s'
      | (.fault code, s) =>
        match s.joinTicket o.job (s.pasidOf o.job) o.e.addr code o.e.write who with
        | some (_, s) => .next (left s)
        | none => disabled "MEMPORT_PERFORM"

/-- MEMPORT_PERFORM (R46, R42, R209): the granules of a block that `x` names are performed in this turn, each by itself; once all are, the
request completes in a turn of its own, since writes that become visible in order may complete in another (R46). A request that waits
at its node without a ticket walks again first. From 64 on `req` numbers the requests of graphs that are gone (R55). -/
def execMemportPerform (port req : Nat) (x : TagPart) (s : State) : Res :=
  let tag := x.tag
  if s.portStopped port then disabled "MEMPORT_PERFORM" else
  if 64 ≤ req then s.performOrphan port (req - 64) else
  match Tab.find (s.port port).reqs req with
  | none => disabled "MEMPORT_PERFORM"
  | some q =>
    match q.tags.find? (fun t => t.tag = tag && t.reply.isNone) with
    | none => disabled "MEMPORT_PERFORM"
    | some t =>
      if t.ticket.isSome then disabled "MEMPORT_PERFORM"
      else if t.bad.isNone && t.tgt.isNone then orWait "MEMPORT_PERFORM" s (s.walkTag port req q.job t)
      else if q.tags.any (fun x => x.holds t) then disabled "MEMPORT_PERFORM"
      else match s.breaksWorld port q.job t with
        | some pa =>
          let c : Cause := { code := if t.write then 338 else 337, wr := t.write, tval := BitVec.ofNat 64 pa }
          .next ((s.modTag port req tag (fun x => { x with reply := some {} })).abortGraph q.job stWorld c)
        | none => match s.settled port t with
          | some x => .next ((s.expNotice q.job t x.1).complete port req tag x)
          | none =>
            if t.part.length = 8 then .next (s.complete port req tag t.result) else
            let new := (x.gs.filter (fun g => decide (g < 8) && (Tab.find t.part g).isNone)).dedup
            if new = [] then disabled "MEMPORT_PERFORM"
            else
              let (t, s) := new.foldl (fun x g => x.2.performGranule x.1 g) (t, s)
              .next (s.modTag port req tag (fun _ => t))

/-! Replies (R44, R45). -/

/-- The oldest request of a requester. -/
def Requester.oldest (q : Requester) : Option TagEntry :=
  q.tags.find? (fun t => q.tags.all (fun x => decide (t.seq ≤ x.seq)))

/-- REPLY_RELEASE (R44, R45, R54): the oldest reply enters the reply channel and frees its tag; with its consumer ended it is
discarded. -/
def execReplyRelease (port req : Nat) (s : State) : Res :=
  match Tab.find (s.port port).reqs req with
  | none => disabled "REPLY_RELEASE"
  | some q =>
    let g := s.graph q.job
    match q.oldest with
    | none => disabled "REPLY_RELEASE"
    | some t =>
      match t.reply with
      | none => disabled "REPLY_RELEASE"
      | some tok =>
        let dead := (g.outsOf q.stream).all (fun c => (g.chan c).dst.aid?.any (fun a => (g.actor a).ended))
        if !s.hasGraph q.job || g.phase ≠ .resident || g.quench.isSome || s.portStopped port || !(dead || g.roomFor q.stream) then
          disabled "REPLY_RELEASE"
        else
          let s := s.setReq port req { q with tags := q.tags.filter (fun x => x.tag ≠ t.tag) }
          let s := if dead then s else s.setGraph q.job (g.emitToken q.stream tok)
          .next (s.clearReloc port)

/-- REQUESTER_END (R45). -/
def execRequesterEnd (port req : Nat) (s : State) : Res :=
  match s.taker port req with
  | none => disabled "REQUESTER_END"
  | some (q, g, c) =>
    let x := g.chan c
    if !x.ended || x.buf ≠ [] || q.tags ≠ [] then disabled "REQUESTER_END"
    else
      let g := g.setStream q.stream { g.stream q.stream with ended := true }
      let g := (g.outsOf q.stream).foldl (fun g c => g.setChan c { g.chan c with ending := true }) g
      .next ((s.setReq port req { q with ended := true }).setGraph q.job g)

/-! The trace, scrubbing and expanders. -/

/-- BASE_DIE_SCRUB (R50, R51): one granule of a stack or of LPDDR, with no error, a correctable one (1) or an uncorrectable
one (2). The spec names no cause for the record, which carries 0. DESIGN CHOICE, notes/assumptions/69.md. An expander scrubs its own
granules: what it cannot correct it reports as poison, and the part makes no record (R52). DEDUCED, notes/assumptions/69.md -/
def execBaseDieScrub (granule found : Nat) (s : State) : Res :=
  let pa := 8 * granule
  let ours := decide (pa < 0x18000000000) || (s.inLpddr pa).isSome
  if !(ours || (s.inExpander pa).isSome) || 2 < found then disabled "BASE_DIE_SCRUB"
  else if found = 0 then .next s
  else if !ours then .next (if found = 2 then { s with mem := s.mem.setBad granule true } else s)
  else
    let x := Config.syndrome s.fresh
    let s := { s with fresh := s.fresh + 1, mem := if found = 2 then s.mem.setBad granule true else s.mem }
    .next (s.addRecord (portBlock (s.ownerTile pa)) (if found = 2 then 3 else 1) 6 0 0 (BitVec.ofNat 64 pa) x)

/-- EXPANDER_FAIL (R52): every later request to the expander completes with EXPFAIL, and its memory cause goes to the host
fault queue. -/
def execExpanderFail (link expander : Nat) (s : State) : Res :=
  if s.board.expanders.any (fun e => e.2.2.1 = link && e.2.2.2.1 = expander && !e.2.2.2.2) then
    .next { s with board := { s.board with expanders := s.board.expanders.map (fun (e : Nat × Nat × Nat × Nat × Bool) =>
      if e.2.2.1 = link && e.2.2.2.1 = expander then (e.1, e.2.1, e.2.2.1, e.2.2.2.1, true) else e) } }
  else disabled "EXPANDER_FAIL"

end Sys2Proof.Machine
end

