-- ==== Sys2Proof/Machine/Crypto.lean ====
section
/-! DEFINITION. The functions of other standards that R82 names: SHA3-256 (FIPS 202), and ML-DSA.Verify with the parameters of ML-DSA-44
(FIPS 204). PRESUMED, notes/assumptions/90.md -/

namespace Sys2Proof.Machine

/-! Keccak (FIPS 202): a state is 25 lanes, lane x + 5 · y. -/

/-- Lane (x, y), coordinates modulo 5. -/
def lane25 (a : List W64) (x y : Nat) : W64 := a.getD (x % 5 + 5 * (y % 5)) 0

/-- The rotations of ρ. -/
def rhoOffsets : List Nat :=
  [0, 1, 62, 28, 27, 36, 44, 6, 55, 20, 3, 10, 43, 25, 39, 41, 45, 15, 21, 8, 18, 2, 61, 56, 14]

/-- The round constants of ι. -/
def iotaWords : List W64 :=
  [0x0000000000000001, 0x0000000000008082, 0x800000000000808A, 0x8000000080008000, 0x000000000000808B, 0x0000000080000001,
   0x8000000080008081, 0x8000000000008009, 0x000000000000008A, 0x0000000000000088, 0x0000000080008009, 0x000000008000000A,
   0x000000008000808B, 0x800000000000008B, 0x8000000000008089, 0x8000000000008003, 0x8000000000008002, 0x8000000000000080,
   0x000000000000800A, 0x800000008000000A, 0x8000000080008081, 0x8000000000008080, 0x0000000080000001, 0x8000000080008008]

/-- One round: θ, ρ with π, χ and ι. -/
def keccakRound (a : List W64) (rc : W64) : List W64 :=
  let c := (List.range 5).map (fun x => (List.range 5).foldl (fun (v : W64) y => v ^^^ lane25 a x y) 0)
  let at' := fun i => c.getD (i % 5) 0
  let b := (List.range 25).map (fun i => a.getD i 0 ^^^ (at' (i % 5 + 4) ^^^ (at' (i % 5 + 1)).rotateLeft 1))
  let p := (List.range 25).map (fun i =>
    let x := (i % 5 + 3 * (i / 5)) % 5
    let y := i % 5
    (lane25 b x y).rotateLeft (rhoOffsets.getD (x + 5 * y) 0))
  let q := (List.range 25).map (fun i =>
    lane25 p (i % 5) (i / 5) ^^^ (~~~(lane25 p (i % 5 + 1) (i / 5)) &&& lane25 p (i % 5 + 2) (i / 5)))
  (q.headD 0 ^^^ rc) :: q.drop 1

/-- The permutation of 24 rounds. -/
def keccak (a : List W64) : List W64 := iotaWords.foldl keccakRound a

/-- Absorbs one block. -/
def absorb (a : List W64) (blk : List Byte) : List W64 :=
  keccak ((List.range 25).map (fun i => a.getD i 0 ^^^ BitVec.ofNat 64 (leNat ((blk.drop (8 * i)).take 8))))

/-- Absorbs some blocks of `r` bytes. -/
def absorbs (r : Nat) : Nat → List W64 → List Byte → List W64
  | 0, a, _ => a
  | n + 1, a, bs => absorbs r n (absorb a (bs.take r)) (bs.drop r)

/-- Gives some blocks of `r` bytes. -/
def squeeze (r : Nat) : Nat → List W64 → List Byte
  | 0, _ => []
  | n + 1, a => (a.flatMap (fun w => leBytes 8 w.toNat)).take r ++ squeeze r n (keccak a)

/-- The sponge of rate `r` bytes with a domain suffix: `n` blocks for a message. -/
def sponge (r : Nat) (suffix : Byte) (n : Nat) (m : List Byte) : List Byte :=
  let k := r - m.length % r
  let pad := if k = 1 then [suffix ||| 0x80] else suffix :: List.replicate (k - 2) 0 ++ [0x80]
  squeeze r n (absorbs r (m.length / r + 1) (List.replicate 25 0) (m ++ pad))

/-- SHA3-256: the digest as a number, its first byte least significant. -/
@[irreducible] def sha3 (m : List Byte) : BitVec 256 := BitVec.ofNat 256 (leNat ((sponge 136 0x06 1 m).take 32))

/-- SHAKE256: the first `n` bytes. -/
def shake256 (n : Nat) (m : List Byte) : List Byte := (sponge 136 0x1F (n / 136 + 1) m).take n

/-! Polynomials modulo q (FIPS 204): lists of 256 coefficients. -/

/-- q. -/
def dsaQ : Nat := 8380417

/-- The eight bits of a number in the other order. -/
def rev8 (n : Nat) : Nat := (List.range 8).foldl (fun v i => 2 * v + n / 2 ^ i % 2) 0

/-- ζ to the power that belongs to a butterfly. -/
def zeta (m : Nat) : Nat := 1753 ^ rev8 m % dsaQ

/-- The inverse of that power; the order of ζ is 512. -/
def zetaInv (m : Nat) : Nat := 1753 ^ (512 - rev8 m) % dsaQ

/-- Coefficients one by one. -/
def polyMap (k : Nat → Nat → Nat) (a b : List Nat) : List Nat := (a.zip b).map (fun e => k e.1 e.2 % dsaQ)

/-- NTT, from butterfly `m` down `n` layers. -/
def ntt : Nat → Nat → List Nat → List Nat
  | 0, _, w => w
  | n + 1, m, w =>
    let lo := w.take (2 ^ n)
    let t := (w.drop (2 ^ n)).map (fun x => zeta m * x % dsaQ)
    ntt n (2 * m) (polyMap (· + ·) lo t) ++ ntt n (2 * m + 1) (polyMap (fun x y => x + (dsaQ - y)) lo t)

/-- The inverse of NTT but for the factor of its length. -/
def nttBack : Nat → Nat → List Nat → List Nat
  | 0, _, w => w
  | n + 1, m, w =>
    let lo := nttBack n (2 * m) (w.take (2 ^ n))
    let hi := nttBack n (2 * m + 1) (w.drop (2 ^ n))
    polyMap (· + ·) lo hi ++ (polyMap (fun x y => x + (dsaQ - y)) lo hi).map (fun x => zetaInv m * x % dsaQ)

/-- The inverse of NTT. -/
def nttInv (w : List Nat) : List Nat := (nttBack 8 1 w).map (fun x => 8347681 * x % dsaQ)

/-- Numbers of `b` bits from bytes. -/
def bitUnpack (b n : Nat) (bs : List Byte) : List Nat :=
  let x := leNat bs
  (List.range n).map (fun i => x / 2 ^ (b * i) % 2 ^ b)

/-- Three bytes each as a coefficient, those that are not below q left out. -/
def rejected : List Byte → List Nat
  | a :: b :: c :: t =>
    let z := a.toNat + 256 * b.toNat + 65536 * (c.toNat % 128)
    if z < dsaQ then z :: rejected t else rejected t
  | _ => []

/-- One polynomial of the matrix A, in the NTT domain: eight blocks of SHAKE128 give 448 candidates. -/
def expandPoly (rho : List Byte) (r s : Nat) : List Nat :=
  (rejected (sponge 168 0x1F 8 (rho ++ [BitVec.ofNat 8 s, BitVec.ofNat 8 r]))).take 256

/-- The steps of SampleInBall over the bytes that it takes: `i` counts the coefficients that are left, from 39. -/
def ballSteps (signs : Nat) : List Byte → Nat → List Nat → List Nat
  | [], _, c => c
  | j :: t, left, c =>
    if left = 0 then c else
    let i := 256 - left
    if i < j.toNat then ballSteps signs t left c
    else
      let c := c.set i (c.getD j.toNat 0)
      ballSteps signs t (left - 1) (c.set j.toNat (if signs.testBit (39 - left) then dsaQ - 1 else 1))

/-- SampleInBall: 39 coefficients of 1 or −1. -/
def sampleInBall (seed : List Byte) : List Nat :=
  let bs := shake256 272 seed
  ballSteps (leNat (bs.take 8)) (bs.drop 8) 39 (List.replicate 256 0)

/-- The hint of a signature: for each of four polynomials the coefficients that it names; none where its coding is not the one form. -/
def hintUnpack (y : List Byte) : Option (List (List Nat)) :=
  let ends := (y.drop 80).map (·.toNat)
  let ix := (y.take 80).map (·.toNat)
  let cut := fun k => (ix.take (ends.getD k 0)).drop (if k = 0 then 0 else ends.getD (k - 1) 0)
  let rising := fun (l : List Nat) => (l.zip (l.drop 1)).all (fun e => decide (e.1 < e.2))
  if ((0 :: ends).zip ends).all (fun e => decide (e.1 ≤ e.2) && decide (e.2 ≤ 80)) && (List.range 4).all (fun k => rising (cut k)) &&
      (ix.drop (ends.getD 3 0)).all (· = 0) then some ((List.range 4).map cut)
  else none

/-- UseHint: the high part of a coefficient modulo 2 · 95232, moved where its hint is set. -/
def useHint (h : Bool) (r : Nat) : Nat :=
  let m := r % 190464
  let (r1, pos) := if m ≤ 95232 then (r / 190464, decide (0 < m)) else
    if r / 190464 = 43 then (0, false) else (r / 190464 + 1, false)
  let (r1, pos) := if r = dsaQ - 1 then (0, false) else (r1, pos)
  if !h then r1 else if pos then (r1 + 1) % 44 else (r1 + 43) % 44

/-- ML-DSA.Verify with the parameters of ML-DSA-44, for a digest of 32 bytes as the message, under a context string. -/
@[irreducible] def mldsaVerify (pk : List Byte) (d : BitVec 256) (ctx sig : List Byte) : Bool :=
  if pk.length ≠ 1312 || sig.length ≠ 2420 then false else
  let rho := pk.take 32
  let t1 := (List.range 4).map (fun k => bitUnpack 10 256 ((pk.drop (32 + 320 * k)).take 320))
  let ct := sig.take 32
  let zRaw := (List.range 4).map (fun k => bitUnpack 18 256 ((sig.drop (32 + 576 * k)).take 576))
  match hintUnpack (sig.drop 2336) with
  | none => false
  | some h =>
    let short := zRaw.all (fun p => p.all (fun x => decide (131072 < x + (131072 - 78)) && decide (x < 131072 + (131072 - 78))))
    let z := zRaw.map (fun p => p.map (fun x => (131072 + dsaQ - x) % dsaQ))
    let msg := [0, BitVec.ofNat 8 ctx.length] ++ ctx ++ leBytes 32 d.toNat
    let mu := shake256 64 (shake256 64 pk ++ msg)
    let c := ntt 8 1 (sampleInBall ct)
    let zn := z.map (ntt 8 1)
    let w1 := (List.range 4).map (fun r =>
      let az := (zn.zipIdx).foldl (fun acc e => polyMap (· + ·) acc (polyMap (· * ·) (expandPoly rho r e.2) e.1)) (List.replicate 256 0)
      let ct1 := polyMap (· * ·) c (ntt 8 1 ((t1.getD r []).map (fun x => x * 8192)))
      let w := nttInv (polyMap (fun x y => x + (dsaQ - y)) az ct1)
      w.zipIdx.map (fun e => useHint ((h.getD r []).contains e.2) e.1))
    let packed := w1.flatMap (fun p => leBytes 192 (p.zipIdx.foldl (fun v e => v + e.1 * 2 ^ (6 * e.2)) 0))
    short && decide (ct = shake256 32 (mu ++ packed))

end Sys2Proof.Machine
end

