-- ==== Sys2Proof/Machine/Image.lean ====
section
/-! DEFINITION. Graph images: the header and its checks (R81, R90), and the sections of a variant with the checks of a
configuration load (R36, R40, R147, R161, R168, R174 to R181, R187, R192, R197, R203, R238, R285, R317 to R319, R328, R404,
R432, R438). -/

namespace Sys2Proof.Machine

/-! The header (R81). -/

/-- A field of `n` bytes at an offset (R4). -/
def field (b : List Byte) (off n : Nat) : Nat := leNat ((b.drop off).take n)

/-- One entry of the SECT table: TYPE, VAR, reserved, OFFSET, LENGTH, reserved. -/
def sect (b : List Byte) (k : Nat) : Nat × Nat × Nat × Nat × Nat × Nat :=
  let o := 0x20 + 16 * k
  (field b o 1, field b (o + 1) 1, field b (o + 2) 2, field b (o + 4) 4, field b (o + 8) 4, field b (o + 12) 4)

/-- The fields of the header that R81 checks, sections apart. -/
def headerOk (b : List Byte) : Bool :=
  let len := field b 8 4
  let flags := field b 0xF 1
  field b 0 4 = 0x4E4D4749 && field b 4 2 = 1 && field b 6 2 = 1 && len % 64 = 0 && decide (2752 ≤ len) &&
    decide (field b 0xC 1 ≤ 15) && decide (1 ≤ field b 0xD 1) && decide (field b 0xD 1 ≤ 4) && decide (1 ≤ field b 0xE 1) &&
    decide (field b 0xE 1 ≤ 16) && bitsOf flags 3 2 ≠ 3 && bitsOf flags 7 4 = 0 && field b 0x18 8 = 0 &&
    field b (len - 12) 12 = 0

/-- Whether two spans of bytes overlap. -/
def overlaps (a n b m : Nat) : Bool := decide (0 < n) && decide (0 < m) && decide (a < b + m) && decide (b < a + n)

/-- The sections that R81 checks: inside the body, of known types, without overlap, with the unused entries zero. -/
def sectsOk (b : List Byte) : Bool :=
  let len := field b 8 4
  let n := field b 0xE 1
  let es := (List.range n).map (sect b)
  es.all (fun e => decide (1 ≤ e.1) && decide (e.1 ≤ 9) && (decide (e.2.1 < 4) || e.2.1 = 255) && e.2.2.1 = 0 &&
      e.2.2.2.2.2 = 0 && decide (0x120 ≤ e.2.2.2.1) && decide (e.2.2.2.1 + e.2.2.2.2.1 ≤ len - 2432)) &&
    es.zipIdx.all (fun x => es.zipIdx.all (fun y =>
      x.2 = y.2 || !overlaps x.1.2.2.2.1 x.1.2.2.2.2.1 y.1.2.2.2.1 y.1.2.2.2.2.1)) &&
    ((b.drop (0x20 + 16 * n)).take (16 * (16 - n))).all (· = 0)

/-- The sections of an image. -/
def sectsOf (b : List Byte) : List Section :=
  (List.range (field b 0xE 1)).map (fun k =>
    let e := sect b k
    { ty := e.1, var := e.2.1, body := (b.drop e.2.2.2.1).take e.2.2.2.2.1 })

/-- The sections of a type that a variant has, its own and the common ones. -/
def ofVar (ss : List Section) (v ty : Nat) : List Section := ss.filter (fun x => x.ty = ty && (x.var = v || x.var = 255))

/-- The plot shape of a variant (R90, R328); none where it has not one shape record, or that breaks R90. The record's LEN and its padding
are checked at the load (R328). DEDUCED, notes/assumptions/18.md -/
def shapeOf (ss : List Section) (v : Nat) : Option Shape :=
  match ofVar ss v 1 with
  | [x] =>
    let r := x.body
    let wp := field r 4 1
    let hp := field r 5 1
    let ns := ((r.drop 16).take (wp * hp)).map (·.toNat)
    if 1 ≤ wp ∧ wp ≤ 16 ∧ 1 ≤ hp ∧ hp ≤ 16 ∧ ns.all (· ≤ 15) then
      some { wp := wp, hp := hp, n := ns }
    else none
  | _ => none

/-- The image of bytes that R81 and R90 accept, without its signature. -/
def imageOf (b : List Byte) : Option Image :=
  if b.length < 2752 || b.length ≠ field b 8 4 || !headerOk b || !sectsOk b then none else
  let nvar := field b 0xD 1
  let ss := sectsOf b
  let vars := List.range nvar
  let shapes := vars.filterMap (shapeOf ss)
  if vars.all (fun v => [1, 3, 4].all (fun t => ofVar ss v t ≠ [])) && shapes.length = nvar then
    let flags := field b 0xF 1
    some { nvar := nvar, secure := flags.testBit 0, weldable := flags.testBit 1, recheck := bitsOf flags 3 2,
           rotn := field b 0x10 4, argArea := field b 0x14 4, sects := ss, shapes := shapes, bytes := b.length }
  else none

/-- Whether the signature of an image holds under the key of its slot (R82, R83). -/
def State.signedImage (s : State) (b : List Byte) : Bool :=
  let body := b.take (b.length - 2432)
  let sig := (b.drop (b.length - 2432)).take 2420
  match Tab.find s.board.keys (field b 0xC 1) with
  | some key => mldsaVerify key (sha3 body) ("ALROS-GI".toList.map (fun c => BitVec.ofNat 8 c.toNat)) sig
  | none => false

/-! Records (R328). -/

/-- What the reading of sections gives: a value, or the aid that CONFIG names. -/
abbrev Load := Except Nat

/-- A condition of a load. -/
def must (c : Bool) (aid : Nat) : Load Unit := if c then .ok () else .error aid

/-- The records of a section. -/
def recordsOf : Nat → List Byte → Load (List (List Byte))
  | 0, b => if b = [] then .ok [] else .error 0
  | k + 1, b =>
    if b = [] then .ok [] else
    let n := field b 0 4
    if b.length < 4 ∨ n < 8 ∨ n % 8 ≠ 0 ∨ b.length < n then .error 0
    else (recordsOf k (b.drop n)).map (fun t => b.take n :: t)

/-- The records of a type that a variant has. -/
def Image.recs (m : Image) (v ty : Nat) : Load (List (List Byte)) :=
  (ofVar m.sects v ty).foldlM (fun acc x => (recordsOf (x.body.length / 8 + 1) x.body).map (fun t => acc ++ t)) []

/-- Whether a record holds `n` bytes of fields and zeros after them. -/
def padOk (r : List Byte) (n : Nat) : Bool := decide (n ≤ r.length) && (r.drop n).all (· = 0)

/-- A word of a record. -/
def word32 (r : List Byte) (off : Nat) : W32 := BitVec.ofNat 32 (field r off 4)

/-- One actor record of section 0x02, with the number of its slot handles. -/
def actorRec (r : List Byte) : Load (Actor × Nat) := do
  let aid := field r 4 2
  let n := field r 6 1
  let code := field r 8 4
  let eps := (List.range n).map (fun k => (field r (20 + 2 * k) 1, field r (21 + 2 * k) 1))
  must (padOk r (20 + 2 * n + code)) aid
  must (aid ≠ 0xFFFF && field r 7 1 = 0 && field r 19 1 = 0 && code % 4 = 0 && decide (field r 18 1 ≤ 24)) aid
  must (eps.all (fun e => !e.1.testBit 6 && e.2 ≠ 0) && decide ((eps.map (·.1)).Nodup)) aid
  let ins := (eps.filter (fun e => e.1 < 64)).foldl (fun t e => Tab.set t e.1 e.2) ([] : Tab Nat)
  let outs := (eps.filter (fun e => 64 ≤ e.1)).foldl (fun t e => Tab.set t (e.1 % 64) e.2) ([] : Tab Nat)
  .ok ({ aid := aid, code := Memory.setBytes {} 0 ((r.drop (20 + 2 * n)).take code), codeLen := code,
         ramLen := field r 12 4, rows := field r 16 2, ins := ins, outs := outs }, field r 18 1)

/-- The actors of a variant, with the numbers of their slot handles (R147, R328). -/
def actorRecs (rs : List (List Byte)) : Load (Tab Actor × Tab Nat) :=
  rs.foldlM (fun acc r => do
    let (a, n) ← actorRec r
    must (Tab.find acc.1 a.aid).isNone a.aid
    .ok (Tab.set acc.1 a.aid a, Tab.set acc.2 a.aid n)) ([], [])

/-- One alloy record with its members (R168, R328). -/
def alloyRec (sh : Shape) (as : Tab Actor) (r : List Byte) : Load (Nat × Alloy × Tab Actor) := do
  let k := field r 4 2
  let n := field r 8 2
  must (padOk r (12 + 8 * n) && decide (field r 6 1 ≤ 4) && field r 7 1 = 0 && field r 10 2 = 0 && decide (1 ≤ n) &&
    decide (n ≤ 4096)) 0
  let as ← (List.range n).foldlM (fun as i => do
    let o := 12 + 8 * i
    let aid := field r o 2
    let x := field r (o + 2) 1 % 16
    let y := field r (o + 2) 1 / 16
    let ctx := field r (o + 5) 1
    match Tab.find as aid with
    | none => .error aid
    | some a =>
      must (!a.loaded && decide (x < sh.wp) && decide (y < sh.hp) && decide (field r (o + 3) 1 < sh.n.getD (y * sh.wp + x) 0) &&
        decide (field r (o + 4) 1 < 16) && decide (ctx < 16) && field r (o + 6) 2 = 0) aid
      .ok (Tab.set as aid { a with
        loaded := true, alloy := k, pos := (x, y), ltile := field r (o + 3) 1, slot := field r (o + 4) 1,
        ctxs := ((List.range 4).filter (fun c => ctx.testBit c)).map (fun c => (c, ({} : Mctx))) })) as
  .ok (k, { members := (List.range n).map (fun i => field r (12 + 8 * i) 2), barriers := field r 6 1 }, as)

/-- The alloys of a variant (R328). The actors come with `loaded` clear until an alloy has named them. -/
def alloyRecs (sh : Shape) (as : Tab Actor) (rs : List (List Byte)) : Load (Tab Alloy × Tab Actor) :=
  rs.foldlM (fun acc r => do
    let (k, al, as) ← alloyRec sh acc.2 r
    must (Tab.find acc.1 k).isNone 0
    .ok (Tab.set acc.1 k al, as)) ([], as.map (fun (e : Nat × Actor) => (e.1, { e.2 with loaded := false })))

/-- The fault actor of the shape record (R285, R328). -/
def faultRec (as : Tab Actor) (r : List Byte) : Load (Option FaultActor) := do
  must (decide (field r 6 1 ≤ 1) && field r 7 1 = 0 && field r 14 2 = 0) 0
  if field r 6 1 = 0 then .ok none else
  let aid := field r 8 2
  match Tab.find as aid with
  | none => .error aid
  | some a =>
    must (field r 10 2 % 4 = 0 && decide (field r 10 2 < a.codeLen) && decide (field r 12 2 + 32 ≤ a.ramLen)) aid
    .ok (some { aid := aid, handler := field r 10 2, area := field r 12 2 })

/-- One record of operation words (R180, R186, R317); `seen` lists what has been given. -/
def wordRec (acc : Tab Actor × List (Nat × Nat × Nat)) (r : List Byte) : Load (Tab Actor × List (Nat × Nat × Nat)) := do
  let aid := field r 4 2
  let kind := field r 6 1
  let ix := field r 7 1
  match Tab.find acc.1 aid with
  | none => .error aid
  | some a =>
    must (!acc.2.contains (aid, kind, ix)) aid
    let seen := acc.2 ++ [(aid, kind, ix)]
    match kind with
    | 0 =>
      must (padOk r 72 && ix = 0) aid
      .ok (Tab.set acc.1 aid { a with lane := a.lane.load 0 (r.drop 8) }, seen)
    | 1 =>
      must (padOk r 72 && ix = 0) aid
      .ok (Tab.set acc.1 aid { a with lane := a.lane.load 1 (r.drop 8) }, seen)
    | 2 =>
      must (padOk r 12 && (Tab.find a.ctxs ix).isSome && ctxWordOk (word32 r 8)) aid
      .ok (Tab.set acc.1 aid { a with ctxs := Tab.modify a.ctxs ix (fun m => { m with word := word32 r 8 }) }, seen)
    | _ => .error aid

/-- A node that the layout of a fabric entry gives: a port tile, or POS and a logical tile (R328). -/
def nodeOk (n : Nat) : Bool := if n.testBit 15 then bitsOf n 14 8 = 0 else bitsOf n 14 12 = 0

/-- One entry of a fabric record: node, channel and word (R319). -/
def fabricEntry (r : List Byte) (k : Nat) : Nat × Nat × BitVec 16 :=
  (field r (6 + 6 * k) 2, field r (8 + 6 * k) 2, BitVec.ofNat 16 (field r (10 + 6 * k) 2))

/-- A fabric switch word that a load accepts (R319). DEDUCED, notes/assumptions/52.md -/
def fabricOk (w : BitVec 16) : Bool :=
  let out := bitsOf w.toNat 15 11
  out ≠ 0 && out ≠ 31 && bitsOf w.toNat 9 6 = 0 && (out.testBit 0 || bitsOf w.toNat 5 0 = 0)

/-- One record of switch words (R318, R319, R327): lane switch words go to their actor. -/
def switchRec (acc : Tab Actor × List (Nat × Nat × BitVec 16) × List Nat) (r : List Byte) :
    Load (Tab Actor × List (Nat × Nat × BitVec 16) × List Nat) := do
  must (field r 5 1 = 0) 0
  match field r 4 1 with
  | 0 =>
    let all := (List.range ((r.length - 6) / 6)).map (fabricEntry r)
    let es := all.takeWhile (fun e => e ≠ (0, 0, 0))
    must (padOk r (6 + 6 * es.length) && es.all (fun e => nodeOk e.1 && fabricOk e.2.2)) 0
    .ok (acc.1, acc.2.1 ++ es, acc.2.2)
  | 1 =>
    let aid := field r 6 2
    match Tab.find acc.1 aid with
    | none => .error aid
    | some a =>
      must (padOk r 72 && !acc.2.2.contains aid) aid
      .ok (Tab.set acc.1 aid { a with lane := a.lane.load 2 (r.drop 8) }, acc.2.1, acc.2.2 ++ [aid])
  | _ => .error 0

/-- The bytes of a width code. -/
def widthOf (c : Nat) : Nat := 4 * 2 ^ c

/-- The end of a channel that an aid and an endpoint name (R328, R438). -/
def endPoint (aid ep : Nat) (consumer : Bool) : EndPt :=
  if aid = 0xFFFF then .stream ep
  else if consumer && 0x40 ≤ ep then .node aid (ep % 2) (decide (0x42 ≤ ep)) else .actor aid ep

/-- One channel record (R161, R328, R438): its number, the channel and the rows per group of a row input. -/
def chanRec (as : Tab Actor) (r : List Byte) : Load (Nat × Chan × Nat) := do
  let pa := field r 6 2
  let pe := field r 8 1
  let ca := field r 9 2
  let ce := field r 11 1
  let fl := field r 13 1
  let cap := field r 14 2
  let w := widthOf (field r 12 1)
  let row := ca ≠ 0xFFFF && (ce = 0x40 || ce = 0x41)
  let aid := if pa = 0xFFFF then (if ca = 0xFFFF then 0 else ca) else pa
  must (padOk r 16 && decide (field r 12 1 ≤ 4) && decide (1 ≤ cap) && decide (cap ≤ 16384) && decide (cap * w ≤ 65536)) aid
  must (row || decide (fl < 4)) aid
  match (if pa = 0xFFFF then some 1 else (Tab.find as pa).bind (fun a => Tab.find a.outs pe)),
        (if ca = 0xFFFF then some 1 else (Tab.find as ca).bind (fun a =>
          if ce < 64 then Tab.find a.ins ce else if ce ≤ 0x43 then some 1 else none)) with
  | some p, some c =>
    must (decide (p ≤ cap) && decide (c ≤ cap) && decide (pe < 64 ∨ pa = 0xFFFF)) aid
    must (ca = 0xFFFF || ce < 0x40 || w = (if row then 64 else 4)) ca
    .ok (field r 4 2, { src := endPoint pa pe false, dst := endPoint ca ce true, width := w, cap := cap, back := fl.testBit 0,
                        comm := fl.testBit 1 }, if row then fl / 4 + 1 else 0)
  | none, _ => .error pa
  | _, none => .error ca

/-- Binds a channel to its actors' endpoints or to a repeat node (R161, R328, R438). -/
def bindChan (as : Tab Actor) (k : Nat) (c : Chan) (group : Nat) : Load (Tab Actor) := do
  let as := match c.src with
    | .actor aid ep => Tab.modify as aid (fun a => { a with outCh := Tab.set a.outCh ep (Tab.get [] a.outCh ep ++ [k]) })
    | _ => as
  match c.dst with
  | .actor aid ep =>
    must ((Tab.find (Tab.get ({} : Actor) as aid).inCh ep).isNone) aid
    .ok (Tab.modify as aid (fun a => { a with inCh := Tab.set a.inCh ep k }))
  | .node aid n count =>
    let old := Tab.get { rowCh := 65536, cntCh := 65536, group := 0, toks := 1 } (Tab.get ({} : Actor) as aid).nodes n
    must ((if count then old.cntCh else old.rowCh) = 65536) aid
    let new : RepNode := if count then { old with cntCh := k } else { old with rowCh := k, group := group }
    .ok (Tab.modify as aid (fun a => { a with nodes := Tab.set a.nodes n new }))
  | .stream _ => .ok as

/-- The channels of a variant (R161, R328). -/
def chanRecs (as : Tab Actor) (rs : List (List Byte)) : Load (Tab Chan × Tab Actor) :=
  rs.foldlM (fun acc r => do
    let (k, c, g) ← chanRec acc.2 r
    must (Tab.find acc.1 k).isNone 0
    must (match c.dst with
      | .stream n => acc.1.all (fun e => e.2.dst ≠ .stream n)
      | _ => true) 0
    let as ← bindChan acc.2 k c g
    .ok (Tab.set acc.1 k c, as)) ([], as)

/-- One record of initial contents (R178, R327, R328). -/
def dataRec (as : Tab Actor) (r : List Byte) : Load (Tab Actor) := do
  let aid := field r 4 2
  let h := field r 7 1
  let off := field r 8 4
  let n := field r 12 4
  let bs := clean ((r.drop 16).take n)
  match Tab.find as aid with
  | none => .error aid
  | some a =>
    must (padOk r (16 + n)) aid
    match field r 6 1 with
    | 0 =>
      must (h = 0 && decide (off + n ≤ a.ramLen)) aid
      .ok (Tab.set as aid { a with hram := a.hram.store off bs })
    | 1 =>
      must (h = 0 && decide (off + n ≤ 256 * a.rows)) aid
      .ok (Tab.set as aid { a with tstore := a.tstore.store off bs })
    | 2 =>
      must ((Tab.find a.slots h).isSome && decide (off + n ≤ 16384)) aid
      .ok (Tab.set as aid { a with slots := Tab.modify a.slots h (fun x => { x with claimed := true, mem := x.mem.store off bs }) })
    | _ => .error aid

/-- One slot declaration (R178, R328). -/
def slotRec (as : Tab Actor) (r : List Byte) : Load (Tab Actor) := do
  let aid := field r 4 2
  let h := field r 6 1
  match Tab.find as aid with
  | none => .error aid
  | some a =>
    must (padOk r 8 && decide (h < 24) && decide (field r 7 1 ≤ 0xD) && (Tab.find a.slots h).isNone) aid
    .ok (Tab.set as aid { a with slots := Tab.set a.slots h { fmt := field r 7 1 } })

/-- The kind of a stream record (R328). -/
def streamKind (n : Nat) : StreamKind :=
  match n with
  | 0 => .read
  | 1 => .write
  | 2 => .accum
  | 3 => .requester
  | _ => .reduce

/-- The element size of a reduction stream for its operation (R36). -/
def reduceSizeOk (op mode : Nat) : Bool :=
  if op ≤ 7 then mode = 1 || mode = 2 else if op ≤ 10 then mode = 1 else mode = 0

/-- Whether a stream's own parameters and channels keep the rules of its kind (R36, R40, R234, R428, R432). -/
def streamOk (chans : Tab Chan) (k : Nat) (st : Stream) : Bool :=
  let c := Tab.get {} chans st.chan
  let i := Tab.get {} chans st.ichan
  let onChan := (Tab.find chans st.chan).isSome
  let onIchan := (Tab.find chans st.ichan).isSome
  let both := onChan && onIchan && c.dst = .stream k && i.src = .stream k && c.width = 64 && i.width = 64
  let ends := (match c.src, i.dst with
    | .actor _ _, .actor _ _ => true
    | _, _ => false)
  match st.kind with
  | .read => onChan && c.src = .stream k && (st.mode = 0 || (onIchan && i.dst = .stream k && i.width = 8))
  | .requester => both && (match portKind st.port with
    | .link _ => false
    | _ => true) && ends
  | .reduce =>
    let n := st.count.headD 0
    both && ends && (match portKind st.port with
      | .link _ => true
      | _ => false) && reduceSizeOk st.op st.mode && st.base % 64 = 0 && decide (1 ≤ n) && decide (n ≤ 256) &&
      decide (n * 2 ^ (st.mode + 1) ≤ 512)
  | _ =>
    onChan && c.dst = .stream k &&
      (if st.mode = 1 then c.width = 16
       else st.base % min c.width 8 = 0 && st.stride.all (fun d => d % (min c.width 8 : Nat) = 0))

/-- One stream record (R328). -/
def streamRec (chans : Tab Chan) (acc : Tab Stream) (r : List Byte) : Load (Tab Stream) := do
  let k := field r 4 2
  let kind := field r 8 1
  let st : Stream := { port := field r 6 2, kind := streamKind kind, mode := field r 9 1, cls := field r 10 1, op := field r 11 1,
                       chan := field r 12 2, ichan := field r 14 2, base := field r 20 8,
                       count := (List.range 4).map (fun d => field r (28 + 4 * d) 4),
                       stride := (List.range 4).map (fun d => sgn 64 (field r (44 + 8 * d) 8)) }
  must (padOk r 76 && decide (kind ≤ 4) && decide (st.port < 256) && decide (st.cls < 16) && field r 16 4 = 0 &&
    decide (st.mode ≤ (if kind = 4 then 2 else 1)) && decide (st.op ≤ (if kind = 4 then 11 else 7)) &&
    (Tab.find acc k).isNone) 0
  must (streamOk chans k st) 0
  .ok (Tab.set acc k st)

/-- One template record (R197, R328, R404). DEDUCED, notes/assumptions/10.md -/
def templateRec (as : Tab Actor) (chans : Tab Chan) (acc : List Template) (r : List Byte) : Load (List Template) := do
  let fl := field r 9 1
  let b := field r 10 2
  let t : Template := { port := field r 6 2, num := field r 8 1, aid := field r 12 2,
                        params := (List.range 16).map (fun k => BitVec.ofNat 64 (field r (16 + 8 * k) 8)),
                        armed := fl.testBit 0, declCh := if fl.testBit 1 then some b else none,
                        declQ := if fl.testBit 2 then some b else none }
  must (padOk r 144 && decide (fl < 8) && bitsOf fl 2 1 ≠ 3 && (bitsOf fl 2 1 ≠ 0 || b = 0) && field r 14 2 = 0 &&
    decide (t.port < 256) && decide (t.num < 64) && (Tab.find as t.aid).isSome) t.aid
  must (t.skind ≠ 3 && fld (t.dw 0) 20 16 = 0) t.aid
  must (match t.declCh, t.declQ with
    | some c, _ => (Tab.get {} chans c).width = 64 && (Tab.find chans c).isSome
    | none, some q => decide (q < 4)
    | none, none => true) t.aid
  let rival := fun x : Template => (x.port = t.port && x.num = t.num) || (t.shares x && x.aid ≠ t.aid)
  must (!acc.any rival) t.aid
  let first := !acc.any t.shares
  .ok (acc ++ [{ t with bound := first && (t.declCh.isSome || t.declQ.isSome) }])

/-- Microcode of a graph: the engine, the offset and the bytes (R197, R328). -/
abbrev Micro := Nat × Nat × List Byte

/-- The records of section 0x06: templates and microcode. -/
def siltRecs (as : Tab Actor) (chans : Tab Chan) (rs : List (List Byte)) : Load (List Template × List Micro) :=
  rs.foldlM (fun acc r => do
    must (field r 5 1 = 0 && decide (field r 6 2 < 256)) 0
    match field r 4 1 with
    | 0 => (templateRec as chans acc.1 r).map (fun t => (t, acc.2))
    | 1 =>
      let all := r.drop 12
      let bs := if all.length % 8 = 4 ∧ (all.drop (all.length - 4)).all (· = 0) then all.take (all.length - 4) else all
      must (decide (12 ≤ r.length) && decide (field r 8 4 % 4 = 0) && decide (field r 8 4 + bs.length ≤ 65536)) 0
      .ok (acc.1, acc.2 ++ [(field r 6 2, field r 8 4, bs)])
    | _ => .error 0) ([], [])

/-! A variant whole. -/

/-- A graph as its image's variant gives it, with its microcode. -/
structure Loaded where
  g : Graph
  micro : List Micro
  deriving Repr

/-- Whether every endpoint of an actor's rates is bound (R161). -/
def Actor.allBound (a : Actor) : Bool :=
  a.ins.all (fun e => (Tab.find a.inCh e.1).isSome) && a.outs.all (fun e => (Tab.find a.outCh e.1).isSome)

/-- Whether the repeat nodes of an actor have both their inputs (R438). -/
def Actor.nodesOk (a : Actor) : Bool := a.nodes.all (fun n => n.2.rowCh ≠ 65536 && n.2.cntCh ≠ 65536)

/-- Whether the handler code of an actor streams A rows from a channel that is not 64 bytes wide (R181). DEDUCED,
notes/assumptions/81.md -/
def Graph.narrowRows (g : Graph) (a : Actor) : Bool :=
  (List.range (a.codeLen / 4)).any (fun k =>
    match decode (wordOfBytes (a.code.byte (4 * k)) (a.code.byte (4 * k + 1)) (a.code.byte (4 * k + 2)) (a.code.byte (4 * k + 3))) with
    | .ok (.mrowc _ n _) => (Tab.find a.inCh n.toNat).isSome && g.wIn a n.toNat ≠ 64
    | _ => false)

/-- Whether an alloy, an actor or a channel of a graph breaks a rule that needs the whole variant: the actor that does. -/
def Graph.flaw (g : Graph) (handles : Tab Nat) : Option Nat :=
  match g.actors.find? (fun e => !e.2.loaded || !e.2.allBound || !e.2.nodesOk || !e.2.lane.valid e.2 ||
      e.2.slots.length ≠ Tab.get 0 handles e.1) with
  | some e => some e.1
  | none =>
    let badChan := fun (k : Nat) (c : Chan) =>
      (c.comm && (match c.dst with
        | .stream n => (g.stream n).kind ≠ .accum
        | _ => true)) ||
      (match c.src with
        | .stream n => (Tab.find g.streams n).isNone
        | _ => false) ||
      (match c.dst with
        | .stream n => (Tab.find g.streams n).isNone && !g.templates.any (fun t => t.declCh = some k)
        | _ => false)
    let wide := fun a : Actor => a.outCh.any (fun e => decide (256 < e.2.length))
    let broad := fun n : Nat => decide (256 < (g.chans.filter (fun c => c.2.src = .stream n)).length)
    match g.actors.find? (fun e => g.narrowRows e.2) with
    | some e => some e.1
    | none =>
      if g.chans.any (fun c => badChan c.1 c.2) || g.fabric.any (fun w => (Tab.find g.chans w.2.1).isNone) || g.actors.any (fun a => wide a.2) || g.streams.any (fun e => broad e.1) then some 0
      else none

/-- Reads a variant (R328). -/
def Image.load (m : Image) (v : Nat) : Load Loaded := do
  let sh := m.shapes.getD v { wp := 1, hp := 1, n := [] }
  let r1 ← m.recs v 1
  must (padOk (r1.headD []) (16 + sh.wp * sh.hp)) 0
  let (as, handles) ← actorRecs (← m.recs v 2)
  let (alloys, as) ← alloyRecs sh as (r1.drop 1)
  let (as, _) ← (← m.recs v 3).foldlM wordRec (as, [])
  let (as, fabric, _) ← (← m.recs v 4).foldlM switchRec (as, [], [])
  let (chans, as) ← chanRecs as (← m.recs v 5)
  let (ts, micro) ← siltRecs as chans (← m.recs v 6)
  let as ← (← m.recs v 9).foldlM slotRec as
  let as ← (← m.recs v 7).foldlM dataRec as
  let streams ← (← m.recs v 8).foldlM (streamRec chans) []
  let fault ← faultRec as (r1.headD [])
  let as := as.map (fun (e : Nat × Actor) => (e.1, e.2.setToks))
  let g : Graph := { variant := v, wp := sh.wp, hp := sh.hp, recheck := m.recheck, rotn := m.rotn, actors := as,
                     chans := chans, streams := streams, templates := ts, alloys := alloys, fault := fault, fabric := fabric }
  match g.flaw handles with
  | some aid => .error aid
  | none => .ok { g := g, micro := micro }

end Sys2Proof.Machine
end

