-- ==== Sys2Proof/Machine/Place.lean ====
section
/-! DEFINITION. The placement of graphs (R94, R96 to R103, R109, R112, R304): plots and charges, what a load takes of tiles
and engines (R40, R161, R174, R192, R197, R203), and the state in which a graph enters Loading, new or restored (R138, R172). -/

namespace Sys2Proof.Machine

/-! Plots (R96, R97). -/

/-- The plots of a rectangle, offset by offset (R96). -/
def rect (o wp hp : Nat) : List Nat := (List.range hp).flatMap (fun j => (List.range wp).map (fun i => o + 16 * j + i))

/-- The shape of one variant of a job's image. -/
def State.shape (s : State) (j v : Nat) : Shape := (((s.job j).image.map (·.shapes)).getD []).getD v { wp := 1, hp := 1, n := [] }

/-- The tiles of a plot that are not spent, in ascending tile index (R97). -/
def State.usableTiles (s : State) (p : Nat) : List Nat := (plotTiles p).filter (fun t => !(s.block t).spent)

/-- The plots that an Earmarked job has reserved (R103). -/
def State.reserved (s : State) (j : Nat) : List Nat :=
  match (s.job j).st, (s.job j).target with
  | .earmarked, some (v, o) => rect o (s.shape j v).wp (s.shape j v).hp
  | _, _ => []

/-- The jobs that have a plot earmarked. -/
def State.earmarkers (s : State) (p : Nat) : List Nat := (s.jobs.filter (fun e => (s.reserved e.1).contains p)).map (·.1)

/-- Whether a change of a plot's world waits (R86). -/
def State.worldWaits (s : State) (p : Nat) : Bool :=
  s.board.worldPend.any (fun c => match c with
    | .plot q _ => q = p
    | _ => false)

/-- Whether a plot is free for a job, when the plots of some jobs count as free (R97). -/
def State.plotFree (s : State) (allow : List Nat) (j p : Nat) : Bool :=
  (s.holders p).all (fun k => allow.contains k) && (s.earmarkers p).all (· = j) && s.plotSecure p = s.jobSecure j && !s.worldWaits p

/-- Whether every plot of a rectangle lies in the slab and has the tiles that a shape needs, and a fallow one (R97). -/
def State.roomy (s : State) (sh : Shape) (o : Nat) : Bool :=
  decide (o % 16 + sh.wp ≤ 16) && decide (o / 16 + sh.hp ≤ 16) &&
    (rect o sh.wp sh.hp).zipIdx.all (fun e => decide (sh.n.getD e.2 0 + 1 ≤ (s.usableTiles e.1).length))

/-- Whether an origin qualifies, when the plots of some jobs count as free (R97, R100, R103). -/
def State.qualifies (s : State) (allow : List Nat) (j : Nat) (sh : Shape) (o : Nat) : Bool :=
  s.roomy sh o && (rect o sh.wp sh.hp).all (s.plotFree allow j)

/-- Whether some origin would qualify for a variant with every plot of the job's world free (R112). -/
def State.placeable (s : State) (j v : Nat) : Bool :=
  (List.range 256).any (fun o => s.roomy (s.shape j v) o &&
    (rect o (s.shape j v).wp (s.shape j v).hp).all (fun p => s.plotSecure p = s.jobSecure j))

/-- The variants that a placement tries, in order (R98): the recorded one for a saved graph. -/
def State.variants (s : State) (j : Nat) : List Nat :=
  let b := s.job j
  if s.hasGraph j then [b.resume.getD (s.graph j).variant]
  else
    let n := (b.image.map (·.nvar)).getD 1
    let p := if b.jr.variant < n then b.jr.variant else 0
    p :: (List.range n).filter (· ≠ p)

/-! Charges (R94). -/

/-- The charge of a shape (R94). -/
def State.chargeOf (s : State) (sh : Shape) : Nat := sh.wp * sh.hp * s.kiln.plotw

/-- The charge of a job: none for a weld successor, none without plots (R94). -/
def State.jobCharge (s : State) (j : Nat) : Nat :=
  let b := s.job j
  if b.welded.isSome then 0
  else match b.st, b.target with
    | .earmarked, some (v, _) => s.chargeOf (s.shape j v)
    | _, _ => if s.hasGraph j ∧ (s.graph j).phase ≠ .saved then (s.graph j).wp * (s.graph j).hp * s.kiln.plotw else 0

/-- The sum of the charges of all Loading, Resident and Earmarked graphs (R94). -/
def State.charged (s : State) : Nat := (s.jobs.map (fun e => s.jobCharge e.1)).foldl (· + ·) 0

/-- Whether a charge fits under the cap when some charges count as released (R94, R103). -/
def State.chargeFits (s : State) (c released : Nat) : Bool := decide (s.charged - released + c ≤ s.capNow)

/-! The save area (R304). -/

/-- The bytes that the largest context image of a graph may take (R304): its records as it is loaded, with what full channels, reply
buffers, subscriptions and the kick queues of its engines add; what pending completions and the records beyond 17 kicks of an engine add is not
bounded by the spec. DESIGN CHOICE, notes/assumptions/38.md -/
def Graph.contextBytes (g : Graph) : Nat :=
  let sum := fun (l : List Nat) => l.foldl (· + ·) 0
  let n := 56 + sum (g.ctxRecs.map CtxRec.len) + sum (g.chans.map (fun e => 8 + e.2.cap * (e.2.width + 1))) +
    sum (g.streams.map (fun e => if e.2.kind = .requester then 536 else 24)) + 256 * g.actors.length +
    17 * 240 * ((g.templates.map (·.port)).dedup).length
  n + Config.contextSlack n

/-- The 2 MiB units of the largest context image of a job's variants (R304). -/
def State.saveNeed (s : State) (j : Nat) : Nat :=
  match (s.job j).image with
  | none => 0
  | some m => ((List.range m.nvar).map (fun v => match m.load v with
      | .ok l => (l.g.contextBytes + 2 ^ 21 - 1) / 2 ^ 21
      | .error _ => 0)).foldl max 0

/-- SVFREE: the units that no job has reserved (R304). -/
def State.svFree (s : State) : Nat := fld s.board.svlen 19 0 - (s.jobs.map (fun e => e.2.saveUnits.length)).foldl (· + ·) 0

/-- The free units that a job may reserve: a secure job's lie in secure memory (R172, R304). -/
def State.svUnits (s : State) (j : Nat) : List Nat :=
  (List.range (fld s.board.svlen 19 0)).filter (fun u => !s.jobs.any (fun e => e.2.saveUnits.contains u) &&
    (!s.jobSecure j || s.secureAt (s.board.svbase.toNat + 2 ^ 21 * u)))

/-- Whether a job has its save space, or can have it. -/
def State.saveRoom (s : State) (j : Nat) : Bool := (s.job j).everLoaded || decide (s.saveNeed j ≤ (s.svUnits j).length)

/-! What a load takes of the tiles (R40, R147, R161, R174, R178, R180, R192, R438). -/

/-- A sum over the actors of a tile. -/
def sumOf {α : Type} (l : List α) (k : α → Nat) : Nat := (l.map k).foldl (· + ·) 0

/-- The channel buffer bytes of an actor (R161). -/
def Graph.inBytes (g : Graph) (aid : Nat) : Nat :=
  sumOf (g.chans.filter (fun e => e.2.dst.aid? = some aid)) (fun e => e.2.cap * e.2.width)

/-- The outbound buffer bytes of an actor (R192, R165). -/
def Graph.outBytes (g : Graph) (a : Actor) : Nat :=
  sumOf a.outs (fun e => e.2 * ((g.outChans a e.1).map (fun c => (g.chan c).width)).foldl max 0)

/-- The requesters whose reply buffers an actor's tile holds: those whose replies it consumes (R192, R428). -/
def Graph.reqCount (g : Graph) (aid : Nat) : Nat :=
  (g.streams.filter (fun e => e.2.kind = .requester && (g.outsOf e.1).any (fun c => (g.chan c).dst.aid? = some aid))).length

/-- An actor with the graph it is of. -/
structure Tenant where
  g : Graph
  aid : Nat
  a : Actor

/-- Whether some actors fit together on one tile (R174). -/
def tileFits (ts : List Tenant) : Bool :=
  decide (ts.length ≤ 16) && decide ((ts.map (fun x => x.a.slot)).Nodup) &&
    decide (sumOf ts (fun x => x.a.codeLen) ≤ 65536) && decide (sumOf ts (fun x => x.a.ramLen) ≤ 65536) &&
    decide (sumOf ts (fun x => x.a.rows) ≤ 8192) &&
    decide (sumOf ts (fun x => (x.a.slots.filter (fun h => h.2.claimed)).length) ≤ 24) &&
    decide (sumOf ts (fun x => x.a.ins.length) ≤ 64) && decide (sumOf ts (fun x => x.a.outs.length) ≤ 64) &&
    decide (sumOf ts (fun x => x.a.ctxs.length) ≤ 4) && decide (sumOf ts (fun x => x.g.inBytes x.aid) ≤ 65536) &&
    decide (sumOf ts (fun x => x.g.outBytes x.a) ≤ 16384) && decide (sumOf ts (fun x => x.g.reqCount x.aid) ≤ 8) &&
    decide (sumOf ts (fun x => x.a.subs.length) ≤ 16) && decide ((ts.flatMap (fun x => x.a.nodes.map (·.1))).Nodup)

/-- The matrix contexts that some actors take (R180). -/
def ctxCount (ts : List Tenant) : Nat := sumOf ts (fun x => x.a.ctxs.length)

/-- The actors that are on a tile. -/
def State.tenants (s : State) (t : Nat) : List Tenant := (s.residents t).map (fun r => { g := s.graph r.1, aid := r.2.1, a := r.2.2 })

/-- Whether every tile that a weld successor uses has a free matrix context beside what it holds (R100 condition 6). -/
def State.ctxFree (s : State) (g : Graph) : Bool :=
  ((g.actors.map (fun e => e.2.tile)).dedup).all (fun t => decide (ctxCount (s.tenants t) < 4))

/-- Whether a positioned graph fits on its tiles beside what they hold. -/
def State.tilesFit (s : State) (g : Graph) : Bool :=
  ((g.actors.map (fun e => e.2.tile)).dedup).all (fun t =>
    tileFits (s.tenants t ++ (g.actors.filter (fun e => e.2.tile = t)).map (fun e => { g := g, aid := e.1, a := e.2 })))

/-- A graph on a region: logical tile t of an offset is its t-th tile that is not spent (R97). -/
def State.position (s : State) (g : Graph) (o : Nat) : Graph :=
  { g with origin := o, used := rect o g.wp g.hp, actors := g.actors.map (fun (e : Nat × Actor) =>
      (e.1, { e.2 with tile := (s.usableTiles (o + 16 * e.2.pos.2 + e.2.pos.1)).getD e.2.ltile 0 })) }

/-- Gives an actor whose slot another graph's actor holds, or has left and not released (R54), the lowest free one (R100), if there is
one. DESIGN CHOICE, notes/assumptions/39.md -/
def State.reslot (s : State) (g : Graph) : Graph :=
  g.actors.foldl (fun g e =>
    let theirs := (s.residents e.2.tile).map (fun r => r.2.2.slot) ++ (List.range 16).filter (fun k => s.slotHeld e.2.tile k (4096, 0))
    if !theirs.contains e.2.slot then g else
    let ours := (g.actors.filter (fun x => x.2.tile = e.2.tile)).map (fun x => x.2.slot)
    match (List.range 16).find? (fun k => !(theirs ++ ours).contains k) with
    | some k => g.setActor e.1 { e.2 with slot := k }
    | none => g) g

/-- The physical endpoints that the actors of a tile have (R147). -/
def State.heldEnds (s : State) (t : Nat) : List Nat × List Nat :=
  let as := (s.residents t).map (·.2.2)
  (as.flatMap (fun a => a.physIn.map (·.2)), as.flatMap (fun a => a.physOut.map (·.2)))

/-! What a load takes of the engines and ports (R40, R197, R203, R302). -/

/-- Whether a graph's templates, microcode and named queues fit the engines that it names. -/
def State.enginesFit (s : State) (j : Nat) (g : Graph) : Bool :=
  let others := s.graphs.filter (fun e => e.1 ≠ j && e.2.phase ≠ .saved)
  g.templates.all (fun t => !s.engineLost t.port &&
      others.all (fun e => e.2.templates.all (fun x => x.port ≠ t.port || x.num ≠ t.num)) &&
      t.declQ.all (fun q => (Tab.find (s.port t.port).eng.owner q).all (· = j))) &&
    g.micro.all (fun m => !s.engineLost m.1 &&
      others.all (fun e => e.2.micro.all (fun x => x.1 ≠ m.1 || !overlaps x.2.1 x.2.2 m.2.1 m.2.2)))

/-- Binds one requester at the lowest free number of its port (R40). -/
def State.bindReq (s : State) (p : Nat) (r : Requester) : Option State :=
  let x := s.port p
  match (List.range 64).find? (fun n => (Tab.find x.reqs n).isNone) with
  | some n => some (s.setPort p { x with reqs := Tab.set x.reqs n r })
  | none => none

/-- Binds the requesters of a graph in ascending stream number, each at the port that its stream names (R40, R429): those that a quench
saved as they were (R172). -/
def State.bindReqs (s : State) (j : Nat) (g : Graph) : Option State :=
  (g.streams.filter (fun e => e.2.kind = .requester)).foldl (fun o e =>
    o.bind (fun s => s.bindReq e.2.port (match g.parkedReqs.find? (fun r => r.2.stream = e.1) with
      | some r => r.2
      | none => { job := j, stream := e.1, ended := e.2.ended }))) (some s)

/-- Loads microcode into its engine. -/
def State.loadMicro (s : State) (m : Micro) : State :=
  let e := (s.port m.1).eng
  s.setEngine m.1 { e with mcode := e.mcode.splice m.2.1 m.2.2.length (Memory.setBytes {} 0 m.2.2) }

/-- Reserves the named queues that a graph's image binds (R203). -/
def State.reserveQueues (s : State) (j : Nat) (g : Graph) : State :=
  g.templates.foldl (fun s t => match t.declQ with
    | some q => s.setEngine t.port { (s.port t.port).eng with owner := Tab.set (s.port t.port).eng.owner q j }
    | none => s) s

/-! A saved graph in a variant (R99, R138, R139, R172). -/

/-- An actor as its saved state restores it: only its place changes, and tgen goes up (R99, R132). -/
def Actor.restore (old new : Actor) (same loaded : Bool) : Actor :=
  { old with alloy := new.alloy, pos := new.pos, ltile := new.ltile, slot := if same then old.slot else new.slot,
             code := new.code, codeLen := new.codeLen, ins := new.ins, outs := new.outs, inCh := new.inCh, outCh := new.outCh,
             loaded := loaded, tgen := old.tgen + 1 }

/-- A stream as its saved position restores it (R235, R239, R36). -/
def Stream.restore (old new : Stream) : Stream :=
  { new with next := old.next, ended := old.ended, members := old.members, results := old.results,
             latched := if old.port = new.port then old.latched else none }

/-- A graph as its context image restores it into a variant (R172); a weld successor's actors are loaded behind a wavefront (R101). -/
def Graph.restore (old new : Graph) (loaded : Bool) : Graph :=
  { new with
    instId := old.instId, key := old.key, argsDone := true, sb := old.sb, parked := old.parked, parkedReqs := old.parkedReqs,
    actors := new.actors.map (fun (e : Nat × Actor) => (e.1, match Tab.find old.actors e.1 with
      | some a => a.restore e.2 (old.variant = new.variant) loaded
      | none => e.2)),
    chans := new.chans.map (fun (e : Nat × Chan) => (e.1, (Tab.find old.chans e.1).getD e.2)),
    streams := new.streams.map (fun (e : Nat × Stream) => (e.1, match Tab.find old.streams e.1 with
      | some x => x.restore e.2
      | none => e.2)),
    templates := new.templates.map (fun t => match old.templates.find? (fun x => x.port = t.port && x.num = t.num) with
      | some x => { t with armed := x.armed, bound := x.bound, declCh := x.declCh, declQ := x.declQ }
      | none => t),
    alloys := new.alloys.map (fun (e : Nat × Alloy) => (e.1, match Tab.find old.alloys e.1 with
      | some x => { e.2 with gens := x.gens, rounds := x.rounds }
      | none => e.2)) }

/-- What of an actor two state-compatible variants have in common (R138): its sizes, and its repeat nodes as the channel table
declares them. -/
def Actor.common (a : Actor) : List Nat :=
  [a.ramLen, a.rows] ++ a.nodes.flatMap (fun n => [n.1, n.2.rowCh, n.2.cntCh, n.2.group])

/-- What the actors of the variants of a graph have in common (R138). -/
def Graph.common (g : Graph) : List (List Nat) := g.actors.map (fun (e : Nat × Actor) => e.1 :: e.2.common)

/-- Whether two variants of an image are state-compatible (R138). -/
def Image.compatible (m : Image) (v w : Nat) : Bool :=
  match m.load v, m.load w with
  | .ok x, .ok y => x.g.chans = y.g.chans && x.g.common = y.g.common
  | _, _ => false

/-- The variant in which a graph will resume (R139). -/
def State.resumeVariant (s : State) (j : Nat) : Nat :=
  let cur := (s.graph j).variant
  match (s.job j).image with
  | none => cur
  | some m =>
    let ok := (List.range m.nvar).filter (fun w => w = cur || m.compatible cur w)
    let pref := if (s.job j).jr.variant < m.nvar then (s.job j).jr.variant else 0
    if (s.graph j).quench.any (·.bound) || s.board.capLow then
      (bestOf (fun x b => decide (s.chargeOf (s.shape j x) < s.chargeOf (s.shape j b))) ok).getD cur
    else if ok.contains pref then pref else cur

/-! Entering Loading (R99, R101, R109). -/

/-- What an attempt to place a job came to: not placed, not placed and the job is over, or placed. -/
inductive Placed
  | no (s : State)
  | gone (s : State)
  | ok (s : State)

/-- Refuses a load with CONFIG, or a restore (R99). -/
def State.refuse (s : State) (j aid : Nat) : State :=
  let c : Cause := { code := 97, tval := BitVec.ofNat 64 aid }
  if s.hasGraph j then s.abortGraph j stFault c
  else (s.pushRecord (s.jobSecure j) (s.jobRec j c true)).failJob j stFault 97

/-- Whether the argument area of an image takes a job's arguments (R75). -/
def State.argsFit (s : State) (j : Nat) (m : Image) (g : Graph) : Bool :=
  let n := (s.job j).jr.argLen
  n = 0 || (decide (m.argArea / 65536 + n ≤ 65536) &&
    (Tab.find g.actors (m.argArea % 65536)).any (fun a => decide (m.argArea / 65536 + n ≤ a.ramLen)))

/-- The first entry of a job into Loading: its lease, its save space and its place in the pool (R106, R109, R304). -/
def State.firstLoad (s : State) (j : Nat) : State :=
  let b := s.job j
  if b.everLoaded then s else
  let grant := if b.parent.isSome then 0 else min (1000 * b.jr.lease) s.kiln.leaseFree
  let units := (s.svUnits j).take (s.saveNeed j)
  let s := if b.parent.isSome then s.freeLaunches 1 else s
  { s with kiln := { s.kiln with leaseFree := s.kiln.leaseFree - grant } }.setJob j
    { b with everLoaded := true, lease := grant, saveUnits := units }

/-- The tiles of a graph's region at thermal step 68 (R123); half-row mode is not in force on those that held no actor (R127). -/
def State.freshSteps (s : State) (g : Graph) : State :=
  (g.used.flatMap plotTiles).foldl
    (fun s t => s.setBlock t { s.block t with tstep := 68, half := (s.block t).half && s.residents t ≠ [] }) s

/-- An assay that runs on a tile stops when the tile takes an actor, and waits for the tile to be empty again (R301). DEDUCED,
notes/assumptions/73.md -/
def State.stopAssays (s : State) (g : Graph) : State :=
  g.actors.foldl (fun s e => if (s.block e.2.tile).running then s.setBlock e.2.tile { s.block e.2.tile with running := false } else s) s

/-- A job in Loading with its graph placed. -/
def State.beginLoad (s : State) (j : Nat) (g : Graph) (micro : List Micro) (weld : Option Nat) : State :=
  let s := ((s.firstLoad j).freshSteps g).stopAssays g
  let s := (micro.foldl State.loadMicro s).reserveQueues j g
  let b := s.job j
  let s := s.setJob j { b with st := .loading, started := true, eff := 0, passes := 0, held := none, target := none,
                               victims := [], welded := weld, quotaStall := false, unplaceable := false }
  { s with kiln := { s.kiln with failed := Tab.erase s.kiln.failed j } }.setGraph j { g with parkedReqs := [] }

/-- Places a job in a variant at an origin, as a weld successor of a job if one is given (R99, R101); a saved graph comes back from its
context image, or its job ends with RESTORE (R306). Nothing is placed on a slot that is not released (R54). -/
def State.enter (s : State) (j v o : Nat) (weld : Option Nat) : Placed :=
  match (s.job j).image with
  | none => .no s
  | some m =>
    match m.load v, (if s.hasGraph j then s.imageFlaw j else none) with
    | .error aid, _ => .gone (s.refuse j aid)
    | .ok _, some off => .gone (s.abortGraph j stFault { code := 100, tval := BitVec.ofNat 64 off })
    | .ok l, none =>
      if !s.hasGraph j && !s.argsFit j m l.g then .gone (s.failJob j stBadRec 0)
      else
        let b := s.job j
        let lost := if s.hasGraph j then s.imageHits j else []
        let new := { l.g with micro := l.micro.map (fun (x : Micro) => (x.1, x.2.1, x.2.2.length)) }
        let new := { new with alloys := new.alloys.map (fun (e : Nat × Alloy) => (e.1, { e.2 with tthrot := fld s.kiln.anctl 39 32 })) }
        let g : Graph := if s.hasGraph j then (s.graph j).restore new weld.isNone else
          { new with instId := b.jr.instId, key := b.jr.key, actors := new.actors.map (fun (e : Nat × Actor) =>
              (e.1, { e.2 with loaded := weld.isNone })) }
        let g := ((s.reslot (s.position g o)).mapEnds s.heldEnds).rewire
        if g.actors.any (fun e => s.slotHeld e.2.tile e.2.slot (4096, 0)) then .no s else
        match (if s.tilesFit g && s.enginesFit j g && (weld.isNone || s.ctxFree g) then s.bindReqs j g else none) with
        | none => .gone (s.refuse j 0)
        | some s => .ok ((s.beginLoad j g l.micro weld).restoreDross j lost)

/-- The saved graphs that are welded onto a job's graph (R102). -/
def State.younger (s : State) (j : Nat) : List Nat :=
  (s.graphs.filter (fun e => e.2.phase = .saved && (s.job e.1).welded = some j)).map (·.1)

/-- The lowest origin in a job's region that qualifies for a successor (R100). -/
def State.weldOrigin (s : State) (p j : Nat) (sh : Shape) : Option Nat :=
  (List.range 256).find? (fun o => (rect o sh.wp sh.hp).all (fun x => (s.graph p).used.contains x) && s.qualifies [p] j sh o)

/-- Places a job, and with it the saved graphs that are welded onto its own (R102). The younger member is tried only within the older
one's origin. DESIGN CHOICE, notes/assumptions/85.md -/
def State.enterAll : Nat → State → Nat → Nat → Nat → Option Nat → Placed
  | 0, s, j, v, o, weld => s.enter j v o weld
  | n + 1, s, j, v, o, weld =>
    let ys := s.younger j
    match s.enter j v o weld with
    | .ok s' => ys.foldl (fun r y => match r with
        | .ok s' =>
          let w := (s'.variants y).headD 0
          match s'.weldOrigin j y (s'.shape y w) with
          | some o' => (match State.enterAll n s' y w o' (some j) with
            | .ok t => (.ok t : Placed)
            | .gone t => .ok t
            | .no _ => .no s)
          | none => .no s
        | r => r) (.ok s')
    | r => r

end Sys2Proof.Machine
end

