-- ==== Sys2Proof/Machine/Kiln.lean ====
section
/-! DEFINITION. The Kiln (R69 to R81, R88 to R112): fetch and verification, candidates and dispatch decisions, configuration
loads, the ends of graphs, kills and retirement. -/

namespace Sys2Proof.Machine

/-! Jobs. -/

/-- Whether a job's status is undecided and it holds a place in its queue or the pool. -/
def State.live (s : State) (j : Nat) : Bool := (Tab.find s.jobs j).any (fun b => !b.st.over)

/-- The children of a job that have not retired (R79). -/
def State.children (s : State) (j : Nat) : List Nat := (s.jobs.filter (fun e => e.2.parent = some j)).map (·.1)

/-- The unretired jobs of a queue, oldest first. -/
def State.queueJobs (s : State) (q : Nat) : List Nat :=
  (s.jobs.filter (fun e => e.2.parent.isNone && e.2.queue = q)).map (·.1)

/-- The unretired predecessor of a queued job (R91). -/
def State.pred (s : State) (j : Nat) : Option Nat :=
  (s.queueJobs (s.job j).queue).find? (fun k => (s.job k).index + 1 = (s.job j).index)

/-- Drops what the Kiln has read of peers for a read of its own, and what it still asks them for. -/
def State.dropOwn (s : State) (who : Waiter) : State :=
  let mine := (s.ownReads.filter (fun r => r.who = who)).map (·.id)
  { s with ownReads := s.ownReads.filter (fun r => r.who ≠ who) }.dropIf (fun a => mine.contains a.id)

/-- A job whose read of its image or arguments waits no longer. -/
def State.dropWaits (s : State) (j : Nat) : State :=
  let mine := fun w : Waiter => w = .verify j || w = .load j
  let s := (s.dropOwn (.verify j)).dropOwn (.load j)
  { s with tickets := s.tickets.map (fun (e : Nat × Ticket) => (e.1, { e.2 with waiters := e.2.waiters.filter (fun w => !mine w) })),
           ats := s.ats.filter (fun r => !mine r.who) }

/-- Ends a job with a status of its own that is decided now (R76, R91). -/
def State.endJob (s : State) (j status cause : Nat) : State := (s.dropWaits j).failJob j status cause

/-! Reads of the Kiln's own: rings, images, arguments and member bitmaps (R71, R75, R81, R36). -/

/-- What such a read finds. -/
inductive Got
  | ok (bs : Bytes)
  | fault (va code : Nat)
  | fail (code : Nat)
  | world (pa : Nat)
  | wait

/-- The parts of a span, one for each 4 KiB page. -/
def pageSpans : Nat → Nat → Nat → List (Nat × Nat)
  | 0, _, _ => []
  | k + 1, va, n =>
    if n = 0 then [] else
    let l := min n (4096 - va % 4096)
    (va, l) :: pageSpans k (va + l) (n - l)

/-- The spans of bytes of a peer's window, one for each request (R21). -/
def blockSpans : Nat → Nat → Nat → List (Nat × Nat)
  | 0, _, _ => []
  | k + 1, a, n =>
    if n = 0 then [] else
    let l := min n (256 - a % 256)
    (a, l) :: blockSpans k (a + l) (n - l)

/-- One request of a read of the Kiln's own: what the peer has answered, or the request on its way (R21, R26, R29). -/
def State.askSpan (who : Waiter) (job : Option Nat) (q pasid va base : Nat) (x : Option Bytes × State) (b : Nat × Nat) : Option Bytes × State :=
  match x.2.ownReads.find? (fun r => r.who = who && r.peer = q && r.addr = b.1 && r.len = b.2) with
  | some r => (x.1.bind (fun acc => r.got.map (fun bs => acc ++ bs)), x.2)
  | none =>
    if (x.2.peer q).st ≠ .active then (x.1.map (fun acc => acc ++ drossBytes b.2), x.2) else
    let (id, s) := x.2.ownAsk job q b.1 (.load b.2) true (some (pasid, va + (b.1 - base)))
    (none, { s with ownReads := s.ownReads ++ [{ id := id, who := who, peer := q, addr := b.1, len := b.2 }] })

/-- The bytes of one part; those of a host are what it has answered, and those of a peer what its responses have brought. -/
def State.readPart (s : State) (sec : Bool) (who : Waiter) (pasid va pa n : Nat) (ext : Bytes) : Got × Bytes × State :=
  match s.target pa with
  | .loc a =>
    if !sec && s.secureAt a then (.world a, ext, s)
    else match s.inExpander a with
      | some (_, _, true) => (.ok (drossBytes n), ext, s.notice sec 58 (BitVec.ofNat 64 a))
      | _ => (.ok (s.mem.reads a n), ext, s)
  | .host l a => if ext.length < n then (.wait, ext, s) else (.ok (ext.take n), ext.drop n, s.emit (.hostRead l a n))
  | .peer q a =>
    match (blockSpans (n + 1) a n).foldl (State.askSpan who none q pasid va a) (some [], s) with
    | (some bs, s) => (.ok bs, ext, s)
    | (none, s) => (.wait, ext, s)
  | .reg _ => (.ok (drossBytes n), ext, s)
  | .none _ => (.ok (drossBytes n), ext, s)

/-- Reads parts in turn in a PASID, up to the first that gives no bytes; `failed` lists the pages whose ticket was failed. -/
def State.readParts (pasid : Nat) (sec : Bool) (who : Waiter) (failed : List (Nat × Nat)) :
    List (Nat × Nat) → Bytes → Bytes → State → Got × Bytes × State
  | [], acc, ext, s => (.ok acc, ext, s)
  | (va, n) :: t, acc, ext, s =>
    match failed.find? (fun f => f.1 = va / 4096) with
    | some f => (.fail f.2, ext, s)
    | none =>
      if !canonicalSpan va n then (.fail 49, ext, s)
      else match s.translate pasid va false who with
        | (.ok pa, s) =>
          match s.readPart sec who pasid va pa n ext with
          | (.ok bs, ext, s) => State.readParts pasid sec who failed t (acc ++ bs) ext s
          | x => x
        | (.fault c, s) => (.fault va c, ext, s)
        | (.deny, s) => (.fail 55, ext, s)
        | (.wait, s) => (.wait, ext, s)

/-- Reads bytes in a PASID. DESIGN CHOICE, notes/assumptions/51.md -/
def State.readVa (s : State) (pasid : Nat) (sec : Bool) (who : Waiter) (failed : List (Nat × Nat)) (va n : Nat) (ext : Bytes) :
    Got × Bytes × State :=
  State.readParts pasid sec who failed (pageSpans (n + 1) va n) [] ext s

/-- Reads bytes for a job (R75, R81). -/
def State.readFor (s : State) (j : Nat) (who : Waiter) (va n : Nat) (ext : Bytes) : Got × Bytes × State :=
  s.readVa (s.pasidOf j) (s.jobSecure j) who (s.job j).failedPages va n ext

/-- Whether a job's read waits for a ticket. -/
def State.waits (s : State) (w : Waiter) : Bool := s.tickets.any (fun t => t.2.waiters.contains w)

/-- A read that met a serviceable fault: a ticket (R230). -/
def State.joinRead (s : State) (j va code : Nat) (who : Waiter) : State :=
  match s.joinTicket j (s.pasidOf j) va code false who with
  | some (_, s) => s
  | none => s

/-! Fetch (R71, R74, R89). -/

/-- A job record (R74): its fields, and whether R74 accepts it. -/
def recordOf (b : List Byte) (world : Bool) : JobRec × Bool :=
  let dw := fun i => BitVec.ofNat 64 (field b (8 * i) 8)
  let d0 := dw 0
  let r : JobRec :=
    { instId := BitVec.ofNat 32 (fld d0 63 32), pweight := fld d0 31 24, prio := fld d0 23 21, dep := d0.getLsbD 20,
      weld := d0.getLsbD 19, secure := d0.getLsbD 18, variant := fld d0 17 16, nop := fld d0 7 4 = 0, image := dw 1,
      args := dw 2, argLen := fld (dw 3) 63 48, quota := fld (dw 3) 47 0, lease := fld (dw 4) 63 32,
      key := [BitVec.ofNat 32 (fld (dw 5) 31 0), BitVec.ofNat 32 (fld (dw 5) 63 32), BitVec.ofNat 32 (fld (dw 6) 31 0),
              BitVec.ofNat 32 (fld (dw 6) 63 32)],
      sigAddr := dw 7, sigVal := dw 8, vec := fld (dw 9) 43 32, irq := (dw 9).getLsbD 2, sigOp := fld (dw 9) 1 0,
      jobTag := dw 10 }
  (r, decide (fld d0 7 4 ≤ 1) && fld d0 15 8 = 0 && fld d0 3 0 = 0 && fld (dw 4) 31 0 = 0 && fld (dw 9) 63 44 = 0 &&
    fld (dw 9) 31 3 = 0 && dw 11 = 0 && dw 12 = 0 && dw 13 = 0 && dw 14 = 0 && dw 15 = 0 && r.secure = world &&
    (dw 1).toNat % 64 = 0 && (dw 2).toNat % 64 = 0 && (dw 7).toNat % 8 = 0 && decide (r.argLen ≤ 4096))

/-- The ring address of a record (R67). -/
def Queue.slot (q : Queue) (i : W32) : Nat := 4096 * fld q.base 63 12 + 128 * (i.toNat % q.size)

/-- The state in which a record has become a job (R89, R91, R110). -/
def State.newJob (s : State) (n : Nat) (r : JobRec) (ok : Bool) : State :=
  let q := s.queue n
  let (j, s) := s.newId
  let s := s.setJob j { queue := n, index := q.head, jr := r, account := if r.quota = 0 then none else some r.quota }
  let s := s.setQueue n { q with head := q.head + 1 }
  let late := (s.pred j).isNone && q.last.any (· ≠ 0)
  if !ok then s.endJob j stBadRec 0
  else if r.dep && late then s.endJob j stAborted 0
  else if r.nop then s.setJob j { s.job j with st := .ended, started := true, everLoaded := true }
  else s

/-- Whether the next record of a queue lies in the memory of the part. -/
def State.ringLocal (s : State) (q : Nat) : Bool :=
  let x := s.queue q
  match (s.translate x.pasid (x.slot x.head) false (.ring q)).1 with
  | .ok pa => match s.target pa with
    | .loc _ => true
    | _ => false
  | _ => true

/-- A ring read that faults or brings dross halts its queue (R71). -/
def State.haltQueue (s : State) (q : Nat) : State :=
  (s.dropOwn (.ring q)).setQueue q ({ s.queue q with st := .halted, got := [] }.error 5)

/-- Keeps what a turn has read of a record, and makes its job once all of it is there (R72, R74). -/
def State.takeRecord (s : State) (q : Nat) (got : Tab Bytes) : State :=
  if (List.range 16).all (fun i => (Tab.find got i).isSome) then
    let x := s.queue q
    let (r, ok) := recordOf ((List.range 16).flatMap (fun i => (Tab.get [] got i).map (·.1))) x.secure
    ((s.dropOwn (.ring q)).setQueue q { x with got := [] }).newJob q r ok
  else s.setQueue q { s.queue q with got := got }

/-- RECORD_FETCH (R17, R71, R72, R74, R89): the doublewords of the next record that `rd` names are read in this turn; those of a ring outside
the part come together. Nothing is fetched without READY. DEDUCED, notes/assumptions/64.md -/
def execRecordFetch (q : Nat) (rd : RecordRead) (s : State) : Res :=
  let x := s.queue q
  if x.st ≠ .running || !s.board.ready || x.head = x.tail || 16 ≤ (s.queueJobs q).length then disabled "RECORD_FETCH"
  else
    let new := ((if s.ringLocal q then rd.dws else List.range 16).filter (fun i => decide (i < 16) && (Tab.find x.got i).isNone)).dedup
    if new = [] then disabled "RECORD_FETCH"
    else match s.readVa x.pasid x.secure (.ring q) [] (x.slot x.head) 128 rd.ext with
      | (.ok bs, _, s) =>
        let part := fun i : Nat => (bs.drop (8 * i)).take 8
        if new.any (fun i => anyDross (part i)) then .next (s.haltQueue q)
        else .next (s.takeRecord q (new.foldl (fun t i => Tab.set t i (part i)) x.got))
      | (.fault _ _, _, s) => .next (s.haltQueue q)
      | (.fail _, _, s) => .next (s.haltQueue q)
      | (.world pa, _, s) => .next ((s.pushRecord false { cause := 337, tval := BitVec.ofNat 64 pa, queue := q }).haltQueue q)
      | (.wait, _, s') => orWait "RECORD_FETCH" s s'

/-! Verification (R81, R82, R90). -/

/-- What a read for a job comes to when it gives no bytes: the job ends with a status, its record first, or it waits. -/
def State.readStop (s : State) (j : Nat) (who : Waiter) (status : Nat) : Got → State
  | .fault va c => s.joinRead j va c who
  | .fail c => s.endJob j status c
  | .world pa =>
    let c : Cause := { code := 337, tval := BitVec.ofNat 64 pa }
    (s.pushRecord false (s.jobRec j c true)).endJob j stWorld 337
  | _ => s

/-- The end of a verification (R81, R82, R90). -/
def State.verified (s : State) (j : Nat) (bs : Bytes) : State :=
  let b := bs.map (·.1)
  match (if anyDross bs || !s.signedImage b then none else imageOf b) with
  | none => s.endJob j stBadImage 0
  | some m =>
    if m.secure && !s.jobSecure j then
      let c : Cause := { code := 339, tval := BitVec.ofNat 64 (s.job j).queue }
      (s.pushRecord false (s.jobRec j c true)).endJob j stWorld 339
    else s.setJob j { s.job j with image := some m, st := .waiting, failedPages := [] }

/-- Whether the memory for verified copies has room for one more (R81). DESIGN CHOICE, notes/assumptions/16.md -/
def State.copyFits (s : State) (len : Nat) : Bool :=
  decide (sumOf s.jobs (fun e => (e.2.image.map (·.bytes)).getD 0) + len ≤ Config.copyRoom)

/-- A job whose verified copy has no room stays Fetched, and SAVESPACE is raised once for it (R81). -/
def State.copyWaits (s : State) (j : Nat) : State :=
  let b := s.job j
  if b.copyWarned then s
  else (s.jobNotice j { code := 291, tval := BitVec.ofNat 64 b.queue }).setJob j { b with copyWarned := true }

/-- A job that no rectangle of its world can ever take raises UNPLACEABLE once (R112). A saved graph counts by its recorded variant, and
rests in Parked or Stalled. DESIGN CHOICE, notes/assumptions/85.md -/
def State.notePlaceable (s : State) (j : Nat) : State :=
  let b := s.job j
  if b.image.isNone || b.unplaceable || (s.variants j).any (s.placeable j) then s
  else (s.jobNotice j { code := 289, tval := BitVec.ofNat 64 b.queue }).setJob j { b with unplaceable := true }

/-- IMAGE_VERIFY (R81, R90, R112): the first bytes give the length, and an image too short to be one is not read further. -/
def execImageVerify (job : Nat) (ext : List (Byte × Bool)) (s : State) : Res :=
  let b := s.job job
  let at0 := b.jr.image.toNat
  if !s.live job || b.st ≠ .fetched || s.waits (.verify job) then disabled "IMAGE_VERIFY"
  else
    match s.readFor job (.verify job) at0 (256 - at0 % 256) ext with
    | (.ok h, _, s1) =>
      let len := field (h.map (·.1)) 8 4
      if anyDross h || len < 2752 || len % 64 ≠ 0 then .next (s1.endJob job stBadImage 0)
      else if !s.copyFits len then orWait "IMAGE_VERIFY" s (s.copyWaits job)
      else match s.readFor job (.verify job) at0 len ext with
        | (.ok bs, _, s) => .next (((s.dropOwn (.verify job)).verified job bs).notePlaceable job)
        | (g, _, s') => orWait "IMAGE_VERIFY" s (s'.readStop job (.verify job) stBadImage g)
    | (g, _, s') => orWait "IMAGE_VERIFY" s (s'.readStop job (.verify job) stBadImage g)

/-! Candidates (R91, R92, R112). -/

/-- Whether a job satisfies the rule of R91, but for R112. A saved graph resumes with those that are welded with it, at the
candidacy of the oldest (R102), whose account alone is looked at. DESIGN CHOICE, notes/assumptions/77.md -/
def State.eligibleJob (s : State) (j : Nat) : Bool :=
  let b := s.job j
  if b.st = .earmarked || b.st = .loading || b.st = .resident || b.st.over || b.image.isNone then false
  else if s.hasGraph j then
    (s.graph j).phase = .saved && !(b.welded.any s.hasGraph) && (!b.quotaStall || s.accountOf j ≠ some 0) &&
      (s.weldSet 256 [j]).all (fun k => (s.graph k).phase = .saved)
  else if b.parent.isSome then true
  else match s.pred j with
    | some k => !b.jr.dep && (s.job k).started
    | none => !b.jr.dep || !(s.queue b.queue).last.any (· ≠ 0)

/-- A job that is no candidate, in the state it then has (R88, R92). What has been held stays held (R95). -/
def Job.rest (b : Job) (saved : Bool) : Job :=
  { b with st := if saved then (if b.quotaStall then .stalled else .parked) else .waiting, eff := 0, passes := 0 }

/-- A saved weld successor whose predecessor is gone stands alone (R94, R100). -/
def State.unweld (s : State) (j : Nat) : State :=
  let b := s.job j
  if s.hasGraph j && (s.graph j).phase = .saved && b.welded.any (fun p => !s.hasGraph p) then s.setJob j { b with welded := none } else s

/-- A job as it is before a decision: a candidate or not (R91, R92, R112). -/
def State.refreshJob (s : State) (j : Nat) : State :=
  let st := (s.job j).st
  if st ≠ .waiting && st ≠ .candidate && st ≠ .parked && st ≠ .stalled then s
  else
    let s := (s.unweld j).notePlaceable j
    let b := s.job j
    if b.image.isSome && !(s.variants j).any (s.placeable j) then s.setJob j (b.rest (s.hasGraph j))
    else if s.eligibleJob j then
      if st = .candidate then s.setJob j { b with unplaceable := false }
      else s.setJob j { b with st := .candidate, eff := s.basePrio j, passes := 0, unplaceable := false }
    else s.setJob j { b.rest (s.hasGraph j) with unplaceable := false }

/-- The candidates. -/
def State.candidates (s : State) : List Nat := (s.jobs.filter (fun e => e.2.st = .candidate)).map (·.1)

/-- The job state before a decision; a source without a candidate has no credit (R93). -/
def State.refresh (s : State) : State :=
  let s := (s.jobs.map (·.1)).foldl State.refreshJob s
  { s with kiln := { s.kiln with credits := s.kiln.credits.filter (fun e => s.candidates.any (fun j => s.source j = e.1)) } }

/-- The candidates that are offered to a decision (R91, R106): each queue's oldest, and the pool's oldest of each level. -/
def State.offered (s : State) : List Nat :=
  s.candidates.filter (fun j => s.candidates.all (fun k =>
    !(decide (k < j) && s.source k = s.source j && (s.source j ≠ 4096 || (s.job k).eff = (s.job j).eff))))

/-- ENERGY_CHARGE (R135, R137): to the lease above step 44, and otherwise to the account, which never falls below zero. Nothing is
charged while the account is empty, nor before the quenches that this has caused are complete; saved graphs whose account has emptied
are Stalled at once (R91, R110). -/
def execEnergyCharge (block job : Nat) (x : Energy) (s : State) : Res :=
  let r := s.root job
  let b := s.job r
  if !s.chargeable block job x.idle then disabled "ENERGY_CHARGE"
  else if b.account = some 0 || s.stalling r then .next s
  else if block < 4096 ∧ 44 < s.commonStep block then .next (s.setJob r { b with lease := b.lease - x.uj })
  else match b.account with
  | none => .next s
  | some n =>
    let s := s.setJob r { b with account := some (n - x.uj) }
    .next (if n - x.uj = 0 && n ≠ 0 then (s.stall r).refresh else s)

/-! Placement (R93 to R103). -/

/-- Whether a weld onto a predecessor is open to a job, but for its region and its tiles (R100): the predecessor. -/
def State.weldHost (s : State) (j : Nat) : Option Nat :=
  let b := s.job j
  if !s.kiln.weldEn || b.parent.isSome || !b.jr.weld || b.jr.dep || s.candidates.any (fun k => (s.job k).held.isSome) then none
  else match s.pred j with
    | none => none
    | some p =>
      let weldable := fun k => ((s.job k).image.map (·.weldable)).getD false
      if (s.job p).st = .resident && (s.graph p).phase = .resident && s.hasGraph p && weldable j && weldable p &&
          decide (Tab.get 0 s.kiln.failed p ≤ b.eff + 1) then some p else none

/-- A weld, if it is admitted (R100, R101). -/
def State.tryWeld (s : State) (j : Nat) : Option State :=
  match s.weldHost j with
  | none => none
  | some p =>
    let v := (s.variants j).headD 0
    match s.weldOrigin p j (s.shape j v) with
    | none => none
    | some o => match s.enterAll 256 j v o (some p) with
      | .ok s => some s
      | _ => none

/-- The first variant with a qualifying origin whose charge fits (R98). -/
def State.findPlace (s : State) (j : Nat) : Option (Nat × Nat) :=
  (s.variants j).findSome? (fun v =>
    if s.chargeFits (s.chargeOf (s.shape j v)) 0 then
      ((List.range 256).find? (s.qualifies [] j (s.shape j v))).map (fun o => (v, o))
    else none)

/-- The graphs whose plots a job may pre-empt (R103). -/
def State.lower (s : State) (j : Nat) : List Nat :=
  (s.graphs.filter (fun e => e.2.phase ≠ .saved && ((s.job e.1).st = .resident || (s.job e.1).st = .loading) &&
    decide (s.basePrio e.1 < s.basePrio j))).map (·.1)

/-- The graphs that a pre-emption of a rectangle quenches (R102, R103). -/
def State.victimsOf (s : State) (j : Nat) (ps : List Nat) : List Nat :=
  s.weldSet 256 ((ps.flatMap s.holders).dedup.filter (· ≠ j))

/-- The first origin and variant that pre-emption opens (R103). The scan goes on past an origin whose charge does not fit. DESIGN CHOICE,
notes/assumptions/85.md -/
def State.findPreempt (s : State) (j : Nat) : Option (Nat × Nat) :=
  let low := s.lower j
  (List.range 256).findSome? (fun o => (s.variants j).findSome? (fun v =>
    let sh := s.shape j v
    if s.qualifies low j sh o then
      let vs := s.victimsOf j (rect o sh.wp sh.hp)
      if s.chargeFits (s.chargeOf sh) (sumOf vs s.jobCharge) then some (v, o) else none
    else none))

/-- Earmarks a rectangle for a job and quenches the graphs that hold its plots (R103). -/
def State.earmark (s : State) (j v o : Nat) : State :=
  let vs := s.victimsOf j (rect o (s.shape j v).wp (s.shape j v).hp)
  let s := s.setJob j { s.job j with st := .earmarked, target := some (v, o), victims := vs, eff := 0, passes := 0, held := none }
  vs.foldl State.beginQuench s

/-- Whether no assay is pending on a tile that a job's graph, or one that is welded with it, has left (R307). -/
def State.assayed (s : State) (j : Nat) : Bool := (s.weldSet 256 [j]).all (fun k => (s.job k).assays = [])

/-- place(c) of R93, with R94, R98, R100, R103, R304 and R307. -/
def State.place1 (s : State) (j : Nat) : Placed :=
  if s.capNow = 0 || s.capNow < s.charged || !s.assayed j then .no s
  else if !s.saveRoom j then
    let b := s.job j
    if b.saveWarned then .no s
    else .no ((s.jobNotice j { code := 291, tval := BitVec.ofNat 64 b.queue }).setJob j { b with saveWarned := true })
  else match s.tryWeld j with
    | some s => .ok s
    | none => match s.findPlace j with
      | some (v, o) => s.enterAll 256 j v o none
      | none =>
        if s.kiln.preempt then
          match s.findPreempt j with
          | some (v, o) => .ok (s.earmark j v o)
          | none => .no s
        else .no s

/-- Notes a candidate that has failed place(), for condition 7 of R100. -/
def State.noteFailed (s : State) (j : Nat) : State :=
  let ps := (s.jobs.filter (fun e => e.2.st = .loading || e.2.st = .resident)).map (·.1)
  { s with kiln := { s.kiln with failed := ps.foldl (fun t p => Tab.put 0 t p (max (Tab.get 0 t p) ((s.job j).eff + 1))) s.kiln.failed } }

/-- Tries candidates in order: the one that was placed, or whose attempt ended it without a placement. -/
def State.tryEach : List Nat → State → State × Option (Nat × Bool)
  | [], s => (s, none)
  | c :: t, s =>
    match s.place1 c with
    | .ok s => (s, some (c, true))
    | .gone s => (s, some (c, false))
    | .no s => State.tryEach t (s.noteFailed c)

/-- A candidate that is passed over (R92). -/
def State.passOver (s : State) (j : Nat) : State :=
  let b := s.job j
  if b.passes + 1 < 64 then s.setJob j { b with passes := b.passes + 1 }
  else if b.eff < 7 then s.setJob j { b with passes := 0, eff := b.eff + 1 }
  else if b.held.isSome then s.setJob j { b with passes := 0 }
  else
    let (n, s) := s.newId
    s.setJob j { b with passes := 0, held := some n }

/-- passes(c) of R93, over the candidates there were. -/
def State.passAll (s : State) (cands : List Nat) (c : Nat) : State :=
  (cands.filter (fun d => d ≠ c && s.live d)).foldl State.passOver s

/-- Inserts into a list in an order. -/
def insertBy (lt : Nat → Nat → Bool) (x : Nat) : List Nat → List Nat
  | [] => [x]
  | y :: t => if lt x y then x :: y :: t else y :: insertBy lt x t

/-- Sorts in an order, equals in the order they had. -/
def sortBy (lt : Nat → Nat → Bool) (l : List Nat) : List Nat := l.foldl (fun acc x => insertBy lt x acc) []

/-- The credit of a job's source, plus its own weight and one (R93). -/
def State.creditKey (s : State) (j : Nat) : Int := Tab.get 0 s.kiln.credits (s.source j) + (s.weight j : Int) + 1

/-- The order in which a level is tried (R93), and whether the cap binds. -/
def State.levelOrder (s : State) (c : List Nat) : List Nat × Bool :=
  let order := sortBy (fun x y => decide (s.creditKey y < s.creditKey x) ||
    (s.creditKey x = s.creditKey y && decide (s.source x < s.source y))) c
  let first := order.headD 0
  if s.capNow < s.charged + s.chargeOf (s.shape first ((s.variants first).headD 0)) then
    (sortBy (fun x y => decide (s.weight y < s.weight x)) order, true)
  else (order, false)

/-- The credits after a placement in a level (R93); sources and weights are those before it. -/
def creditsAfter (src w : Nat → Nat) (level : List Nat) (c : Nat) (t : Tab Int) : Tab Int :=
  let t := level.foldl (fun t d => Tab.put 0 t (src d) (Tab.get 0 t (src d) + (w d : Int) + 1)) t
  Tab.put 0 t (src c) (Tab.get 0 t (src c) - (sumOf level (fun d => w d + 1) : Int))

/-- The levels of a decision, from the highest down (R93). -/
def State.levels : Nat → State → List Nat → State
  | 0, s, _ => s
  | n + 1, s, cands =>
    let level := s.offered.filter (fun j => (s.job j).eff = n)
    if level = [] then State.levels n s cands
    else
      let (order, binds) := s.levelOrder level
      let s := if binds then { s with kiln := { s.kiln with capBind := true } } else s
      match State.tryEach order s with
      | (s', some (c, true)) =>
        State.passAll { s' with kiln := { s'.kiln with
          credits := creditsAfter s.source s.weight level c s'.kiln.credits } } cands c
      | (s', some (_, false)) => s'
      | (s', none) => State.levels n s' cands

/-- decide() of R93, over the candidates that are offered. -/
def State.decide1 (s : State) : State :=
  let cands := s.candidates
  let s := { s with kiln := { s.kiln with capBind := false } }
  let held := s.offered.filter (fun j => (s.job j).held.isSome)
  if held ≠ [] then
    match State.tryEach (sortBy (fun x y => decide ((s.job x).held.getD 0 < (s.job y).held.getD 0)) held) s with
    | (s, some (c, true)) => s.passAll cands c
    | (s, _) => s
  else s.levels 8 cands

/-- An Earmarked job whose victims have given up their plots enters Loading, or returns to Candidate (R103). -/
def State.settleEarmark (s : State) (j : Nat) : State :=
  let b := s.job j
  match b.st, b.target with
  | .earmarked, some (v, o) =>
    if !s.board.ready || b.victims.any (fun k => s.hasGraph k && (s.graph k).phase ≠ .saved) then s
    else
      let back := s.setJob j { b with st := .candidate, target := none, victims := [], eff := s.basePrio j, passes := 0, held := none }
      if s.qualifies [] j (s.shape j v) o && s.saveRoom j && s.assayed j then
        match s.enterAll 256 j v o none with
        | .ok s => s
        | .gone s => s
        | .no _ => back
      else back
  | _, _ => s

/-- Settles every Earmarked job. -/
def State.settleEarmarks (s : State) : State := (s.jobs.map (·.1)).foldl State.settleEarmark s

/-! Configuration loads (R36, R75, R99, R101, R110, R170). -/

/-- Refuses a load whose reading has failed: nothing of the graph is placed (R75, R36). -/
def State.undoLoad (s : State) (j status cause : Nat) : State := ((s.dropWaits j).dropGraph j).failJob j status cause

/-- The numbers of the bits that are set in a bitmap. -/
def bitsSet (bs : List Byte) : List Nat := bs.zipIdx.flatMap (fun e => ((List.range 8).filter (e.1.getLsbD ·)).map (8 * e.2 + ·))

/-- What a read at load comes to when it gives no bytes. -/
def State.loadStop (s : State) (j status : Nat) (g : Got) : State :=
  match g with
  | .fault va c => s.joinRead j va c (.load j)
  | .fail c =>
    if status = stBadRec then s.undoLoad j stBadRec c else (s.dropWaits j).abortGraph j stFault { code := 97 }
  | .world pa => (s.dropWaits j).abortGraph j stWorld { code := 337, tval := BitVec.ofNat 64 pa }
  | _ => s

/-- Reads the member bitmaps of the reduction streams of a graph, in order (R36). -/
def State.readMembers (j : Nat) : List Nat → Bytes → State → State × Bool
  | [], _, s => (s, true)
  | n :: t, ext, s =>
    let st := (s.graph j).stream n
    match s.readFor j (.load j) st.base 512 ext with
    | (.ok bs, ext, s) =>
      let ms := bitsSet (bs.map (·.1))
      if anyDross bs || !ms.contains s.board.domid || ms.length < 2 then
        ((s.dropWaits j).abortGraph j stFault { code := 97 }, false)
      else State.readMembers j t ext (s.setGraph j ((s.graph j).setStream n { st with members := ms }))
    | (g, _, s) => (s.loadStop j stFault g, false)

/-- The arguments of a job into handler RAM, then the member bitmaps (R36, R75). -/
def State.readArgs (s : State) (j : Nat) (m : Image) (ext : Bytes) : State × Bool :=
  let jr := (s.job j).jr
  let streams := (((s.graph j).streams.filter (fun e => e.2.kind = .reduce))).map (·.1)
  if jr.argLen = 0 then State.readMembers j streams ext s
  else match s.readFor j (.load j) jr.args.toNat jr.argLen ext with
    | (.ok bs, ext, s) =>
      if anyDross bs then (s.undoLoad j stBadRec 0, false)
      else
        let a := s.actor j (m.argArea % 65536)
        State.readMembers j streams ext (s.setActor j (m.argArea % 65536) { a with hram := a.hram.store (m.argArea / 65536) bs })
    | (g, _, s) => (s.loadStop j stBadRec g, false)

/-- Kicks that wait for an engine, oldest first: 16 in its queue and the rest in the fabric (R201). -/
def State.requeue (s : State) (k : Nat × Kick) : State :=
  let e := (s.port k.1).eng
  if e.late = [] ∧ e.kicks.length < 16 then s.setEngine k.1 { e with kicks := e.kicks ++ [k.2] }
  else s.setEngine k.1 { e with late := e.late ++ [k.2] }

/-- An affine stream with the entry that its port latches at the load, if the page of its next element translates (R235). -/
def State.latchStream (s : State) (j n : Nat) : State :=
  let st := (s.graph j).stream n
  let va := (st.address st.next).toNat
  let moves := st.kind = .read || st.kind = .write || st.kind = .accum
  if !moves || !st.affine || st.latched.isSome || st.ended || st.total ≤ st.next || st.address st.next ≠ va || !canonicalSpan va 1 then s
  else match State.walkElem (s.pasidOf j) st.port [] true st.writes (.elem j n st.next) [(va, 1)] none s with
    | ((_, _, none, some l), s') => s'.setGraph j ((s'.graph j).setStream n { st with latched := some l })
    | _ => s

/-- The completion of a load (R99, R110, R235). A stream without elements ends at once (R434). -/
def State.becomeResident (s : State) (j : Nat) : State :=
  let s := (((s.graph j).streams).map (·.1)).foldl (fun s n => s.latchStream j n) (s.dropOwn (.load j))
  let g := s.graph j
  let g := (g.streams.map (·.1)).foldl Graph.endStream g
  let s := g.parked.foldl State.requeue (s.setGraph j { g with phase := if g.quench.isSome then .quenching else .resident, parked := [] })
  let s := s.setJob j { s.job j with st := .resident }
  if s.accountOf j = some 0 then (s.beginQuench j).markStall j else s

/-- CONFIG_LOAD_DONE (R75, R99, R101): the arguments are in place before any firing, and the load completes once every actor
is loaded. -/
def execConfigLoadDone (job : Nat) (ext : List (Byte × Bool)) (s : State) : Res :=
  let g := s.graph job
  match (s.job job).image with
  | none => disabled "CONFIG_LOAD_DONE"
  | some m =>
    if !s.hasGraph job || g.phase ≠ .loading || s.waits (.load job) then disabled "CONFIG_LOAD_DONE"
    else
      let whole := g.actors.all (fun e => e.2.loaded)
      if g.argsDone then (if whole then .next (s.becomeResident job) else disabled "CONFIG_LOAD_DONE")
      else match s.readArgs job m ext with
        | (s', false) => orWait "CONFIG_LOAD_DONE" s s'
        | (s', true) =>
          let s' := s'.setJob job { s'.job job with failedPages := [] }
          let s' := s'.setGraph job { s'.graph job with argsDone := true }
          .next (if whole then s'.becomeResident job else s')

/-- WELD_WAVEFRONT (R101, R170): the predecessor's actors on the tile have ended, are saved, or are none. -/
def execWeldWavefront (job : Nat) (x : MarkFlit) (s : State) : Res :=
  let g := s.graph job
  let tile := x.n
  let here := g.actors.filter (fun e => e.2.tile = tile && !e.2.loaded)
  let free : Bool := match (s.job job).welded with
    | none => false
    | some p =>
      let h := s.graph p
      h.phase = .saved || h.actors.all (fun e => e.2.tile ≠ tile || e.2.ended || h.quench.any (fun q => q.saved.contains e.1))
  if !s.hasGraph job || g.phase ≠ .loading || here = [] || !free then disabled "WELD_WAVEFRONT"
  else match s.takeMark tile 0 { kind := 5, world := s.jobSecure job } x.flit with
  | none => disabled "WELD_WAVEFRONT"
  | some s => .next (s.setGraph job { g with actors := g.actors.map (fun (e : Nat × Actor) =>
      if e.2.tile = tile then (e.1, { e.2 with loaded := true }) else e) })

/-! The ends of graphs (R104, R139, R164, R171). -/

/-- QUENCH_COMPLETE (R104, R139, R171). -/
def execQuenchComplete (job : Nat) (s : State) : Res :=
  if !s.quenched job then disabled "QUENCH_COMPLETE"
  else
    let v := s.resumeVariant job
    let s := s.finishQuench job
    .next (s.setJob job { s.job job with resume := some v }).settleEarmarks

/-- Whether nothing of a graph is left to end (R164), its accesses among it (R155). -/
def State.allEnded (s : State) (j : Nat) : Bool :=
  let g := s.graph j
  g.actors.all (fun e => e.2.ended && e.2.comps = []) && s.enginesOf j = [] &&
    (s.reqsOf j).all (fun r => r.2.ended && r.2.tags = []) &&
    g.streams.all (fun e => e.2.ended) && s.inflight.all (fun a => a.src.job ≠ some j) && s.tiles.all (fun t => t.2.causes.all (fun c => c.1 ≠ j) && t.2.firing.all (fun f => f.job ≠ j))

/-- GRAPH_END (R105, R107, R164). -/
def execGraphEnd (job : Nat) (s : State) : Res :=
  if !s.hasGraph job || (s.graph job).phase ≠ .resident || !s.allEnded job then disabled "GRAPH_END"
  else
    let s := s.dropGraph job
    let b := s.job job
    let fail := if b.marked then b.fail.or (some (stDepth, 0)) else b.fail
    .next (s.setJob job { b with st := .ended, fail := fail }).settleEarmarks

/-- Whether an outcome is that of an event which cannot happen. -/
def Res.off : Res → Bool
  | .next _ => false
  | _ => true

/-- Whether no stream, requester, bound template or barrier of a graph can go on by itself (R164). -/
def State.quiet (s : State) (j : Nat) : Bool :=
  let g := s.graph j
  g.streams.all (fun e => Res.off (execStreamElementIssue j e.1 s) &&
      e.2.window.all (fun x => Res.off (execStreamElementComplete j e.1 x.idx s))) &&
    g.templates.all (fun t => Res.off (execBoundKick t.port t.num s)) &&
    g.alloys.all (fun a => (List.range a.2.barriers).all (fun b => Res.off (execBarrierPass j a.1 b s))) &&
    s.ports.all (fun p => p.2.reqs.all (fun r => r.2.job ≠ j || r.2.tags = [])) &&
    g.chans.all (fun c => c.2.transit = [] && c.2.ending = c.2.ended)

/-- Whether a firing counts as not in progress (R164, R384, R395): it waits at a barrier or for a slot with nothing else under way,
or for a stream run in which no element can fire. -/
def State.idleFiring (s : State) (f : Firing) : Bool :=
  let dead : Bool := f.run.any (fun r => !r.finished f.lane &&
    (List.range 16).all (fun n => !r.ready (s.graph f.job) (s.actor f.job f.aid) f.lane n))
  f.mwork = [] && (match f.phase with
    | .bar _ false => f.run.isNone
    | .claim _ => f.run.isNone
    | .vswt => dead
    | .commit 1 _ => dead
    | _ => false)

/-- Whether a graph is stuck (R164): what it holds of each condition does not change by itself. The gate of an actor whose firing is in
progress lets no other start (R149). -/
def State.stuck (s : State) (j : Nat) : Bool :=
  let g := s.graph j
  !s.allEnded j &&
    s.tiles.all (fun t => t.2.causes.all (fun c => c.1 ≠ j) && t.2.firing.all (fun f => f.job ≠ j || s.idleFiring f)) &&
    g.actors.all (fun e => ((s.firingOf j e.1).isSome || !s.eligible j e.1) && e.2.comps = [] && e.2.held = [] && e.2.deliveries = []) &&
    s.enginesOf j = [] && g.streams.all (fun e => e.2.window.all (fun x => !x.spilled)) && s.quiet j

/-- DEADLOCK_DETECT (R164). -/
def execDeadlockDetect (job : Nat) (s : State) : Res :=
  if !s.hasGraph job || (s.graph job).phase ≠ .resident || !s.stuck job then disabled "DEADLOCK_DETECT"
  else .next (s.takeCause job { code := 98, suspends := false })

/-! Kills (R73, R108, R110, R136). -/

/-- Whether one job is an ancestor of another, or the same. -/
def State.isAncestor (s : State) (j k : Nat) : Bool :=
  (List.range 25).foldl (fun (x : Option Nat × Bool) _ => (x.1.bind (fun k => (s.job k).parent), x.2 || x.1 = some j)) (some k, false) |>.2

/-- Returns the remainder of a job's lease to the pool (R136). -/
def State.returnLease (s : State) (j : Nat) : State :=
  let b := s.job j
  { s with kiln := { s.kiln with leaseFree := satAdd ((2 ^ 32 - 1) * 1000) s.kiln.leaseFree b.lease } }.setJob j { b with lease := 0 }

/-- Kills one job (R73, R110): a status that is decided stands. -/
def State.killOne (s : State) (j : Nat) : State :=
  if !s.live j then s else
  let status := if (s.job j).st = .stalled ∧ s.accountOf j = some 0 then stQuota else stKilled
  (((s.dropWaits j).dropGraph j).failJob j status 0).returnLease j

/-- Kills a job with its descendants (R108). -/
def State.killJob (s : State) (j : Nat) : State :=
  ((s.jobs.map (·.1)).filter (fun k => s.isAncestor j k)).foldl State.killOne s

/-- Kills every fetched job of a queue that has not retired (R73). -/
def State.killQueue (s : State) (q : Nat) : State := ((s.queueJobs q).foldl State.killJob s).settleEarmarks.refresh

/-! Retirement (R76 to R79). -/

/-- What a write of the Kiln's own came to: made or begun, dropped, dropped for its world, or waiting for a translation. -/
inductive Put
  | done (s : State)
  | dropped (s : State)
  | world (s : State)
  | wait (s : State)

/-- Writes at a virtual address for a job (R76, R78, R86): `op` performs the write at a physical address, if it can. -/
def State.putVa (s : State) (j : Nat) (va : Nat) (op : State → Nat → Option State) : Put :=
  if !canonicalSpan va 8 then .dropped s
  else match s.translate (s.pasidOf j) va true (.load j) with
    | (.ok pa, s) =>
      let bad : Bool := match s.target pa with
        | .loc a => !s.jobSecure j && s.secureAt a
        | _ => false
      if bad then .world (s.pushRecord false (s.jobRec j { code := 338, tval := BitVec.ofNat 64 pa } false))
      else match op s pa with
        | some s => .done s
        | none => .dropped s
    | (.fault _, s) => .dropped s
    | (.deny, s) => .dropped s
    | (.wait, s) => .wait s

/-- An atomic add for a job at a physical address, which for a peer is only begun (R78, R219). -/
def State.ownAdd (s : State) (j pa : Nat) (x : W64) (at? : Option (Nat × Nat)) : Option State :=
  match s.target pa with
  | .loc a =>
    match s.inExpander a with
    | some (_, _, true) => none
    | _ => some { s with mem := (s.mem.atomic a .add 8 x 0 false).1 }
  | .host n a => if (s.hostLink n).sends .add 8 then some (s.emit ((s.hostLink n).atomicOut n a .add x 0 8 false)) else none
  | .peer q a => some (s.ownSend (some j) q a (.atomic .add x 0 false 8) at?)
  | .reg _ => none
  | .none _ => none

/-- The report of a dropped signal or DW15 write (R78). -/
def State.signalDropped (s : State) (j : Nat) (va : W64) : State :=
  s.jobNotice j { code := 57, tval := va, wr := true, pasid := s.pasidOf j }

/-- DW15 (R76). -/
def dw15 (status cause : Nat) : W64 := BitVec.ofNat 64 (inFld 1 63 63 + inFld cause 62 54 + inFld status 15 0)

/-- Writes DW15 of a queued job (R76); a wait for translation is a wait of the retirement. -/
def State.writeStatus (s : State) (j : Nat) : Put :=
  let b := s.job j
  if b.parent.isSome then .done s else
  let va := (s.queue b.queue).slot b.index + 120
  let (st, c) := b.fail.getD (0, 0)
  match s.putVa j va (fun s pa => s.ownWrite (some j) pa (clean (leBytes 8 (dw15 st c).toNat)) (some (s.pasidOf j, va))) with
  | .dropped s => .done (s.signalDropped j (BitVec.ofNat 64 va))
  | r => r

/-- Performs the completion signal of a job (R78). -/
def State.signal (s : State) (j : Nat) : Put :=
  let r := (s.job j).jr
  match r.sigOp with
  | 0 => .done s
  | 2 => s.putVa j r.sigAddr.toNat (fun s pa => s.ownAdd j pa r.sigVal (some (s.pasidOf j, r.sigAddr.toNat)))
  | _ => s.putVa j r.sigAddr.toNat (fun s pa =>
    s.ownWrite (some j) pa (clean (leBytes 8 r.sigVal.toNat)) (some (s.pasidOf j, r.sigAddr.toNat)))

/-- A failure that reaches a parent as its child retires (R79). DESIGN CHOICE, notes/assumptions/65.md -/
def State.passUp (s : State) (p : Nat) (f : Option (Nat × Nat)) : State :=
  match f with
  | some (st, c) =>
    if [stFault, stDepth, stUncorr, stWorld].contains st then s.setJob p { s.job p with fail := (s.job p).fail.or (some (st, c)) }
    else s
  | none => s

/-- A job that is gone: its queue moves on, and a dependent successor of a failure is aborted (R76, R77, R78, R136). -/
def State.retire (s : State) (j : Nat) : State :=
  let b := s.job j
  let s := s.returnLease j
  let s := { s with jobs := Tab.erase s.jobs j, kiln := { s.kiln with failed := Tab.erase s.kiln.failed j } }
  match b.parent with
  | some p => s.passUp p b.fail
  | none =>
    let q := s.queue b.queue
    let s := if q.cfg.getLsbD 17 && (b.jr.irq || b.jr.sigOp = 3) then s.emit (.msix q.link q.fn b.jr.vec) else s
    let st : Nat := (b.fail.map (·.1)).getD 0
    let s := s.settleQueue b.queue { q with retire := q.retire + 1, last := some st }
    if st = 0 then s else
    (s.queueJobs b.queue).foldl (fun s k =>
      if (s.job k).index = b.index + 1 && (s.job k).jr.dep && (s.job k).fail.isNone then s.endJob k stAborted 0 else s) s

/-- Whether every effect of a job has been performed (R78): its stores and atomics, the writes of its copies, and the
requests that ports have taken for it (R55). -/
def State.effectsDone (s : State) (j : Nat) : Bool :=
  s.inflight.all (fun a => a.src.job ≠ some j) && s.ports.all (fun p => p.2.orphans.all (fun o => o.job ≠ j))

/-- Whether no write for a job is on its way to a peer (R77, R78). -/
def State.ownDone (s : State) (j : Nat) : Bool := s.inflight.all (fun a => a.src ≠ .own (some j))

/-- A job whose own write breaks a world retires WORLD, unless a failure has reached it before (R86). -/
def State.worldJob (s : State) (j : Nat) : State :=
  s.setJob j { s.job j with fail := (s.job j).fail.or (some (stWorld, 338)) }

/-- A job that has reached a stage of its retirement: it goes on once no write of its own is on its way to a peer (R77, R78). -/
def State.stage (s : State) (j n : Nat) (go : State → State) : State :=
  let s := s.setJob j { s.job j with retStage := n }
  if s.ownDone j then go s else s

/-- The signal of a job whose DW15 has been written or dropped, and its retirement (R76 to R78). -/
def State.signalOut (s : State) (j : Nat) : State :=
  match s.signal j with
  | .done s => s.stage j 2 (fun s => s.retire j)
  | .dropped s => (s.signalDropped j (s.job j).jr.sigAddr).retire j
  | .world s => (s.worldJob j).retire j
  | .wait s => s

/-- DW15 of a job and what follows it (R76, R77). A signal that will break a world is seen before, so that DW15 says WORLD. -/
def State.statusOut (s : State) (j : Nat) : State :=
  let s := match s.signal j with
    | .world _ => s.worldJob j
    | _ => s
  match s.writeStatus j with
  | .world s => (s.worldJob j).stage j 1 (fun s => s.signalOut j)
  | .done s => s.stage j 1 (fun s => s.signalOut j)
  | .dropped s => s
  | .wait s => s

/-- The next stage of a retirement: DW15, the signal, or the end. -/
def State.retireStep (s : State) (j : Nat) : State :=
  match (s.job j).retStage with
  | 0 => match s.signal j with
    | .wait s => s
    | _ => s.statusOut j
  | 1 => s.signalOut j
  | _ => s.retire j

/-- JOB_RETIRE (R76 to R79). -/
def execJobRetire (job : Nat) (s : State) : Res :=
  let b := s.job job
  let first := b.parent.isSome || (s.queueJobs b.queue).all (fun k => decide (job ≤ k))
  if (Tab.find s.jobs job).isNone || !b.st.over || s.children job ≠ [] || !first || !s.effectsDone job || !s.ownDone job then
    disabled "JOB_RETIRE"
  else
    let s' := s.retireStep job
    orWait "JOB_RETIRE" s (if (Tab.find s'.jobs job).isNone then s'.refresh else s')

/-! Dispatch decisions (R91 to R95, R111, R112). -/

/-- Whether an end of a graph, a quench completion or a retirement is before the Kiln, which takes them before a decision (R111).
DEDUCED, notes/assumptions/66.md -/
def State.kilnPending (s : State) : Bool :=
  s.graphs.any (fun e => !Res.off (execGraphEnd e.1 s) || !Res.off (execQuenchComplete e.1 s)) ||
    s.jobs.any (fun e => !Res.off (execJobRetire e.1 s))

/-- DISPATCH_DECISION (R92, R93, R95, R111, R112). -/
def execDispatchDecision (s : State) : Res :=
  if s.kiln.halt || s.board.fwstate = 5 || !s.board.ready || s.kilnPending then disabled "DISPATCH_DECISION"
  else
    let s' := s.settleEarmarks.refresh
    orWait "DISPATCH_DECISION" s (if s'.candidates = [] then s' else s'.decide1.refresh)

end Sys2Proof.Machine
end

