-- ==== Sys2Proof/Machine/Peers.lean ====
section
/-! DEFINITION. Hosts and peers: BAR2 (R208, R303), inbound and outbound UALink requests with their budgets, timers and
isolation (R21 to R33), links (R18, R19, R23, R61), and domain all-reduce (R34 to R36). -/

namespace Sys2Proof.Machine

/-! BAR2 (R86, R208, R303). -/

/-- Whether a host link serves BAR0 and BAR2 (R59, R208). -/
def State.hostServes (s : State) (link : Nat) : Bool := decide (link < 4) && s.hostUp link

/-! Inbound requests (R21, R22, R27, R29, R86, R303). -/

/-- Counts a refused request (R27, R29). -/
def State.countRefused (s : State) (q : Nat) : State :=
  s.setPeer q { s.peer q with busy := satAdd 1023 (s.peer q).busy 1 }

/-- A request that is answered at once with an error or target-busy, if it is (R27, R29). -/
def State.refused (s : State) (q : Nat) : Option State :=
  let p := s.peer q
  match p.st with
  | .isolated => some (s.emit (.peerReply q [] false true false))
  | .disabled => some ((s.countRefused q).emit (.peerReply q [] false true false))
  | .active => if p.ibudget ≤ p.icount then some ((s.countRefused q).emit (.peerReply q [] false true true)) else none

/-- One access of a peer's request: address, length and what it does. -/
structure InPart where
  addr : Nat
  len : Nat
  kind : AKind

/-- The ports that are enabled and trained (R23). -/
def State.usablePorts (s : State) : List Nat :=
  (List.range 48).filter (fun n => (s.linkPort n).en && decide ((s.linkPort n).lanes ≠ 0) && decide ((s.linkPort n).rate ≠ 0))

/-- The port of a pair (R23). -/
def State.portOf (s : State) (q cls : Nat) : Option Nat :=
  let ps := s.usablePorts
  ps[Config.pairHash q cls % ps.length]?

/-- The link ports once one has cached the translation that came with a request of a peer, if one did (R25). DEDUCED,
notes/assumptions/84.md -/
def State.sharedIn (s : State) (q cls addr : Nat) : Tab LinkPort :=
  match Config.preTranslated q addr, s.portOf q cls with
  | some (pasid, va, sh, pa), some n =>
    let e : TlbEntry := { node := linkTile n, pasid := pasid, va := va, sh := sh, tgt := pa, w := true }
    Tab.set s.linkPorts n { s.linkPort n with pre := (s.linkPort n).pre.filter (· ≠ e) ++ [e] }
  | _, _ => s.linkPorts

/-- Takes a request of a peer, or of a host's BAR2: its accesses travel to their owning ports (R21, R22, R208, R219). A request that
touches the register window reaches a register only whole and naturally aligned (R59). -/
def State.takeInbound (s : State) (q cls addr n : Nat) (read : Bool) (ps : List InPart) (after : List Nat) : State :=
  let (id, s) := s.newId
  let (nps, s) := State.number ps s
  let grp := (nps.map (·.1)).headD 0
  let whole := regAligned addr n && decide (ps.length = 1)
  let tgt := fun (x : InPart) => match s.lowTarget x.addr with
    | .reg off => if whole then Target.reg off else .reg 0x7FFFF8
    | t => t
  let shared := if q < 4096 then Config.preTranslated q addr else none
  let s := if q < 4096 then { s with linkPorts := s.sharedIn q cls addr }.setPeer q { s.peer q with icount := (s.peer q).icount + 1 } else s
  let r : InReq := { id := id, peer := q, addr := addr, read := read, parts := nps.map (fun e => (e.1, e.2.len, none)) }
  let s := { s with
    inreqs := s.inreqs ++ [r],
    inflight := s.inflight ++ nps.map (fun (e : Nat × InPart) =>
      ({ id := e.1, grp := grp, src := .inbound q id, cls := cls, kind := e.2.kind, tgt := tgt e.2, after := after,
         node := shared.bind (fun _ => (s.portOf q cls).map linkTile), pasid := (shared.map (·.1)).getD 0,
         va := (shared.map (fun x => x.2.1 + (e.2.addr - x.2.2.2))).getD e.2.addr } : Access)) }
  if ps = [] then s.answer id else s

/-- HOST_BAR2_READ (R19, R86, R208, R209, R303): its granules are performed each by itself. One of more than 4096 bytes is an option that
the links do not have. -/
def execHostBar2Read (link off n : Nat) (s : State) : Res :=
  if !s.hostServes link || n = 0 || 2 ^ 42 < off + n then disabled "HOST_BAR2_READ"
  else if 4096 < n then .next (s.emit (.unsupported link))
  else .next (s.takeInbound (4096 + link) 0 off n true ((pieces (n + 1) off n).map (fun p => { addr := p.1, len := p.2, kind := .load p.2 })) [])

/-- HOST_BAR2_WRITE (R19, R49, R208, R209, R303): a payload of at most 512 bytes. -/
def execHostBar2Write (link off : Nat) (data : List Byte) (poison : Bool) (s : State) : Res :=
  let n := data.length
  let bs := marked poison data
  if !s.hostServes link || n = 0 || 2 ^ 42 < off + n then disabled "HOST_BAR2_WRITE"
  else if 512 < n then .next (s.emit (.unsupported link))
  else .next (s.takeInbound (4096 + link) 0 off n false
    ((pieces (n + 1) off n).map (fun p => { addr := p.1, len := 0, kind := .store ((bs.drop (p.1 - off)).take p.2) })) [])

/-- Whether a request keeps to one naturally aligned 256-byte block of the peer window (R21, R206). -/
def blockOk (q addr n cls : Nat) : Bool :=
  decide (q < 4096) && decide (cls < 16) && decide (1 ≤ n) && decide (addr % 256 + n ≤ 256) && decide (addr + n ≤ 2 ^ 42)

/-- An inbound request: refused at once, or taken. -/
def State.inbound (s : State) (q : Nat) (go : State) : Res := .next ((s.refused q).getD go)

/-- PEER_INBOUND_READ (R21, R27, R29). DEDUCED, notes/assumptions/54.md -/
def execPeerInboundRead (peer addr n cls : Nat) (s : State) : Res :=
  if !blockOk peer addr n cls then disabled "PEER_INBOUND_READ"
  else s.inbound peer (s.takeInbound peer cls addr n true
    ((pieces (n + 1) addr n).map (fun p => { addr := p.1, len := p.2, kind := .load p.2 })) [])

/-- The runs of enabled bytes of a masked write within granules: each with its address. -/
def runs : Nat → List (Option Byte) → List (Nat × List Byte)
  | _, [] => []
  | _, [none] => []
  | a, [some b] => [(a, [b])]
  | a, none :: t => runs (a + 1) t
  | a, some b :: c :: t =>
    match runs (a + 1) (c :: t) with
    | (x, bs) :: l => if c.isSome && x = a + 1 && decide ((a + 1) % 8 ≠ 0) then (a, b :: bs) :: l else (a, [b]) :: (x, bs) :: l
    | [] => [(a, [b])]

/-- PEER_INBOUND_WRITE (R21, R27, R29, R49, R303). -/
def execPeerInboundWrite (peer addr cls : Nat) (data : List (Option Byte)) (poison : Bool) (s : State) : Res :=
  if !blockOk peer addr data.length cls then disabled "PEER_INBOUND_WRITE"
  else s.inbound peer (s.takeInbound peer cls addr data.length false
    ((runs addr data).map (fun r => { addr := r.1, len := 0, kind := .store (marked poison r.2) })) [])

/-- PEER_INBOUND_ATOMIC (R21, R27, R29, R219, R220). -/
def execPeerInboundAtomic (peer addr cls : Nat) (op : AtomOp) (data cmp : W64) (poison : Bool) (s : State) : Res :=
  if !blockOk peer addr 8 cls || addr % 8 ≠ 0 then disabled "PEER_INBOUND_ATOMIC"
  else s.inbound peer (s.takeInbound peer cls addr 8 true
    [{ addr := addr, len := 8, kind := .atomic op data cmp poison 8 }] [])

/-- PEER_DOMAIN_FENCE (R21, R27): it completes after the earlier requests of its classes from the peer. -/
def execPeerDomainFence (peer mask : Nat) (s : State) : Res :=
  if 4096 ≤ peer || mask = 0 || 65536 ≤ mask then disabled "PEER_DOMAIN_FENCE"
  else
    let before := s.inflight.filter (fun a => mask.testBit a.cls && (match a.src with
      | .inbound q _ => q = peer
      | _ => false))
    s.inbound peer (s.takeInbound peer 16 0x180000000000 8 false
      [{ addr := 0x180000000000, len := 0, kind := .fence mask }] (before.map (·.id)))

/-! Outbound requests (R21 to R29). -/

/-- The accesses of a request. -/
def State.accsOf (s : State) (o : OutReq) : List Access := s.inflight.filter (fun a => o.accs.contains a.id)

/-- Whether an access is on its way to a peer in a request of a pair that keeps its order (R22, R24). -/
def State.sentOn (s : State) (q cls : Nat) (a : Access) : Bool :=
  s.outreqs.any (fun o => o.sent && o.peer = q && o.cls = cls && o.accs.contains a.id)

/-- Whether a peer's requests of one pair stay in order on their way (R24). -/
def Peer.inOrder (p : Peer) : Bool := p.fewin || p.ordpath

/-- Whether the accesses before a request let it go (R22, R24, R211, R218): an earlier one has been performed, or, to the same
peer in the same class, has been sent before it where order is kept; a read is never held back behind a read. -/
def State.orderOk (s : State) (o : OutReq) : Bool :=
  let p := s.peer o.peer
  let ok := fun (a x : Access) => !x.holds a || (!o.fence && p.inOrder && s.sentOn o.peer o.cls x)
  let pair := (s.outreqs.takeWhile (fun x => x.id ≠ o.id)).filter (fun x => x.peer = o.peer &&
    (x.cls = o.cls || (o.fence && (s.accsOf o).any (fun a => match a.kind with
      | .fence m => m.testBit x.cls
      | _ => false))))
  (s.accsOf o).all (fun a => (s.ahead a.id).all (ok a) && s.inflight.all (fun x => !a.after.contains x.id)) &&
    pair.all (fun x => if p.inOrder then x.sent else (x.read && o.read))

/-- What one request does (R21). -/
def State.requestKind (s : State) (o : OutReq) : AKind :=
  let as := s.accsOf o
  match as.map (·.kind) with
  | [k] => k
  | ks => if o.read then .load (ks.map AKind.retBytes).sum else
    .store (ks.flatMap (fun k => match k with
      | .store bs => bs
      | _ => []))

/-- The address of a peer window (R206). -/
def peerWindow (q addr : Nat) : Nat := 0x40000000000000 + q * 0x40000000000 + addr

/-- The offset of a request in its peer's window. -/
def State.requestAddr (s : State) (o : OutReq) : Nat :=
  match (s.accsOf o).map (fun (x : Access) => x.tgt) with
  | Target.peer _ a :: _ => a
  | _ => 0

/-- A request with dross toward a peer that takes none: a write is dropped whole, an atomic completes with error, with PEERWRITE
(R303, R412). -/
def State.withheld (s : State) (o : OutReq) : State :=
  (s.accsOf o).foldl (fun s a => match a.kind with
    | .store _ => s.finish a []
    | _ => s.finishError a)
    (match (s.accsOf o).find? Access.dross with
      | some a => s.accessNotice a 195 (peerWindow o.peer (s.requestAddr o))
      | none => s)

/-- OUTBOUND_REQUEST_SEND (R21 to R26, R303). -/
def execOutboundRequestSend (id : Nat) (s : State) : Res :=
  match s.outreqs.find? (fun o => o.id = id && !o.sent) with
  | none => disabled "OUTBOUND_REQUEST_SEND"
  | some o =>
    let p := s.peer o.peer
    if p.st ≠ .active || p.obudget ≤ p.ocount || !s.orderOk o then disabled "OUTBOUND_REQUEST_SEND"
    else if (s.accsOf o).any Access.dross && !p.poison then .next (s.withheld o)
    else match s.portOf o.peer o.cls with
      | none => disabled "OUTBOUND_REQUEST_SEND"
      | some n =>
        if s.outreqs.any (fun x => x.sent && x.peer = o.peer && x.cls = o.cls && x.port ≠ n) then disabled "OUTBOUND_REQUEST_SEND"
        else
          let s := s.emit (.peerReq o.peer n o.cls (s.requestAddr o) (s.requestKind o))
          let s := s.setPeer o.peer { p with ocount := p.ocount + 1 }
          .next { s with outreqs := s.outreqs.map (fun (x : OutReq) =>
            if x.id = id then { x with sent := true, port := n, epoch := p.epoch } else x) }

/-- Hands the bytes of a response to the accesses of its request. -/
def State.deliver (s : State) (poison : Bool) : List Access → List Byte → State
  | [], _ => s
  | a :: t, data =>
    let n := a.kind.retBytes
    let bs := if poison || data.length < n then drossBytes n else clean (data.take n)
    State.deliver (s.finish a bs) poison t (data.drop n)

/-- PEER_RESPONSE (R26, R28, R29): one that carries an old EPOCH, or finds its request gone, is discarded. -/
def execPeerResponse (id epoch : Nat) (data : List Byte) (poison error : Bool) (s : State) : Res :=
  match s.outreqs.find? (fun o => o.id = id && o.sent) with
  | none => .next s
  | some o =>
    if o.epoch ≠ epoch then .next s
    else
      let as := s.accsOf o
      let s := s.setPeer o.peer { s.peer o.peer with ocount := (s.peer o.peer).ocount - 1 }
      let s := { s with outreqs := s.outreqs.filter (·.id ≠ id) }
      .next (if error then as.foldl State.finishError s else State.deliver s poison as data)

/-- Completes every outstanding request to a peer with error status (R28 step 3, R30). -/
def State.failRequests (s : State) (q : Nat) : State :=
  let mine := s.outreqs.filter (fun o => o.peer = q)
  let as := mine.flatMap s.accsOf
  (as.foldl State.finishError { s with outreqs := s.outreqs.filter (fun o => o.peer ≠ q) }).setPeer q { s.peer q with ocount := 0 }

/-- REQUEST_EXPIRE (R28, R35): the first expiry isolates the peer. -/
def execRequestExpire (id : Nat) (s : State) : Res :=
  match s.outreqs.find? (fun o => o.id = id && o.sent) with
  | none => disabled "REQUEST_EXPIRE"
  | some o =>
    if (s.peer o.peer).st ≠ .active then disabled "REQUEST_EXPIRE"
    else
      let p := s.peer o.peer
      let s := (s.setPeer o.peer { p with st := .isolated, epoch := (p.epoch + 1) % 256 }).failRequests o.peer
      .next (s.notice false 193 (BitVec.ofNat 64 o.peer))

/-! Links (R18, R19, R23, R61). -/

/-- LINKDOWN (R23, R283). -/
def execLinkdown (l : LinkId) (s : State) : Res :=
  match l with
  | .ual n =>
    let p := s.linkPort n
    if p.lanes = 0 then disabled "LINKDOWN"
    else .next ((s.setLinkPort n { p with lanes := 0, rate := 0 }).notice false 198 (BitVec.ofNat 64 n))
  | .host n =>
    let h := s.hostLink n
    if h.rate = 0 then disabled "LINKDOWN"
    else .next ((s.setHostLink n { h with lanes := 0, rate := 0 }).notice false 198 (BitVec.ofNat 64 n))

/-- Whether a host link has lost the lanes of a spent host port (R302). -/
def State.linkNarrow (s : State) (n : Nat) : Bool := (List.range 4).any (fun k => (s.block (portBlock (64 * n + 30 + k))).spent)

/-- LINK_TRAINED (R18, R19, R23, R31, R302): an enabled port trains, a host link with a spent host port at x8 or narrower. On a host link `atomics` and `ats` are the enables of its
physical function as host software has set them. DEDUCED, notes/assumptions/40.md -/
def execLinkTrained (l : LinkId) (lanes rate : Nat) (atomics ats : Bool) (s : State) : Res :=
  match l with
  | .ual n =>
    let p := s.linkPort n
    if !p.en || s.board.held || 48 ≤ n || lanes = 0 || 4 < lanes || rate = 0 || 3 < rate then disabled "LINK_TRAINED"
    else .next (s.setLinkPort n { p with lanes := lanes, rate := rate })
  | .host n =>
    if s.board.held || 4 ≤ n || !([1, 2, 4, 8, 16].contains lanes) || (s.linkNarrow n && decide (8 < lanes)) || rate = 0 || 6 < rate then disabled "LINK_TRAINED"
    else .next (s.setHostLink n { s.hostLink n with lanes := lanes, rate := rate, atomicEn := atomics, ats := ats })

/-! Domain all-reduce (R35, R36). -/

/-- The bytes of tokens, each with its token's dross. -/
def tokenBytes (ts : List Token) : Bytes :=
  ts.flatMap (fun t => (List.range 64).map (fun j => (laneOf t.data j, t.dross)))

/-- The elements of a contribution: codes, each with its dross. -/
def elements : Nat → Nat → Bytes → List (Nat × Bool)
  | 0, _, _ => []
  | n + 1, size, bs => (leNat ((bs.take size).map (·.1)), anyDross (bs.take size)) :: elements n size (bs.drop size)

/-- The tokens that a contribution takes from the head of a channel, up to `n` that are not null (R36): how many go, and those that
are not null. -/
def gather : Nat → List Token → Nat × List Token
  | _, [] => (0, [])
  | n, t :: l =>
    if t.null then let r := gather n l; (r.1 + 1, r.2)
    else match n with
      | 0 => (0, [])
      | n + 1 => let r := gather n l; (r.1 + 1, t :: r.2)

/-- REDUCE_CONTRIBUTION (R36): the stream takes tokens as they come, nulls alone too, and sends a contribution that is complete. -/
def execReduceContribution (job stream : Nat) (s : State) : Res :=
  let g := s.graph job
  let st := g.stream stream
  let (n, ts) := gather (st.contribution - st.got.length) (g.chan st.chan).buf
  if !s.hasGraph job || g.phase ≠ .resident || g.quench.isSome || st.kind ≠ .reduce || st.ended || n = 0 then
    disabled "REDUCE_CONTRIBUTION"
  else
    let got := st.got ++ ts
    let g := g.consume st.chan n
    if got.length < st.contribution then .next (s.setGraph job ((g.setStream stream { st with got := got }).endStream stream))
    else
      let own := (tokenBytes got).take (st.count.headD 0 * 2 ^ (st.mode + 1))
      let g := g.setStream stream { st with got := [], next := st.next + 1, ops := st.ops ++ [{ idx := st.next, own := own }] }
      .next ((s.setGraph job g).emit (.reduceSend ((st.stride.headD 0) % 2 ^ 32).toNat st.next own))

/-- The combination of one element's codes, in ascending order of domain accelerator number (R35, R36). -/
def reduceCombine (op size : Nat) (cs : List Nat) : Nat :=
  let n := 8 * size
  let first := cs.headD 0
  let rest := cs.drop 1
  match op with
  | 0 => cs.foldl (fun a b => (a + b) % 2 ^ n) 0
  | 1 => rest.foldl (fun a b => if sgn n a ≤ sgn n b then a else b) first
  | 2 => rest.foldl (fun a b => if sgn n a ≤ sgn n b then b else a) first
  | 3 => rest.foldl min first
  | 4 => rest.foldl max first
  | 5 => rest.foldl (· &&& ·) first
  | 6 => rest.foldl (· ||| ·) first
  | 7 => rest.foldl (· ^^^ ·) first
  | 8 => ((cs.foldl (fun g c => g.add (fp32.decode c) false) ({} : Ingot)).readOut 0 false 0).code
  | 9 => rest.foldl (fp32.minmax false) first
  | 10 => rest.foldl (fp32.minmax true) first
  | _ =>
    let f := (ffmt 6).getD fp32
    rest.foldl (fun a b => (f.ofXV 0 false 0 (sumX 0 [f.decode a, f.decode b]).1).code) first

/-- The result of an operation: elements, each with its dross; every one has dross where a contribution is lost (R35). -/
def reduceAll (op size count : Nat) (lost : Bool) (all : List (Nat × Bytes)) : Bytes :=
  let ms := (all.map (fun m => (m.1, elements count size m.2)))
  let ordered := (List.range 4096).filterMap (fun q => (ms.find? (fun m => m.1 = q)).map (·.2))
  (List.range count).flatMap (fun i =>
    let es := ordered.map (fun l => l.getD i (0, false))
    marked (lost || es.any (·.2)) (leBytes size (reduceCombine op size (es.map (·.1)))))

/-- Result tokens into the channels of a stream, while there is room: what enters, and what stays. -/
def Graph.deliver (g : Graph) (n : Nat) : List Token → Graph × List Token
  | [] => (g, [])
  | t :: l => if g.roomFor n then (g.emitToken n t).deliver n l else (g, t :: l)

/-- A reduction stream with result tokens on their way to its channel; it ends once it has no more to do (R36). -/
def Graph.giveResults (g : Graph) (n : Nat) (l : List Token) : Graph :=
  let (g, l) := g.deliver n l
  (g.setStream n { g.stream n with results := l }).endStream n

/-- REDUCE_RESULT (R35, R36): the oldest operation completes once every other member has contributed or is isolated; `others`
gives their contributions, and its tokens enter the result channel as there is room. Tokens that have waited for room enter first,
with no contribution given. -/
def execReduceResult (job stream : Nat) (others : List (Nat × List (Byte × Bool))) (s : State) : Res :=
  let g := s.graph job
  let st := g.stream stream
  let size := 2 ^ (st.mode + 1)
  let count := st.count.headD 0
  let rest' := st.members.filter (fun q => q ≠ s.board.domid && !others.any (fun m => m.1 = q))
  if !s.hasGraph job || g.phase = .saved || st.kind ≠ .reduce then disabled "REDUCE_RESULT"
  else if st.results ≠ [] then
    (if others ≠ [] || !g.roomFor stream then disabled "REDUCE_RESULT" else .next (s.setGraph job (g.giveResults stream st.results)))
  else match st.ops with
  | [] => disabled "REDUCE_RESULT"
  | o :: ops =>
    if !(rest'.all (fun q => (s.peer q).st = .isolated)) ||
        !(others.all (fun m => st.members.contains m.1 && m.1 ≠ s.board.domid && m.2.length = size * count)) then
      disabled "REDUCE_RESULT"
    else
      let bs := reduceAll st.op size count (rest' ≠ []) ((s.board.domid, o.own) :: others)
      let toks := (List.range st.contribution).map (fun i => tokenRead ((bs.drop (64 * i)).take 64))
      .next (s.setGraph job ((g.setStream stream { st with ops := ops }).giveResults stream toks))

end Sys2Proof.Machine
end

