-- ==== Sys2Proof/Machine/Trans.lean ====
section
/-! DEFINITION. The service of translation tickets (R230, R232), fluxes (R240 to R243) and ATS (R233). -/

namespace Sys2Proof.Machine

/-! Tickets (R230). -/

/-- Lets a firing's access, or the firing of an actor, go on (R230, R232). -/
def State.freeFiring (s : State) (n j aid : Nat) (page : Option Nat) : State :=
  if !s.hasGraph j then s else
  let a := s.actor j aid
  let s := if a.held.any (·.2 = n) then s.setActor j aid { a with held := a.held.filter (·.2 ≠ n) } else s
  match s.firingOf j aid with
  | some (t, f) =>
    if f.ticket = some n then s.setFiring t { f with ticket := none, again := none, failed := f.failed ++ page.toList } else s
  | none => s

/-- Lets the access of a copy go on. -/
def State.freeEngine (s : State) (n p : Nat) (page : Option Nat) : State :=
  match (s.port p).eng.copy with
  | some c => if c.ticket = some n then s.setCopy p { c with ticket := none, again := none, failed := c.failed ++ page.toList } else s
  | none => s

/-- The tag of a requester. -/
def State.tag? (s : State) (p r tag : Nat) : Option (Nat × TagEntry) :=
  (Tab.find (s.port p).reqs r).bind (fun q => (q.tags.find? (fun t => t.tag = tag)).map (fun t => (q.job, t)))

/-- An access that has waited walks again (R230): the ticket that it joins anew, if it still faults and there is one. -/
def State.walkAgain (s : State) (j : Nat) (x : Option (Nat × Bool)) (who : Waiter) : Option Nat × State :=
  match x with
  | none => (none, s)
  | some (va, w) =>
    match s.translate (s.pasidOf j) va w who with
    | (.fault code, s) => match s.joinTicket j (s.pasidOf j) va code w who with
      | some (m, s) => (some m, s)
      | none => (none, s)
    | (.ok _, s) => (none, s)
    | _ => (none, s)

/-- The waiting access of a firing that cannot be replayed walks again (R230, R232). -/
def State.retryFiring (n : Nat) (s : State) (j aid : Nat) : State :=
  match s.firingOf j aid with
  | some (_, f) =>
    if f.ticket ≠ some n then s else
    match s.walkAgain j f.again (.firing j aid none) with
    | (some m, s) => match s.firingOf j aid with
      | some (t, f) => s.setFiring t { f with ticket := some m }
      | none => s
    | (none, s) => s.freeFiring n j aid none
  | none => s

/-- The waiting access of a copy walks again (R230). -/
def State.retryEngine (n : Nat) (s : State) (p : Nat) : State :=
  match (s.port p).eng.copy with
  | some c =>
    if c.ticket ≠ some n then s else
    match s.walkAgain c.job c.again (.engine p) with
    | (some m, s) => s.setCopy p { c with ticket := some m }
    | (none, s) => s.freeEngine n p none
  | none => s

/-- Where the read of a job's image, arguments or member bitmaps begins in a page. -/
def State.readStart (s : State) (w : Waiter) (page : Nat) : Nat :=
  let starts : List Nat := match w with
    | .verify j => [(s.job j).jr.image.toNat]
    | .load j => (s.job j).jr.args.toNat ::
      ((s.graph j).streams.filter (fun (e : Nat × Stream) => e.2.kind = .reduce)).map (fun (e : Nat × Stream) => e.2.base)
    | _ => []
  (starts.find? (fun a => a / 4096 = page)).getD (4096 * page)

/-- The read of a job walks again, and joins a ticket anew if its page still faults (R230). -/
def State.retryRead (s : State) (j page : Nat) (w : Waiter) : State :=
  if (Tab.find s.jobs j).isNone then s else
  let va := s.readStart w page
  match s.translate (s.pasidOf j) va false w with
  | (.fault code, s) => ((s.joinTicket j (s.pasidOf j) va code false w).map (·.2)).getD s
  | (_, s) => s

/-- One access that is joined to a ticket walks again (R230, R237); a firing that has aborted is fired again (R232). -/
def State.retryWaiter (n page : Nat) (s : State) (w : Waiter) : State :=
  match w with
  | .firing j aid (some _) => s.freeFiring n j aid none
  | .firing j aid none => s.retryFiring n j aid
  | .engine p => s.retryEngine n p
  | .elem j st i => if s.hasGraph j then s.rewalk j st i else s
  | .req p r tag =>
    match s.tag? p r tag with
    | some (j, t) => if t.ticket = some n then (s.modTag p r tag (fun x => { x with ticket := none })).walkTag p r j { t with ticket := none } else s
    | none => s
  | .load j => s.retryRead j page w
  | .verify j => s.retryRead j page w
  | .ring _ => s

/-- TRSVC with FAIL = 0 (R230, R243): the joined accesses walk again, in join order. -/
def State.retryTicket (s : State) (n : Nat) : State :=
  match Tab.find s.tickets n with
  | some t => t.waiters.foldl (State.retryWaiter n t.page) { s with tickets := Tab.erase s.tickets n }
  | none => s

/-- A page that a job's reads will find failed (R75, R81). -/
def State.failPage (s : State) (j page code : Nat) : State :=
  { s with jobs := Tab.modify s.jobs j (fun b => { b with failedPages := b.failedPages ++ [(page, code)] }) }

/-- One access that is joined to a failed ticket (R206, R230, R232). -/
def State.failWaiter (n : Nat) (t : Ticket) (s : State) (w : Waiter) : State :=
  match w with
  | .firing j aid (some c) =>
    if !s.hasGraph j || !(s.actor j aid).held.any (·.2 = n) then s
    else
      let s := s.freeFiring n j aid none
      if c.code = 101 then s.abortGraph j stFault c else s.postCause (s.actor j aid).tile j c
  | .firing j aid none => s.freeFiring n j aid (some t.page)
  | .engine p => s.freeEngine n p (some t.page)
  | .elem j k i =>
    if !s.hasGraph j then s else
    let g := s.graph j
    let st := g.stream k
    match st.window.find? (fun e => e.idx = i && e.spilled) with
    | some e => (s.setGraph j (g.setStream k (st.putElem i (some { e with failed := e.failed ++ [t.page] })))).rewalk j k i
    | none => s
  | .req p r tag =>
    match s.tag? p r tag with
    | some (_, x) =>
      if x.ticket = some n then s.modTag p r tag (fun y => { y with ticket := none, bad := some 2 }) else s
    | none => s
  | .load j => s.failPage j t.page t.kind
  | .verify j => s.failPage j t.page t.kind
  | .ring _ => s

/-- The streams with an element joined to a ticket, each with the address of the first such element (R206). -/
def State.failedStreams (s : State) (t : Ticket) : List (Nat × Nat × Nat) :=
  let es := t.waiters.filterMap (fun w => match w with
    | .elem j k i =>
      if s.hasGraph j then (((s.graph j).stream k).window.find? (fun e => e.idx = i && e.spilled)).map (fun e => (j, k, e))
      else none
    | _ => none)
  let ks := (es.map (fun x => (x.1, x.2.1))).dedup
  ks.filterMap (fun k =>
    let mine := es.filter (fun x => (x.1, x.2.1) = k)
    (mine.find? (fun x => mine.all (fun y => decide (x.2.2.idx ≤ y.2.2.idx)))).map (fun x => (k.1, k.2, x.2.2.va)))

/-- TRSVC with FAIL = 1 (R230): each stream with a joined element makes one notice (R206). -/
def State.failTicket (s : State) (n : Nat) : State :=
  match Tab.find s.tickets n with
  | some t =>
    let ks := s.failedStreams t
    let s := ks.foldl (fun s k => s.jobNotice k.1 { code := 56, tval := BitVec.ofNat 64 k.2.2, wr := ((s.graph k.1).stream k.2.1).writes,
                                                    pasid := s.pasidOf k.1 }) s
    t.waiters.foldl (State.failWaiter n t) { s with tickets := Tab.erase s.tickets n }
  | none => s

/-- A write of TRSVC (R230, R248). -/
def State.serviceTicket (s : State) (secure : Bool) (v : W64) : State :=
  let n := fld v 9 0
  match Tab.find s.tickets n with
  | none => { s with board := { s.board with svcDrop := true } }
  | some t =>
    if t.world && !secure then s
    else if v.getLsbD 16 then s.failTicket n else s.retryTicket n

/-! Fluxes (R240 to R243). -/

/-- A write of TRINVC on the whole value (R240, R243, R247): what is ignored while a flux is in progress is the start alone, and a write
with SCOPE 3 sets nothing at all. DESIGN CHOICE, notes/assumptions/89.md -/
def State.startFlux (s : State) (v : W64) : State :=
  let b := s.board
  if fld v 30 29 = 3 then s else
  let s := { s with board := { b with invScope := fld v 30 29, invPasid := fld v 19 0 } }
  if !v.getLsbD 31 then s
  else if s.flux.isSome then { s with board := { s.board with invDrop := true } }
  else
    let sh := pageSh (fld b.trinva 3 0)
    let va := extendVa (4096 * fld b.trinva 56 12)
    { s with flux := some { scope := fld v 30 29, pasid := fld v 19 0, va := va - va % 2 ^ sh, sh := sh, left := List.range 256 } }

/-- Whether an access that a node translated in the range of a flux is still to be performed (R241): it travels, the Kiln's own and those
of the domain among them, or a firing holds it for its commit, or it is an element of a stream, a request of a port or a read of the Kiln's own. -/
def State.follows (s : State) (x : Flux) (p : Nat) : Bool :=
  let at? := fun (pasid va n : Nat) => sliceOf pasid va = p && x.meets pasid va n
  s.inflight.any (fun a => a.node = some p && x.meets a.pasid a.va a.kind.len) ||
  s.tiles.any (fun t => t.2.firing.any (fun f =>
    f.cbuf.any (fun c => match c with
      | .store .glob a _ _ _ bs _ => at? (s.pasidOf f.job) a bs.length
      | .atomic a _ _ _ _ _ _ => at? (s.pasidOf f.job) a 8
      | _ => false) ||
    f.eff6.any (fun e => match e with
      | .kickReg va _ _ _ _ => at? (s.pasidOf f.job) va 64
      | _ => false))) ||
  s.graphs.any (fun g => g.2.streams.any (fun st => st.2.window.any (fun e => match e.st with
    | .issued _ => e.nodes.contains p && x.meets (s.pasidOf g.1) e.va e.len
    | _ => false))) ||
  s.ports.any (fun q => q.2.reqs.any (fun r => r.2.tags.any (fun t =>
    t.tgt.isSome && t.reply.isNone && at? (s.pasidOf r.2.job) t.addr 64)))

/-- A stream without a latched entry in the range of a flux (R241, R242). -/
def Stream.unlatch (st : Stream) (x : Flux) (p : Nat) : Stream :=
  if st.port = p then { st with latched := st.latched.filter (fun e => !x.covers e.pasid e.va e.sh) } else st

/-- FLUX_EMERGE (R241, R242): the node has dropped its translations in the range, those of saved streams included, a walk in
progress is made again, and every access that it translated there has been performed. -/
def execFluxEmerge (m : MarkFlit) (s : State) : Res :=
  let port := m.n
  match s.flux with
  | none => disabled "FLUX_EMERGE"
  | some x =>
    if !x.left.contains port || s.follows x port then disabled "FLUX_EMERGE"
    else match s.takeMark (portBlock port) 0 { kind := 3 } m.flit with
    | none => disabled "FLUX_EMERGE"
    | some s =>
      let s := { s with
        linkPorts := s.linkPorts.map (fun (e : Nat × LinkPort) => (e.1,
          if linkTile e.1 = port then { e.2 with pre := e.2.pre.filter (fun x' => !x.covers x'.pasid x'.va x'.sh) } else e.2)),
        tlb := s.tlb.filter (fun e => e.node ≠ port || !x.covers e.pasid e.va e.sh),
        ats := s.ats.filter (fun r => sliceOf r.pasid (4096 * r.page) ≠ port || !x.covers r.pasid (4096 * r.page) 12),
        graphs := s.graphs.map (fun (g : Nat × Graph) =>
          (g.1, { g.2 with streams := g.2.streams.map (fun (st : Nat × Stream) => (st.1, st.2.unlatch x port)) })) }
      let left := x.left.filter (· ≠ port)
      if left = [] then
        let s := { s with flux := none }
        .next (match x.ats with
          | some n => s.emit (.atsDone n)
          | none => s)
      else .next { s with flux := some { x with left := left } }

/-! ATS (R233). -/

/-- ATS_INVALIDATE (R233): a flux over 2^`size` bytes; it waits while another flux is in progress. -/
def execAtsInvalidate (link pasid : Nat) (va : W64) (size : Nat) (s : State) : Res :=
  if s.flux.isSome || !(s.hostLink link).ats || size < 12 then disabled "ATS_INVALIDATE"
  else .next { s with flux := some { scope := 0, pasid := pasid, va := va.toNat - va.toNat % 2 ^ size, sh := size,
                                     left := List.range 256, ats := some link } }

/-- ATS_TRANSLATION_RESPONSE (R233): no translation, or no permission for a write, leads to a Page Request. -/
def execAtsTranslationResponse (id : Nat) (addr : Option Nat) (writable : Bool) (s : State) : Res :=
  match s.ats.find? (fun r => r.id = id && !r.pri && !r.denied) with
  | none => disabled "ATS_TRANSLATION_RESPONSE"
  | some r =>
    let page := { s with ats := s.ats.map (fun (x : AtsReq) => if x.id = id then { x with pri := true } else x) }
    match addr with
    | none => .next (page.emit (.ats r.link r.pasid r.page r.write true))
    | some a =>
      if r.write && !writable then .next (page.emit (.ats r.link r.pasid r.page r.write true))
      else
        let va := 4096 * r.page
        let e : TlbEntry := { node := sliceOf r.pasid va, pasid := r.pasid, va := va, sh := 12,
                              tgt := hostWindow r.link (a - a % 4096), w := writable }
        .next ({ s with ats := s.ats.filter (fun x => x.id ≠ id) }.cache e)

/-- PRI_RESPONSE (R233). -/
def execPriResponse (id : Nat) (ok : Bool) (s : State) : Res :=
  match s.ats.find? (fun r => r.id = id && r.pri && !r.denied) with
  | none => disabled "PRI_RESPONSE"
  | some r =>
    let put := fun (k : AtsReq → AtsReq) => { s with ats := s.ats.map (fun x => if x.id = id then k x else x) }
    if ok then .next ((put (fun x => { x with pri := false })).emit (.ats r.link r.pasid r.page r.write false))
    else .next (put (fun x => { x with denied := true }))

end Sys2Proof.Machine
end

