-- ==== Sys2Proof/Machine/Registers.lean ====
section
/-! DEFINITION. The register space (R59, R60): what each register reads as, the effects of a write, the resets that a write
starts (R61, R65), and the event rows of register writes (R31, R63 to R71, R73, R87, R110, R143, R203, R230, R240, R444). -/

namespace Sys2Proof.Machine

/-! Fields. -/

/-- A bit at a place. -/
def bitAt (b : Bool) (n : Nat) : Nat := if b then 2 ^ n else 0

/-- A doubleword from a number. -/
def dword (n : Nat) : W64 := BitVec.ofNat 64 n

/-- The state that a PeerState shows in STATE (R33). -/
def PeerState.code : PeerState → Nat
  | .disabled => 0
  | .active => 1
  | .isolated => 2

/-- Whether a requester is of the secure world. -/
def whoSecure : Who → Bool
  | .secure => true
  | .actor w => w
  | _ => false

/-- Whether a requester's register accesses reach the whole space (R59, R60). -/
def whoWhole : Who → Bool
  | .pf _ => true
  | .secure => true
  | _ => false

/-- Whether a requester is there to make a register access (R59, R60). -/
def State.present (s : State) : Who → Bool
  | .pf l => s.hostServes l
  | .vf l f => s.hostServes l && decide (1 ≤ f) && decide (f ≤ 63)
  | _ => true

/-! Reads. -/

/-- The oldest unretired job of a queue that has a quota (R110, R142). -/
def State.quotaJob (s : State) (q : Nat) : Option Nat := (s.queueJobs q).find? (fun j => (s.job j).account.isSome)

/-- BSTAT (R64). -/
def State.bstat (s : State) : W64 :=
  let b := s.board
  dword (inFld b.svn 39 32 + inFld b.limit 31 28 + inFld b.rcause 27 24 + inFld b.fwstate 23 20 + bitAt b.capLow 2 +
    bitAt b.coolFault 1 + bitAt b.ready 0)

/-- TRSTAT (R249). -/
def State.trstat (s : State) : W64 :=
  dword (inFld s.tickets.length 52 42 + inFld s.board.faults 31 16 + bitAt s.board.invDrop 2 + bitAt s.board.svcDrop 1 +
    bitAt s.flux.isSome 0)

/-- A register of the board block (R64 to R66, R244 to R249, R303). The mailbox answers host link 0's function alone. -/
def State.readBoard (s : State) (w : Who) (off : Nat) : W64 :=
  let b := s.board
  let mb := w = .pf 0
  match off with
  | 0x0000 => s.bstat
  | 0x1000 => if mb then dword (inFld b.mb.status 39 32 + inFld b.mb.cmd 23 16 + bitAt b.mb.done 2 + bitAt b.mb.busy 1) else 0
  | 0x1008 => if mb then b.mb.addr else 0
  | 0x1010 => if mb then b.mb.len.zeroExtend 64 else 0
  | 0x2000 => b.trptab
  | 0x2008 => dword (inFld b.domid 43 32 + bitAt b.tren 0)
  | 0x2010 => b.trinva
  | 0x2018 => dword (inFld b.invScope 30 29 + inFld b.invPasid 19 0)
  | 0x2028 => s.trstat
  | 0x3000 => b.hpctl.zeroExtend 64
  | _ => 0

/-- KLSTAT (R117). -/
def State.klstat (s : State) : W64 :=
  let live := s.graphs.filter (fun g => g.2.phase ≠ .saved)
  let free := (List.range 256).filter (fun p => s.holders p = [] && s.earmarkers p = [])
  dword (inFld (min s.charged 0xFFFF) 63 48 + inFld live.length 35 24 +
    bitAt (s.jobs.any (fun e => e.2.st = .candidate && e.2.held.isSome)) 17 + bitAt s.kiln.capBind 16 + inFld free.length 8 0)

/-- KLACCT (R142). -/
def State.klacct (s : State) (w : Who) : W64 :=
  let q := s.kiln.acctQ
  let hidden := (s.queue q).secure && !whoSecure w
  let n := if hidden then 0 else ((s.quotaJob q).bind (fun j => (s.job j).account)).getD 0
  dword (inFld q 63 52 + inFld n 47 0)

/-- A plot entry (R118). -/
def State.plotEntry (s : State) (p : Nat) : W64 :=
  let hs := s.holders p
  let all := hs ++ s.earmarkers p
  let spent := ((plotTiles p).filter (fun t => (s.block t).spent)).length
  let fallow := ((plotTiles p).filter (fun t => !(s.block t).spent && !(s.block t).assaying && s.residents t = [])).length
  let own := match all with
    | [] => 0
    | j :: _ =>
      let r := s.job (s.root j)
      inFld 1 63 63 + bitAt (s.job j).parent.isSome 62 + bitAt (decide (2 ≤ hs.length)) 60 + inFld r.queue 59 48 +
        inFld r.index.toNat 47 16 + inFld fallow 4 0
  dword (own + bitAt (s.plotSecure p) 61 + inFld spent 12 8)

/-- A tile entry (R146): a running tile, at step 0 too, shows the voltage of its fused curve (R119), and HALFROW shows the mode that
is in force on the tile (R127). The voltage of a stopped tile reads 0. DEDUCED, notes/assumptions/42.md -/
def State.tileEntry (s : State) (b : Nat) : W64 :=
  let x := s.block b
  let k := s.fcur b
  let own := if b < 4096 then
      bitAt (s.isFallow b) 62 + bitAt (x.half && s.residents b ≠ []) 61 + bitAt (s.inMove b) 60 +
        inFld (s.residents b).length 9 5
    else 0
  dword (own + bitAt x.spent 63 + inFld x.drift 55 48 + inFld x.life 47 40 + inFld (min x.temp 255) 39 32 +
    inFld (if s.clocked b then Config.fusedVolt b k % 81 else 0) 31 24 + inFld k 23 17 + inFld (s.fceil b) 16 10)

/-- A register of the Kiln block (R80, R114 to R118, R142 to R146). -/
def State.readKiln (s : State) (w : Who) (off : Nat) : W64 :=
  let k := s.kiln
  if off < 0x1000 then
    match off with
    | 0x00 => dword (inFld k.refused 63 48 + inFld k.depthHwm 41 37 + inFld 24 36 32 + inFld k.poolHwm 31 16 + inFld k.poolCnt 15 0)
    | 0x08 => dword (bitAt k.halt 2 + bitAt k.weldEn 1 + bitAt k.preempt 0)
    | 0x10 => dword (inFld k.plotw 47 32 + inFld k.cap 15 0)
    | 0x20 => s.klstat
    | 0x28 => s.klacct w
    | 0x30 => dword (inFld (k.leaseFree / 1000) 63 32)
    | 0x38 => k.anctl
    | 0x40 => dword (inFld k.rots 63 48 + inFld k.rotSkip 47 32 + inFld k.rbs 31 16 + inFld k.rbSkip 15 0)
    | _ => 0
  else if off < 0x1800 then s.plotEntry ((off - 0x1000) / 8)
  else if 0x4000 ≤ off ∧ off < 0x4800 then s.tileEntry (portBlock ((off - 0x4000) / 8))
  else if 0x8000 ≤ off ∧ off < 0x10000 then s.tileEntry ((off - 0x8000) / 8)
  else 0

/-- LKCTL of a link port (R31). -/
def State.lkctl (s : State) (n : Nat) : Nat :=
  let p := s.linkPort n
  inFld p.lanes 11 8 + inFld p.rate 7 4 + bitAt (s.outreqs.all (fun o => !(o.fence && o.sent && o.port = n))) 3 + bitAt p.en 2

/-- A peer table entry (R33). -/
def Peer.entry (p : Peer) : W64 :=
  dword (inFld p.epoch 63 56 + inFld p.busy 55 46 + inFld p.ocount 45 36 + inFld p.icount 35 26 + inFld p.ibudget 25 16 +
    inFld p.obudget 15 6 + bitAt p.ordpath 5 + bitAt p.fewin 4 + bitAt p.poison 3 + inFld p.st.code 1 0)

/-- The link-port register of 32 bits at an offset: LKCTL of a port, or LKTMO (R31, R32). -/
inductive LkReg
  | ctl (n : Nat)
  | tmo
  deriving DecidableEq, Repr

/-- The 32-bit register at an offset of the link-port block. DEDUCED, notes/assumptions/55.md -/
def lkReg (off : Nat) : Option LkReg :=
  if off = 0xC00 then some .tmo else if off < 0xC00 ∧ off % 64 = 0 then some (.ctl (off / 64)) else none

/-- A register of the link-port block (R31 to R33). -/
def State.readLink (s : State) (off : Nat) : W64 :=
  if 0x10000 ≤ off ∧ off < 0x18000 then (s.peer ((off - 0x10000) / 8)).entry
  else match lkReg off with
    | some (.ctl n) => dword (s.lkctl n)
    | some .tmo => dword s.board.tmo
    | none => 0

/-- An entry of a relocation table as it reads (R58). -/
def Reloc.word (r : Reloc) : W64 :=
  dword (inFld 1 63 63 + inFld r.old.1 31 20 + inFld r.old.2 19 16 + inFld r.new.1 15 4 + inFld r.new.2 3 0)

/-- A register of the memory-port block (R52, R56 to R58). MPTRC shows the entry that a read would remove. -/
def State.readMem (s : State) (off : Nat) : W64 :=
  let m := off / 0x1000
  if 208 ≤ m then 0 else
  let p := s.port (memTile m)
  let o := off % 0x1000
  if o = 0 then
    dword (inFld p.errcnt 63 32 + inFld p.lastReq 31 26 + inFld p.lastTag 25 23 + inFld p.lastStat 22 19 +
      inFld p.reqs.length 18 12 + inFld (32 - p.reloc.length) 11 6)
  else if o = 8 then
    match p.trace with
    | (r, t, st) :: _ => dword (inFld 1 63 63 + inFld r 15 10 + inFld t 9 7 + inFld st 3 0)
    | [] => 0
  else if 0x100 ≤ o ∧ o < 0x200 then ((Tab.find p.reloc ((o - 0x100) / 8)).map Reloc.word).getD 0
  else 0

/-- The region entry as it was last written: the one that stands or is to stand (R6, R86, R87). -/
def State.wantsRegion (s : State) (r : Nat) : W64 × W64 :=
  s.board.worldPend.foldl (fun w c => match c with
    | .plot _ _ => w
    | .region q a b => if q = r then (a, b) else w) (Tab.get 0 s.board.wrega r, Tab.get 0 s.board.wregb r)

/-- A register of the world-table block (R87): WREGA and WREGB return the last value written (R6). -/
def State.readWorld (s : State) (off : Nat) : W64 :=
  if off < 0x20 then Tab.get 0 s.board.wplot (off / 8)
  else if off < 0x40 then Tab.get 0 s.board.wport ((off - 0x20) / 8)
  else if 0x100 ≤ off ∧ off < 0x500 then
    (if off % 16 = 0 then (s.wantsRegion ((off - 0x100) / 16)).1 else (s.wantsRegion ((off - 0x100) / 16)).2)
  else 0

/-- A register of one host fault queue (R291). -/
def FaultQueue.read (q : FaultQueue) (off : Nat) : W64 :=
  match off with
  | 0x00 => q.base
  | 0x08 => q.tail.zeroExtend 64
  | 0x10 => q.head.zeroExtend 64
  | 0x18 => dword (inFld q.vec 43 32 + bitAt q.irqEn 1 + bitAt q.en 0)
  | 0x20 => dword (inFld q.lost 63 48 + bitAt q.full 0)
  | _ => 0

/-- The block whose banks the window shows to a requester (R298). -/
def State.bankBlock (s : State) (w : Who) : Option Block :=
  if s.blockSecure s.board.asel && !whoSecure w then none else some (s.block s.board.asel)

/-- The bank and the register at an offset from ASTAT of bank 0 (R298). ABSUM stands where ASYND of bank 3 would.
DEDUCED, notes/assumptions/43.md -/
def bankReg (off : Nat) : Option (Nat × Nat) :=
  if 0x1010 ≤ off ∧ off < 0x1068 then some ((off - 0x1010) / 24, (off - 0x1010) % 24 / 8) else none

/-- A bank register as it reads (R299). -/
def Bank.read (b : Bank) : Nat → W64
  | 0 => dword (inFld 1 63 63 + inFld b.rank 62 61 + inFld b.unit 60 58 + inFld b.assay 57 56 + inFld b.count 47 32 +
      inFld b.aid 31 16 + inFld b.cause 8 0)
  | 1 => b.addr
  | _ => b.synd

/-- ABSUM (R299). -/
def Block.absum (b : Block) : W64 :=
  dword (inFld b.ovf 63 48 + inFld b.corr 47 32 + bitAt b.spent 1 + bitAt b.assaying 0)

/-- ASCAN (R298): the lowest block with a valid bank of rank 3, whatever its world. -/
def State.ascan (s : State) : W64 :=
  match s.blocks.find? (fun e => e.2.banks.any (fun b => b.2.rank = 3)) with
  | some e => dword (bitAt true 13 + inFld e.1 12 0)
  | none => 0

/-- A register of the fault block (R291, R298, R304). -/
def State.readFault (s : State) (w : Who) (off : Nat) : W64 :=
  if off < 0x800 then s.fq.read off
  else if off < 0xC00 then (if whoSecure w then s.fqs.read (off - 0x800) else 0)
  else match off with
  | 0xC00 => s.board.svbase
  | 0xC08 => s.board.svlen
  | 0xC10 => dword (inFld s.svFree 19 0)
  | 0x1000 => dword (inFld s.board.asel 12 0)
  | 0x1068 => ((s.bankBlock w).map Block.absum).getD 0
  | 0x1070 => s.ascan
  | _ =>
    match bankReg off, s.bankBlock w with
    | some (b, r), some x => ((Tab.find x.banks b).map (fun (y : Bank) => y.read r)).getD 0
    | _, _ => 0

/-- The register at an offset of the register space as a requester reads it, 64 bits from the doubleword boundary (R59,
R60): an offset that no block defines reads zero. -/
def State.regRead (s : State) (w : Who) (off : Nat) : W64 :=
  let o := off / 8 * 8
  if inQueues o then (if s.seesQueue w (queueAt o) then (s.queue (queueAt o)).read (queueReg o) else 0)
  else if !whoWhole w then 0
  else if o < 0x10000 then s.readBoard w o
  else if o < 0x20000 then s.readKiln w (o - 0x10000)
  else if 0x200000 ≤ o ∧ o < 0x220000 then s.readLink (o - 0x200000)
  else if 0x400000 ≤ o ∧ o < 0x500000 then s.readMem (o - 0x400000)
  else if 0x600000 ≤ o ∧ o < 0x610000 then s.readWorld (o - 0x600000)
  else if 0x700000 ≤ o ∧ o < 0x710000 then s.readFault w (o - 0x700000)
  else 0

/-- The memory port whose MPTRC is at an offset (R52, R57). -/
def mptrcAt (off : Nat) : Option Nat :=
  let m := (off - 0x400000) / 0x1000
  if 0x400000 ≤ off ∧ off < 0x500000 ∧ m < 208 ∧ off % 0x1000 / 8 = 1 then some m else none

/-- A read of the register space (R59, R60): one of a size or an alignment that registers do not take returns zero. -/
def State.readReg (s : State) (w : Who) (off size : Nat) : W64 :=
  if regAligned off size then BitVec.ofNat 64 ((s.regRead w off).toNat / 2 ^ (8 * (off % 8)) % 2 ^ (8 * size)) else 0

/-- MPTRC_READ (R48, R57, R59, R60): a read of the register space. One of MPTRC by a requester that sees it removes the entry that it
returns, and so does a read of one half. DEDUCED, notes/assumptions/74.md -/
def execMptrcRead (who : Who) (x : PortRead) (s : State) : Res :=
  if 0x800000 ≤ x.off || !s.present who then disabled "MPTRC_READ"
  else
    let v := s.readReg who x.off x.size
    .next (match mptrcAt x.off with
      | some m =>
        if whoWhole who && regAligned x.off x.size then
          (s.setPort (memTile m) { s.port (memTile m) with trace := (s.port (memTile m)).trace.drop 1 }).emit (.regReply v)
        else s.emit (.regReply v)
      | none => s.emit (.regReply v))

/-! Resets (R61, R65). -/

/-- First-tier contents after a module reset: unrefreshed data is lost (R61). -/
def Memory.unrefreshed (m : Memory) (k : Nat) : Memory :=
  { m with cells := m.cells.filterMap (fun (c : Host.Cell) =>
      if 0x18000000000 ≤ c.1 then some c
      else match Config.lostByte k c.1 with
        | none => some c
        | some b => if b = 0 then none else some (c.1, b)) }

/-- The part after a reset that clears everything but fuses; what the model itself counts goes on. -/
def State.cleared (s : State) (rcause limit : Nat) (held : Bool) (mem : Memory) (seq : Nat) : State :=
  let b : Board := { State.reset.board with
    rcause := rcause, limit := limit, held := held, owner := s.board.owner, arCount := s.board.arCount, mb := { seq := seq } }
  { State.reset with agenda := s.agenda, focus := s.focus, fresh := s.fresh, nextId := s.nextId, out := s.out, mem := mem, board := b }

/-- A module reset (R61): fuses, second-tier contents and refreshed first-tier contents stay. What the table of R61 does not
name is cleared too. DEDUCED, notes/assumptions/44.md -/
def State.moduleReset (s : State) (limit : Nat) (held : Bool) : State :=
  { s.cleared 1 limit held (s.mem.unrefreshed s.fresh) s.board.mb.seq with fresh := s.fresh + 1 }

/-- FWHALT of BCTL (R65): firmware that is still being verified does not start either. -/
def State.fwHalt (s : State) : State := { s with board := { s.board with fwstate := 5, fwPend := none } }

/-! World tables (R85 to R87). -/

/-- The world bit that a plot has or is to have. -/
def State.wantsPlot (s : State) (p : Nat) : Bool :=
  s.board.worldPend.foldl (fun w c => match c with
    | .plot q x => if q = p then x else w
    | .region _ _ _ => w) (s.plotSecure p)

/-- Asks for the world of a plot (R86). -/
def State.askPlot (s : State) (p : Nat) (w : Bool) : State :=
  let rest := s.board.worldPend.filter (fun c => match c with
    | .plot q _ => q ≠ p
    | .region _ _ _ => true)
  { s with board := { s.board with worldPend := if w = s.plotSecure p then rest else rest ++ [WorldChange.plot p w] } }

/-- Asks for a region entry (R86). -/
def State.askRegion (s : State) (r : Nat) (a b : W64) : State :=
  let rest := s.board.worldPend.filter (fun c => match c with
    | .plot _ _ => true
    | .region q _ _ => q ≠ r)
  { s with board := { s.board with
      worldPend := if a = Tab.get 0 s.board.wrega r ∧ b = Tab.get 0 s.board.wregb r then rest else rest ++ [WorldChange.region r a b] } }

/-- Sets the world bit of a port tile, which nothing delays (R85, R86). -/
def State.setPortWorld (s : State) (n : Nat) (w : Bool) : State :=
  let v := Tab.get 0 s.board.wport (n / 64)
  let m : W64 := dword (2 ^ (n % 64))
  { s with board := { s.board with wport := Tab.put 0 s.board.wport (n / 64) (if w then v ||| m else v &&& ~~~m) } }

/-- The fields of WREGA and WREGB (R87). -/
def regionA (v : W64) : W64 := dword (inFld (fld v 63 62) 63 62 + fld v 33 0)
/-- LEN of WREGB. -/
def regionB (v : W64) : W64 := dword (fld v 33 0)

/-- A write of a world table by the secure world (R87), with the value that a merge starts from.
DEDUCED, notes/assumptions/58.md -/
def State.writeWorld (s : State) (off size : Nat) (data : W64) : State :=
  let o := off / 8 * 8
  if o < 0x20 then
    let k := o / 8
    let old := dword (bitsNat ((List.range 64).map (fun i => s.wantsPlot (64 * k + i))))
    let v := mergeWrite old off size data
    (List.range 64).foldl (fun s i => if v.getLsbD i = old.getLsbD i then s else s.askPlot (64 * k + i) (v.getLsbD i)) s
  else if o < 0x40 then
    let k := (o - 0x20) / 8
    { s with board := { s.board with wport := Tab.put 0 s.board.wport k (mergeWrite (Tab.get 0 s.board.wport k) off size data) } }
  else if 0x100 ≤ o ∧ o < 0x500 then
    let r := (o - 0x100) / 16
    let (a, b) := s.wantsRegion r
    if o % 16 = 0 then s.askRegion r (regionA (mergeWrite a off size data)) b
    else s.askRegion r a (regionB (mergeWrite b off size data))
  else s

/-! Writes. -/

/-- COOLFAULT after a write of 1: it is set again at once while the condition persists (R17, R64). -/
def State.clearCoolFault (s : State) : State :=
  if s.board.cooling = .ok then { s with board := { s.board with coolFault := false } } else s

/-- A write of the board block (R64 to R66, R244 to R249, R303): `v` is the merged value, `w` the bits written. -/
def State.writeBoard (s : State) (who : Who) (off : Nat) (v w : W64) : State :=
  let b := s.board
  let mb := who = .pf 0
  match off with
  | 0x0000 => if w.getLsbD 1 then s.clearCoolFault else s
  | 0x0008 =>
    if (mb || whoSecure who) && fld w 63 48 = 0x4D52 then
      if w.getLsbD 0 then s.moduleReset 0 true else if w.getLsbD 1 then s.fwHalt else s
    else s
  | 0x1000 => if mb then { s with board := { b with mb := { b.mb with cmd := fld v 23 16, done := b.mb.done && !w.getLsbD 2 } } } else s
  | 0x1008 => if mb then { s with board := { b with mb := { b.mb with addr := v } } } else s
  | 0x1010 => if mb then { s with board := { b with mb := { b.mb with len := v.truncate 32 } } } else s
  | 0x2000 => if b.tren then s else { s with board := { b with trptab := dword (inFld (fld v 54 12) 54 12 + min 20 (fld v 4 0)) } }
  | 0x2008 => { s with board := { b with domid := if b.tren then b.domid else fld v 43 32, tren := v.getLsbD 0 } }
  | 0x2010 => { s with board := { b with trinva := dword (inFld (fld v 56 12) 56 12 + min 11 (fld v 3 0)) } }
  | 0x2018 => s.startFlux v
  | 0x2020 => s.serviceTicket (whoSecure who) w
  | 0x2028 => { s with board := { b with
      faults := if fld w 31 16 = 0 then b.faults else 0, invDrop := b.invDrop && !w.getLsbD 2, svcDrop := b.svcDrop && !w.getLsbD 1 } }
  | 0x3000 => { s with board := { b with hpctl := v.truncate 4 } }
  | _ => s

/-- KLREFILL (R110, R116). -/
def State.refill (s : State) (who : Who) (w : W64) : State :=
  let q := fld w 63 52
  if (s.queue q).secure && !whoSecure who then s
  else match s.quotaJob q with
    | some j => s.setJob j { s.job j with account := some (satAdd (2 ^ 48 - 1) ((s.job j).account.getD 0) (fld w 47 0)) }
    | none => s

/-- ANCTL as a write stores it (R144). -/
def anctlOf (v : W64) : W64 :=
  dword (inFld (min 105 (fld v 39 32)) 39 32 + inFld (fld v 31 24) 31 24 + inFld (max 1 (fld v 23 16)) 23 16 +
    inFld (max 1 (fld v 15 12)) 15 12 + inFld (max 1 (fld v 7 2)) 7 2 + fld v 1 0)

/-- A write of the Kiln block (R80, R114 to R116, R142 to R145). -/
def State.writeKiln (s : State) (who : Who) (off : Nat) (v w : W64) : State :=
  let k := s.kiln
  let keep := fun (hi lo n : Nat) => if fld w hi lo = 0 then n else 0
  match off with
  | 0x00 => { s with kiln := { k with refused := keep 63 48 k.refused, depthHwm := keep 41 37 k.depthHwm, poolHwm := keep 31 16 k.poolHwm } }
  | 0x08 => { s with kiln := { k with halt := v.getLsbD 2, weldEn := v.getLsbD 1, preempt := v.getLsbD 0 } }
  | 0x10 => { s with kiln := { k with plotw := fld v 47 32, cap := fld v 15 0 } }
  | 0x18 => s.refill who w
  | 0x28 => { s with kiln := { k with acctQ := fld v 63 52 } }
  | 0x30 => { s with kiln := { k with leaseFree := satAdd ((2 ^ 32 - 1) * 1000) k.leaseFree (1000 * fld w 31 0) } }
  | 0x38 => { s with kiln := { k with anctl := anctlOf v } }
  | 0x40 => { s with kiln := { k with
      rots := keep 63 48 k.rots, rotSkip := keep 47 32 k.rotSkip, rbs := keep 31 16 k.rbs, rbSkip := keep 15 0 k.rbSkip } }
  | _ => s

/-- A write of a peer's STATE (R30). -/
def State.peerState (s : State) (q code : Nat) : State :=
  let p := s.peer q
  match p.st, code with
  | .disabled, 1 => s.setPeer q { p with st := .active, ocount := 0 }
  | .isolated, 1 => s.setPeer q { p with st := .active, ocount := 0 }
  | .active, 0 => (s.setPeer q { p with st := .disabled, epoch := (p.epoch + 1) % 256 }).failRequests q
  | .isolated, 0 => s.setPeer q { p with st := .disabled }
  | _, _ => s

/-- A write of a peer table entry (R30, R33). -/
def State.writePeer (s : State) (q : Nat) (v w : W64) : State :=
  let p := s.peer q
  let p' : Peer := { p with
    busy := if fld w 55 46 = 0 then p.busy else 0, ibudget := max 1 (fld v 25 16), obudget := max 1 (fld v 15 6),
    ordpath := v.getLsbD 5, fewin := v.getLsbD 4, poison := v.getLsbD 3 }
  (s.setPeer q p').peerState q (fld v 1 0)

/-- A write of the link-port block (R31 to R33): its 32-bit registers take 4-byte writes alone (R59). -/
def State.writeLink (s : State) (off size : Nat) (v w : W64) : State :=
  if 0x10000 ≤ off ∧ off < 0x18000 then s.writePeer ((off / 8 * 8 - 0x10000) / 8) v w
  else if size ≠ 4 then s
  else match lkReg off with
    | some (.ctl n) => s.setLinkPort n { s.linkPort n with en := w.getLsbD 2 }
    | some .tmo => { s with board := { s.board with tmo := max 10 (fld w 23 0) } }
    | none => s

/-- A write of the memory-port block (R56). -/
def State.writeMem (s : State) (off : Nat) (w : W64) : State :=
  if off % 0x1000 ≠ 0 ∨ 208 ≤ off / 0x1000 ∨ fld w 63 32 = 0 then s
  else
    let p := memTile (off / 0x1000)
    s.setPort p { s.port p with errcnt := 0 }

/-- A write of one host fault queue (R291). -/
def FaultQueue.write (q : FaultQueue) (off : Nat) (v w : W64) : FaultQueue :=
  match off with
  | 0x00 => if q.en then q else { q with base := dword (inFld (fld v 54 12) 54 12 + max 4 (fld v 3 0)) }
  | 0x10 =>
    let h : W32 := v.truncate 32
    if q.size < (q.tail - h).toNat then q else { q with head := h }
  | 0x18 => { q with vec := fld v 43 32, irqEn := v.getLsbD 1, en := v.getLsbD 0 }
  | 0x20 => if fld w 63 48 = 0 then q else { q with lost := 0 }
  | _ => q

/-- A write of the fault block (R291, R298, R299, R304). The save area takes writes from the secure world alone, and the
banks of a secure block none from the other. DEDUCED, notes/assumptions/45.md -/
def State.writeFault (s : State) (who : Who) (off : Nat) (v w : W64) : State :=
  let b := s.board
  let banks := fun (k : Block → Block) =>
    if (s.bankBlock who).isSome then s.setBlock b.asel (k (s.block b.asel)) else s
  if off < 0x800 then { s with fq := s.fq.write off v w }
  else if off < 0xC00 then (if whoSecure who then { s with fqs := s.fqs.write (off - 0x800) v w } else s)
  else match off with
  | 0xC00 => if whoSecure who then { s with board := { b with svbase := dword (inFld (fld v 40 21) 40 21) } } else s
  | 0xC08 => if whoSecure who then { s with board := { b with svlen := dword (fld v 19 0) } } else s
  | 0x1000 => { s with board := { b with asel := min 4351 (fld v 12 0) } }
  | 0x1068 => banks (fun x => { x with ovf := if fld w 63 48 = 0 then x.ovf else 0, corr := if fld w 47 32 = 0 then x.corr else 0 })
  | _ =>
    match bankReg off with
    | some (n, 0) => if w.getLsbD 63 then banks (fun x => { x with banks := Tab.erase x.banks n }) else s
    | _ => s

/-- QCTL (R71, R73): a write with both bits kills before it resets. DEDUCED, notes/assumptions/56.md -/
def State.writeQctl (s : State) (n : Nat) (w : W64) : State :=
  let s := if w.getLsbD 0 then s.killQueue n else s
  if w.getLsbD 1 then s.settleQueue n (s.queue n).reset else s

/-- A register write: a size or an alignment that registers do not take, an offset that no block defines, or a requester that
does not reach the register, makes it no write (R59, R60, R65, R66, R86). -/
def State.regWrite (s : State) (r : RegReq) : State :=
  let o := r.off / 8 * 8
  let v := mergeWrite (s.regRead r.who r.off) r.off r.size r.data
  let w := mergeWrite 0 r.off r.size r.data
  if !regAligned r.off r.size then s
  else if inQueues o then
    if !s.seesQueue r.who (queueAt o) then s
    else if queueReg o = 0x28 then
      (match r.who with
        | .actor _ => s
        | .peer _ => s
        | _ => s.writeQctl (queueAt o) w)
    else s.writeQueue r.who r.off r.size r.data
  else if !whoWhole r.who then s
  else if o < 0x10000 then s.writeBoard r.who o v w
  else if o < 0x20000 then s.writeKiln r.who (o - 0x10000) v w
  else if 0x200000 ≤ o ∧ o < 0x220000 then s.writeLink (r.off - 0x200000) r.size v (if r.size = 4 ∧ o < 0x210000 then r.data else w)
  else if 0x400000 ≤ o ∧ o < 0x500000 then s.writeMem (o - 0x400000) w
  else if 0x600000 ≤ o ∧ o < 0x610000 then (if whoSecure r.who then s.writeWorld (r.off - 0x600000) r.size r.data else s)
  else if 0x700000 ≤ o ∧ o < 0x710000 then s.writeFault r.who (o - 0x700000) v w
  else s

/-! Which row a register write is. -/

/-- The row of a write of the firmware mailbox (R66): while the module holds itself in reset, no command starts (R16).
DEDUCED, notes/assumptions/46.md -/
def State.mailRow (s : State) (off : Nat) (v w : W64) : String :=
  if off ≠ 0x1000 ∨ !w.getLsbD 0 ∨ s.board.mb.busy ∨ s.board.held then "REGISTER_WRITE"
  else match fld v 23 16, s.board.fwstate with
    | 1, 0 => "LOADFW"
    | 2, 2 => "WORLDREQ"
    | 3, 2 => "ENROL"
    | 4, 2 => "SVNRAISE"
    | _, _ => "MAILBOX_BADCMD"

/-- The row of a write of a queue register by one that owns the queue, or of QTAIL by anyone. -/
def queueRow (r : RegReq) (v w : W64) : String :=
  let own : Bool := match r.who with
    | .actor _ => false
    | .peer _ => false
    | _ => true
  match queueReg r.off with
  | 0x08 => if !own then "REGISTER_WRITE" else if v.getLsbD 0 then "QUEUE_ENABLE" else "QUEUE_DISABLE"
  | 0x10 => "QTAIL_WRITE"
  | 0x28 => if !own then "REGISTER_WRITE" else if w.getLsbD 0 then "QCTL_KILL" else if w.getLsbD 1 then "QCTL_RESET" else "REGISTER_WRITE"
  | _ => "REGISTER_WRITE"

/-- The row of a write of a peer table entry (R30). -/
def State.peerRow (s : State) (q : Nat) (v : W64) : String :=
  match (s.peer q).st, fld v 1 0 with
  | .disabled, 1 => "PEER_ACTIVATE"
  | .isolated, 1 => "PEER_ACTIVATE"
  | .active, 0 => "PEER_DISABLE"
  | .isolated, 0 => "PEER_DISABLE"
  | _, _ => "REGISTER_WRITE"

/-- The row of the opcode table that a register write is: REGISTER_WRITE where no other row is its own. -/
def State.rowOf (s : State) (r : RegReq) : String :=
  let o := r.off / 8 * 8
  let v := mergeWrite (s.regRead r.who r.off) r.off r.size r.data
  let w := mergeWrite 0 r.off r.size r.data
  if !regAligned r.off r.size then "REGISTER_WRITE"
  else if inQueues o then (if s.seesQueue r.who (queueAt o) then queueRow r v w else "REGISTER_WRITE")
  else if !whoWhole r.who then "REGISTER_WRITE"
  else if o = 0x0008 then
    if (r.who = .pf 0 || whoSecure r.who) && fld w 63 48 = 0x4D52 then
      (if w.getLsbD 0 then "MRESET" else if w.getLsbD 1 then "FWHALT" else "REGISTER_WRITE")
    else "REGISTER_WRITE"
  else if 0x1000 ≤ o ∧ o < 0x2000 then (if r.who = .pf 0 then s.mailRow o v w else "REGISTER_WRITE")
  else if o = 0x2018 then (if v.getLsbD 31 && s.flux.isNone && fld v 30 29 ≠ 3 then "FLUX_START" else "REGISTER_WRITE")
  else if o = 0x2020 then (if w.getLsbD 16 then "TICKET_FAIL" else "TICKET_RETRY")
  else if o = 0x10018 then "KLREFILL"
  else if o = 0x10030 then "LEASE_ADD"
  else if 0x210000 ≤ o ∧ o < 0x218000 then s.peerRow ((o - 0x210000) / 8) v
  else if 0x200000 ≤ o ∧ o < 0x210000 then
    match lkReg (r.off - 0x200000), r.size with
    | some (.ctl _), 4 => if r.data.getLsbD 2 then "LINK_PORT_ENABLE" else "LINK_PORT_DISABLE"
    | _, _ => "REGISTER_WRITE"
  else if 0x600000 ≤ o ∧ o < 0x600500 then "WORLD_TABLE_WRITE"
  else "REGISTER_WRITE"

/-- A register write that is of a row: its requester is there, and the write is of that row. -/
def State.rowWrite (s : State) (row : String) (r : RegReq) (go : State → State) : Res :=
  if s.present r.who && s.rowOf r = row then .next (go s) else disabled row

/-! The rows of register writes. -/

/-- REGISTER_WRITE (R59). -/
def execRegisterWrite (r : RegReq) (s : State) : Res := s.rowWrite "REGISTER_WRITE" r (fun s => s.regWrite r)
/-- MRESET (R61, R65). -/
def execMreset (r : RegReq) (s : State) : Res := s.rowWrite "MRESET" r (fun s => s.regWrite r)
/-- FWHALT (R65). -/
def execFwhalt (r : RegReq) (s : State) : Res := s.rowWrite "FWHALT" r (fun s => s.regWrite r)
/-- QTAIL_WRITE (R69, R70). -/
def execQtailWrite (r : RegReq) (s : State) : Res := s.rowWrite "QTAIL_WRITE" r (fun s => s.regWrite r)
/-- QUEUE_ENABLE (R63, R68, R71). -/
def execQueueEnable (r : RegReq) (s : State) : Res := s.rowWrite "QUEUE_ENABLE" r (fun s => s.regWrite r)
/-- QUEUE_DISABLE (R68, R71). -/
def execQueueDisable (r : RegReq) (s : State) : Res := s.rowWrite "QUEUE_DISABLE" r (fun s => s.regWrite r)
/-- QCTL_KILL (R73, R108, R110). -/
def execQctlKill (r : RegReq) (s : State) : Res := s.rowWrite "QCTL_KILL" r (fun s => s.regWrite r)
/-- QCTL_RESET (R71). -/
def execQctlReset (r : RegReq) (s : State) : Res := s.rowWrite "QCTL_RESET" r (fun s => s.regWrite r)
/-- KLREFILL (R110, R116). -/
def execKlrefill (r : RegReq) (s : State) : Res := s.rowWrite "KLREFILL" r (fun s => s.regWrite r)
/-- LEASE_ADD (R143). -/
def execLeaseAdd (r : RegReq) (s : State) : Res := s.rowWrite "LEASE_ADD" r (fun s => s.regWrite r)
/-- TICKET_RETRY (R230, R243, R248). -/
def execTicketRetry (r : RegReq) (s : State) : Res := s.rowWrite "TICKET_RETRY" r (fun s => s.regWrite r)
/-- TICKET_FAIL (R206, R230, R232, R248). -/
def execTicketFail (r : RegReq) (s : State) : Res := s.rowWrite "TICKET_FAIL" r (fun s => s.regWrite r)
/-- FLUX_START (R240, R247). -/
def execFluxStart (r : RegReq) (s : State) : Res := s.rowWrite "FLUX_START" r (fun s => s.regWrite r)
/-- PEER_ACTIVATE (R30, R33). -/
def execPeerActivate (r : RegReq) (s : State) : Res := s.rowWrite "PEER_ACTIVATE" r (fun s => s.regWrite r)
/-- PEER_DISABLE (R28, R30, R33). -/
def execPeerDisable (r : RegReq) (s : State) : Res := s.rowWrite "PEER_DISABLE" r (fun s => s.regWrite r)
/-- LINK_PORT_ENABLE (R31). -/
def execLinkPortEnable (r : RegReq) (s : State) : Res := s.rowWrite "LINK_PORT_ENABLE" r (fun s => s.regWrite r)
/-- LINK_PORT_DISABLE (R23, R31). -/
def execLinkPortDisable (r : RegReq) (s : State) : Res := s.rowWrite "LINK_PORT_DISABLE" r (fun s => s.regWrite r)
/-- WORLD_TABLE_WRITE (R86, R87). -/
def execWorldTableWrite (r : RegReq) (s : State) : Res := s.rowWrite "WORLD_TABLE_WRITE" r (fun s => s.regWrite r)

/-- POISONED_REGISTER_WRITE (R203, R444): a queue register records POISONW; a kick register of the engine's world takes a
record with dross, where one of the write's kind is accepted at all; any other register keeps its value. A write from another world than
the engine's makes a record with its physical address. DESIGN CHOICE, notes/assumptions/49.md -/
def execPoisonedRegisterWrite (who : Who) (off : Nat) (data : V512) (s : State) : Res :=
  if !s.present who || 0x800000 ≤ off then disabled "POISONED_REGISTER_WRITE"
  else if inQueues off then .next (if s.seesQueue who (queueAt off) then s.poisonQueue off else s)
  else if off < 0x740000 || 0x750000 ≤ off || off % 64 ≠ 0 then .next s
  else
    let p := (off - 0x740000) / 256
    match who with
    | .vf _ _ => .next s
    | .peer _ => .next s
    | .secure => .next s
    | _ =>
      if s.portSecure p ≠ whoSecure who then .next (s.pushRecord false { cause := 338, tval := dword (0x18000000000 + off), wr := true })
      else match s.pushNamed p (off % 256 / 64) data true with
        | some s => .next s
        | none => disabled "POISONED_REGISTER_WRITE"

end Sys2Proof.Machine
end

