-- ==== Sys2Proof/Machine/Board.lean ====
section
/-! DEFINITION. Resets (R16, R61), bring-up and firmware (R62, R82 to R84), the firmware mailbox (R66), cooling (R17), the ends
of assays (R300 to R302) and changes of the worlds (R85 to R87). -/

namespace Sys2Proof.Machine

/-! Resets. -/

/-- POWER_ON_RESET (R61): everything but the fuses. The module then holds itself in reset until every limit holds (R16). -/
def execPowerOnReset (s : State) : Res := .next (s.cleared 0 0 true {} 0)

/-- LIMIT_RESET (R16): an excursion of codes 1 to 4 of LIMIT puts a module back in reset; while a module holds itself in reset, the
first limit found violated, whichever it is, is reported. DEDUCED, notes/assumptions/46.md -/
def execLimitReset (code : Nat) (s : State) : Res :=
  if s.board.held then
    (if s.board.limit ≠ 0 || code = 0 || 8 < code then disabled "LIMIT_RESET" else .next { s with board := { s.board with limit := code } })
  else if code = 0 || 4 < code then disabled "LIMIT_RESET"
  else .next (s.moduleReset code true)

/-- PERST (R61). -/
def execPerst (s : State) : Res := .next (s.moduleReset 0 true)

/-- MODULE_LEAVES_RESET (R16), while every limit holds: LIMIT goes on showing what was violated. DEDUCED, notes/assumptions/46.md -/
def execModuleLeavesReset (s : State) : Res :=
  if s.board.held then .next { s with board := { s.board with held := false } } else disabled "MODULE_LEAVES_RESET"

/-- FUNCTION_RESET (R61, R110). -/
def execFunctionReset (link fn : Nat) (s : State) : Res :=
  if !s.hostServes link || 63 < fn then disabled "FUNCTION_RESET"
  else
    let qs := (s.queues.filter (fun e => e.2.link = link && e.2.fn = fn)).map (·.1)
    let s := qs.foldl State.killQueue { s with board := { s.board with rcause := 2 } }
    .next (qs.foldl (fun s q => s.settleQueue q (s.queue q).flReset) s)

/-- Whether an address of memory belongs to the expanders of a host link (R52). -/
def State.behindLink (s : State) (link : Nat) (t : Target) : Bool :=
  match t with
  | .loc pa => (s.inExpander pa).any (fun e => e.1 = link)
  | _ => false

/-- Ends with error the requests of memory ports to the expanders of a host link (R61): a requester sees EXPFAIL, or what its port
settles without them (R42). DEDUCED, notes/assumptions/78.md -/
def State.failTags (s : State) (link : Nat) : State :=
  let lost := s.ports.flatMap (fun (p : Nat × Port) => p.2.reqs.flatMap (fun (r : Nat × Requester) =>
    (r.2.tags.filter (fun t => !t.performed && t.tgt.any (s.behindLink link) && (s.breaksWorld p.1 r.2.job t).isNone &&
      !r.2.tags.any (fun x => x.holds t))).map (fun t => (p.1, r.1, t))))
  lost.foldl (fun s (e : Nat × Nat × TagEntry) => s.complete e.1 e.2.1 e.2.2.tag ((s.settled e.1 e.2.2).getD (e.2.2.failed 5))) s

/-- Ends an access with error (R61); a peer's request is then answered (R21). -/
def State.failAccess (s : State) (a : Access) : State :=
  match a.src with
  | .inbound _ r => (s.finishError a).answer r
  | _ => s.finishError a

/-- LINK_RESET (R61): the outstanding transactions of the link complete with error: those to its host, and in mode 2 those to its
expanders. -/
def execLinkReset (link : Nat) (s : State) : Res :=
  if 4 ≤ link then disabled "LINK_RESET"
  else
    let mine := s.inflight.filter (fun a => match a.tgt with
      | .host n _ => a.sent && n = link
      | t => s.free a && s.behindLink link t)
    let s := (mine.foldl State.failAccess s).failTags link
    let s := { s with
      inreqs := s.inreqs.map (fun (r : InReq) => if r.peer = 4096 + link then { r with err := r.err || r.read } else r),
      ats := s.ats.map (fun (r : AtsReq) => if r.link = link then { r with denied := true } else r),
                      board := { s.board with rcause := 3 } }
    .next (s.setHostLink link { s.hostLink link with lanes := 0, rate := 0 })

/-! Cooling (R17). -/

/-- COOLFAULT and COOLING, at warning level. -/
def State.coolWarn (s : State) : State :=
  let s := { s with board := { s.board with coolFault := true, cooling := .warning } }
  s.notice false 290 s.bstat

/-- COOLING_WARNING (R17): an excursion begins. -/
def execCoolingWarning (s : State) : Res :=
  if s.board.cooling = .ok && !s.board.held then .next s.coolWarn else disabled "COOLING_WARNING"

/-- COOLING_CAP (R17): a cap-level condition is one of warning level too. -/
def execCoolingCap (s : State) : Res :=
  let cap := fun s : State => { s with board := { s.board with coolFault := true, capLow := true, cooling := .cap } }
  match s.board.cooling with
  | .ok => if s.board.held then disabled "COOLING_CAP" else .next (cap s.coolWarn)
  | .warning => .next (cap s)
  | _ => disabled "COOLING_CAP"

/-- COOLING_CAP_CLEAR (R17): the cap-level condition is over; whether inlet and flow are within the limits of R16 again, or at
warning level still, in which case the excursion goes on, is a free value. An excursion that is at warning level ends in this
event too. DEDUCED, notes/assumptions/79.md -/
def execCoolingCapClear (s : State) : Res :=
  match s.board.cooling with
  | .cap =>
    .next { s.freeValue.2 with board := { s.board with capLow := false, cooling := if s.freeValue.1.getLsbD 0 then .ok else .warning } }
  | .warning => .next { s with board := { s.board with cooling := .ok } }
  | _ => disabled "COOLING_CAP_CLEAR"

/-- COOLING_SHUTDOWN (R17): first every graph is asked to quench; once all are saved, island power goes. -/
def execCoolingShutdown (s : State) : Res :=
  match s.board.cooling with
  | .cap =>
    let s := { s with board := { s.board with cooling := .shutdown, ready := false, coolFault := true } }
    .next ((s.graphs.filter (fun g => g.2.phase ≠ .saved)).foldl (fun s g => s.beginQuench g.1) s)
  | .shutdown =>
    if s.board.island && s.graphs.all (fun g => g.2.phase = .saved) then .next { s with board := { s.board with island := false } }
    else disabled "COOLING_SHUTDOWN"
  | _ => disabled "COOLING_SHUTDOWN"

/-- The queues after READY has been set (R63, R71). -/
def State.makeReady (s : State) : State :=
  let s := { s with board := { s.board with ready := true } }
  (s.queues.map (·.1)).foldl (fun s q => s.settleQueue q (s.queue q)) s

/-! Spent blocks (R300, R302). -/

/-- Takes a link port or a host link down with LINKDOWN (R23, R302). -/
def State.dropLink (s : State) (l : LinkId) : State :=
  match l with
  | .ual n => (s.setLinkPort n { s.linkPort n with lanes := 0, rate := 0, en := false }).notice false 198 (dword n)
  | .host n => (s.setHostLink n { s.hostLink n with lanes := 0, rate := 0 }).notice false 198 (dword n)

/-- What a change of the spent tiles or of the worlds makes of the candidates (R93, R112). -/
def State.resettle (s : State) : State := s.settleEarmarks.refresh

/-- Whether a graph names the engine of a port tile (R302). -/
def Graph.names (g : Graph) (p : Nat) : Bool := g.templates.any (·.port = p) || g.micro.any (fun m => m.1 = p)

/-- Aborts the graphs that name an engine which is lost (R302). -/
def State.loseEngine (s : State) (p : Nat) : State :=
  ((s.graphs.filter (fun g => g.2.names p)).map (·.1)).foldl (fun s j => s.abortGraph j stFault { code := 97 }) s

/-- A block that an assay has found lasting faults in (R300, R302). -/
def State.spend (s : State) (b : Nat) : State :=
  let s := (s.setBlock b { s.block b with spent := true }).blockNotice b 245
  if b < 4096 then s else
  match portKind (b - 4096) with
  | .mem _ => s.loseEngine (b - 4096)
  | .link n => s.dropLink (.ual n)
  | .host n _ => (s.dropLink (.host n)).loseEngine (b - 4096)

/-- ASSAY_COMPLETE (R140, R300 to R302): the pending records show the result, the tile is measured, and a lasting fault
spends the block. -/
def execAssayComplete (block : Nat) (lasting : Bool) (drift age : Nat) (s : State) : Res :=
  let b := s.block block
  if !b.assaying || !b.running then disabled "ASSAY_COMPLETE"
  else
    let put := fun x : Bank => if x.assay = 1 then { x with assay := if lasting then 3 else 2 } else x
    let s := { s with jobs := s.jobs.map (fun (e : Nat × Job) => (e.1, { e.2 with assays := e.2.assays.filter (· ≠ block) })) }
    let s := s.setBlock block { b with assaying := false, running := false, banks := b.banks.map (fun (e : Nat × Bank) => (e.1, put e.2)) }
    let s := s.measure block drift age
    .next (if lasting then (s.spend block).resettle else s)

/-- The assay of every tile (R62, R140, R300). -/
def State.assayAll (s : State) (x : Assays) : State := x.lasting.foldl State.spend (s.measureAll x.age x.drifts)

/-- COOLING_RECOVERY (R17), by firmware that runs: READY is set again where bring-up was complete (R62, R64). -/
def execCoolingRecovery (found : Assays) (s : State) : Res :=
  let b := s.board
  if b.cooling ≠ .shutdown || b.island || b.fwstate ≠ 2 then disabled "COOLING_RECOVERY"
  else
    let s := { s with board := { b with island := true, cooling := .ok, capLow := false } }
    let s := s.assayAll found
    .next (if b.upDone then s.makeReady else s).resettle

/-! Firmware and bring-up (R62, R82 to R84). -/

/-- The bytes of a text. -/
def asciiBytes (t : String) : List Byte := t.toList.map (fun c => BitVec.ofNat 8 c.toNat)

/-- What the ROM finds of a firmware image (R82, R83): a status of the mailbox, its security version and its digest.
DEDUCED, notes/assumptions/57.md -/
def State.checkFirmware (s : State) (img : List Byte) : Nat × Nat × BitVec 256 :=
  let (sigAt, key, sig, svn) := Config.fwParts img
  let d := sha3 (img.take sigAt)
  let svn := svn % 256
  if sha3 key ≠ Config.rootDigest || !mldsaVerify key d (asciiBytes "ALROS-FW") sig then (2, svn, d)
  else if svn < s.board.arCount then (3, svn, d)
  else (0, svn, d)

/-- A command that has come to its status, for MAILBOX_DONE to show. -/
def State.mailResult (s : State) (st : Nat) : State :=
  { s with board := { s.board with mb := { s.board.mb with result := some st } } }

/-- The start of a command: the parameter block is read once (R66), in requests of at most 4096 bytes (R19). -/
def State.startMail (s : State) (r : RegReq) : State :=
  let s := s.regWrite r
  let mb := s.board.mb
  let s := { s with board := { s.board with mb := { mb with busy := true, result := none } } }
  (pageSpans (mb.len.toNat / 4096 + 2) mb.addr.toNat mb.len.toNat).foldl (fun s b => s.emit (.hostRead 0 b.1 b.2)) s

/-- Whether the mailbox's ADDR and LEN keep their limits (R66). DEDUCED, notes/assumptions/47.md -/
def Mailbox.limitsOk (m : Mailbox) : Bool := decide (m.addr.toNat % 4096 = 0) && decide (m.len.toNat ≤ 2 ^ 24)

/-- A command with its parameter block: FETCHFAULT where the read has failed. A LOADFW that ends so leaves FWSTATE as it was, 0, so that it
can be issued again (R62). DESIGN CHOICE, notes/assumptions/91.md -/
def State.withBlock (s : State) (blk : Option (List Byte)) (k : State → List Byte → State) : State :=
  if !s.board.mb.limitsOk then s.mailResult 4
  else match blk with
    | none => s.mailResult 5
    | some b => k s b

/-- Whether a parameter block is one that the read can have given. -/
def State.blockFits (s : State) (r : RegReq) (blk : Option (List Byte)) : Bool :=
  blk.all (fun b => b.length = (s.regWrite r).board.mb.len.toNat)

/-- A mailbox row: the write starts the command. -/
def State.mailRun (s : State) (row : String) (r : RegReq) (blk : Option (List Byte)) (k : State → List Byte → State) : Res :=
  if !s.blockFits r blk then disabled row else s.rowWrite row r (fun s => (s.startMail r).withBlock blk k)

/-- LOADFW (R62, R66, R82): the outcome stands until firmware starts or the image is refused. -/
def execLoadfw (r : RegReq) (blk : Option (List Byte)) (s : State) : Res :=
  s.mailRun "LOADFW" r blk (fun s b => { s with board := { s.board with fwstate := 1, fwPend := some (s.checkFirmware b) } })

/-- The second tier as firmware maps it (R20, R39): LPDDR by stack, then expanders, up to 2^41 bytes. -/
def secondTier : Nat → List (Nat × Nat) → List (Nat × Nat × Nat) × Nat
  | base, [] => ([], base)
  | base, (k, n) :: t =>
    let n := min n (0x40000000000 - base)
    let (l, e) := secondTier (base + n) t
    (if n = 0 then l else (base, n, k) :: l, e)

/-- Puts the numbers of the expanders of one link in order (R20): each is given with its link and its size. -/
def numbered (exps : List (Nat × Nat)) : List (Nat × Nat × Nat) :=
  (List.range 4).flatMap (fun l => ((exps.filter (fun e => e.1 = l)).zipIdx).map (fun e => (l, e.2, e.1.2)))

/-- The attestation key of a firmware digest, and its certificate: the key signed with the identity key (R84). -/
def attestCert (d : BitVec 256) : List Byte × List Byte :=
  let key := Config.mldsaPublic (Config.attestSecret Config.identitySecret d)
  (key, Config.mldsaSign Config.identitySecret key)

/-- FIRMWARE_START (R18, R20, R39, R62, R84): a refused image gives FWSTATE 3 or 4. `expanders` gives each expander's link and size
in bytes, in order; a link whose mode changes trains anew. -/
def execFirmwareStart (modes : List Nat) (expanders : List (Nat × Nat)) (s : State) : Res :=
  match s.board.fwPend with
  | none => disabled "FIRMWARE_START"
  | some (st, svn, d) =>
    let b := s.board
    if b.fwstate ≠ 1 then disabled "FIRMWARE_START"
    else if st ≠ 0 then
      .next ({ s with board := { b with fwPend := none, fwstate := if st = 3 then 4 else 3 } }.mailResult st)
    else
      let exps := numbered (expanders.filter (fun e => modes.getD e.1 0 = 2))
      if modes.length ≠ 4 || 1 < modes.headD 2 || modes.any (fun m => decide (2 < m)) || exps.any (fun e => decide (7 < e.2.1)) then
        disabled "FIRMWARE_START"
      else
        let withLp := (List.range 24).filter (fun k => k % 3 ≠ 2)
        let (lp, e) := secondTier 0x20000000000 (withLp.map (fun k => (k, min 128 (Config.lpddrGiB k) * 2 ^ 30)))
        let (ex, _) := secondTier e (exps.map (fun x => (8 * x.1 + x.2.1, x.2.2)))
        let s := { s with board := { b with
          fwPend := none, fwstate := 2, svn := svn, fwDigest := d, attest := some (attestCert d), island := true, lpddr := lp,
          expanders := ex.map (fun (x : Nat × Nat × Nat) => (x.1, x.2.1, x.2.2 / 8, x.2.2 % 8, false)) } }
        let s := modes.zipIdx.foldl (fun s m =>
          if (s.hostLink m.2).mode = m.1 then s else s.setHostLink m.2 { s.hostLink m.2 with mode := m.1, lanes := 0, rate := 0 }) s
        .next (s.mailResult 0)

/-- A write of a world table by firmware at bring-up, before any graph (R62, R85). -/
def State.loadWorld (s : State) (e : Nat × W64) : State :=
  let b := s.board
  let o := e.1
  if o < 0x20 then { s with board := { b with wplot := Tab.put 0 b.wplot (o / 8) e.2 } }
  else if o < 0x40 then { s with board := { b with wport := Tab.put 0 b.wport ((o - 0x20) / 8) e.2 } }
  else if 0x100 ≤ o ∧ o < 0x500 then
    (if o % 16 = 0 then { s with board := { b with wrega := Tab.put 0 b.wrega ((o - 0x100) / 16) (regionA e.2) } }
     else { s with board := { b with wregb := Tab.put 0 b.wregb ((o - 0x100) / 16) (regionB e.2) } })
  else s

/-- BRINGUP_COMPLETE (R62, R85, R140, R304): every tile is assayed; `worlds` are the world registers that firmware loads, by offset,
`linkPorts` the link ports that it enables, and the rest its save area. -/
def execBringupComplete (found : Assays) (worlds : List (Nat × W64)) (linkPorts : List Nat) (svBase svLen : W64) (s : State) : Res :=
  if s.board.fwstate ≠ 2 || s.board.ready || s.board.cooling = .shutdown then disabled "BRINGUP_COMPLETE"
  else
    let s := worlds.foldl State.loadWorld (s.assayAll found)
    let s := (linkPorts.filter (fun n => !(s.block (portBlock (linkTile n))).spent)).foldl (fun s n =>
      s.setLinkPort n { s.linkPort n with en := true }) s
    let s := { s with board := { s.board with svbase := dword (inFld (fld svBase 40 21) 40 21), svlen := dword (fld svLen 19 0), upDone := true } }
    .next s.makeReady

/-- The world tables as bytes: WPLOT, WPORT, then the region entries (R84, R87). -/
def State.worldBytes (s : State) : List Byte :=
  let b := s.board
  ((List.range 4).map (Tab.get 0 b.wplot) ++ (List.range 4).map (Tab.get 0 b.wport) ++
    (List.range 64).flatMap (fun r => [Tab.get 0 b.wrega r, Tab.get 0 b.wregb r])).flatMap (fun (v : W64) => leBytes 8 v.toNat)

/-- SPDM_MEASUREMENT (R84), served while firmware runs: what the response holds, in the order in which R84 names it. DESIGN CHOICE,
notes/assumptions/48.md -/
def execSpdmMeasurement (nonce : List Byte) (s : State) : Res :=
  let b := s.board
  if !s.hostServes 0 || b.fwstate ≠ 2 || nonce.length ≠ 32 then disabled "SPDM_MEASUREMENT"
  else
    let dig := fun d : BitVec 256 => leBytes 32 d.toNat
    let owners := (List.range 16).flatMap (fun k => ((Tab.find b.keys k).map (fun key => dig (sha3 key))).getD (leBytes 32 0))
    let m := dig Config.romDigest ++ dig b.fwDigest ++ dig (sha3 s.worldBytes) ++ [BitVec.ofNat 8 b.svn] ++
      dig (b.owner.getD 0) ++ owners ++ nonce
    .next (s.emit (.spdm m (Config.mldsaSign (Config.attestSecret Config.identitySecret b.fwDigest) m)))

/-! The other mailbox commands (R66, R83, R87). -/

/-- A secure command (R66): the payload, and the state with its SEQ accepted; none where SEQ or the signature fails. The
mailbox holds one more than the last SEQ accepted. A block that is too short to hold its signature fails, and the 8 reserved bytes
after SEQ are not looked at. DESIGN CHOICE, notes/assumptions/75.md -/
def State.secureBlock (s : State) (b : List Byte) : Option (List Byte × State) :=
  let n := b.length - 2420
  let seq := leNat (b.take 8)
  match s.board.owner with
  | none => none
  | some o =>
    if b.length < 2436 || seq + 1 ≤ s.board.mb.seq ||
        !Config.ownerVerify o (sha3 (b.take n)) (asciiBytes "ALROS-MB") (b.drop n) then none
    else some ((b.take n).drop 16, { s with board := { s.board with mb := { s.board.mb with seq := seq + 1 } } })

/-- A secure command with its payload: BADSIG where SEQ or the signature fails. -/
def State.secureMail (s : State) (b : List Byte) (k : State → List Byte → State) : State :=
  match s.secureBlock b with
  | none => s.mailResult 2
  | some (p, s) => k s p

/-- The entries of a WORLDREQ payload (R87): kind, index and the two doublewords; none where one breaks its rules, among which a KIND
above 2, a wrong length and other bits of the doublewords are the model's. DESIGN CHOICE, notes/assumptions/75.md -/
def worldEntries : Nat → List Byte → Option (List (Nat × Nat × W64 × W64))
  | 0, b => if b = [] then some [] else none
  | n + 1, b =>
    let f := fun (i k : Nat) => leNat ((b.drop i).take k)
    let x := dword (f 8 8)
    let y := dword (f 16 8)
    let kind := f 0 1
    let ok := decide (24 ≤ b.length) && decide (kind ≤ 2) && f 1 1 = 0 && f 4 4 = 0 &&
      (if kind = 2 then decide (f 2 2 < 64) && regionA x = x && regionB y = y
       else decide (f 2 2 < 256) && decide (x.toNat ≤ 1) && y = 0)
    if ok then (worldEntries n (b.drop 24)).map (fun l => (kind, f 2 2, x, y) :: l) else none

/-- One change that firmware asks for (R86, R87). -/
def State.worldEntry (s : State) (e : Nat × Nat × W64 × W64) : State :=
  match e.1 with
  | 0 => s.askPlot e.2.1 (e.2.2.1 = 1)
  | 1 => s.setPortWorld e.2.1 (e.2.2.1 = 1)
  | _ => s.askRegion e.2.1 e.2.2.1 e.2.2.2

/-- The effect of WORLDREQ. -/
def State.worldReq (s : State) (p : List Byte) : State :=
  match (if p.length < 8 || leNat ((p.drop 4).take 4) ≠ 0 then none else worldEntries (leNat (p.take 4)) (p.drop 8)) with
  | none => s.mailResult 4
  | some es => (es.foldl State.worldEntry s).mailResult 0

/-- WORLDREQ (R66, R86, R87). -/
def execWorldreq (r : RegReq) (blk : Option (List Byte)) (s : State) : Res :=
  s.mailRun "WORLDREQ" r blk (fun s b => s.secureMail b State.worldReq)

/-- Fills or empties a key slot (R66, R83): a slot above 15, reserved bytes that are not zero or a key of another length give
BADPARAM. DESIGN CHOICE, notes/assumptions/75.md -/
def State.enrol (s : State) (p : List Byte) : State :=
  let k := leNat (p.take 1)
  let key := p.drop 8
  if p.length < 8 || 15 < k || leNat ((p.take 8).drop 1) ≠ 0 || (key ≠ [] && key.length ≠ 1312) then s.mailResult 4
  else { s with board := { s.board with keys := if key = [] then Tab.erase s.board.keys k else Tab.set s.board.keys k key } }.mailResult 0

/-- ENROL (R66, R83): the first also fuses the owner's digest, and carries no SEQ and no signature. Where its slot part is refused,
no digest is fused. DESIGN CHOICE, notes/assumptions/75.md -/
def execEnrol (r : RegReq) (blk : Option (List Byte)) (s : State) : Res :=
  s.mailRun "ENROL" r blk (fun s b =>
    if s.board.owner.isSome then s.secureMail b State.enrol
    else
      let s' := s.enrol (b.drop 1312)
      if s'.board.mb.result = some 0 then { s' with board := { s'.board with owner := some (sha3 (b.take 1312)) } } else s')

/-- SVNRAISE (R66, R82). -/
def execSvnraise (r : RegReq) (blk : Option (List Byte)) (s : State) : Res :=
  s.mailRun "SVNRAISE" r blk (fun s b => s.secureMail b (fun s _ =>
    { s with board := { s.board with arCount := max s.board.arCount s.board.svn } }.mailResult 0))

/-- MAILBOX_BADCMD (R66). -/
def execMailboxBadcmd (r : RegReq) (s : State) : Res :=
  s.rowWrite "MAILBOX_BADCMD" r (fun s => (s.startMail r).mailResult 1)

/-- MAILBOX_DONE (R66). -/
def execMailboxDone (s : State) : Res :=
  let mb := s.board.mb
  match mb.busy, mb.result with
  | true, some st =>
    .next ({ s with board := { s.board with mb := { mb with busy := false, done := true, status := st, result := none } } }.emit
      (.msix 0 0 0))
  | _, _ => disabled "MAILBOX_DONE"

/-! Changes of the worlds (R86). -/

/-- PLOT_WORLD_CHANGE (R86): the memories of a tile that holds no actor have no contents that outlive this: a load writes
them whole. -/
def execPlotWorldChange (plot : Nat) (s : State) : Res :=
  let pend := s.board.worldPend
  if s.holders plot ≠ [] || !pend.any (fun c => match c with
      | .plot q _ => q = plot
      | .region _ _ _ => false) then disabled "PLOT_WORLD_CHANGE"
  else
    let w := s.wantsPlot plot
    let k := plot / 64
    let old := Tab.get 0 s.board.wplot k
    let m : W64 := dword (2 ^ (plot % 64))
    .next { s with board := { s.board with
      wplot := Tab.put 0 s.board.wplot k (if w then old ||| m else old &&& ~~~m)
      worldPend := pend.filter (fun c => match c with
        | .plot q _ => q ≠ plot
        | .region _ _ _ => true) } }.resettle

/-- Whether an address lies in a region entry. -/
def inRegion (a b : W64) (pa : Nat) : Bool :=
  a.getLsbD 63 && decide (fld a 33 0 ≤ pa / 0x200000) && decide (pa / 0x200000 < fld a 33 0 + fld b 33 0)

/-- REGION_WORLD_CHANGE (R86): no request in flight of the world that memory has now targets what the entry covers or will cover. -/
def execRegionWorldChange (region : Nat) (s : State) : Res :=
  let b := s.board
  let (na, nb) := s.wantsRegion region
  let hit := fun pa => inRegion (Tab.get 0 b.wrega region) (Tab.get 0 b.wregb region) pa || inRegion na nb pa
  let old := fun (w : Bool) (t : Target) => match t with
    | .loc pa => hit pa && s.secureAt pa = w
    | _ => false
  let busy := s.inflight.any (fun x => old x.world x.tgt) ||
    s.ports.any (fun p => p.2.reqs.any (fun r => r.2.tags.any (fun t => t.reply.isNone && t.tgt.any (old (s.jobSecure r.2.job)))))
  if busy || !b.worldPend.any (fun c => match c with
      | .plot _ _ => false
      | .region q _ _ => q = region) then disabled "REGION_WORLD_CHANGE"
  else .next { s with board := { b with
    wrega := Tab.put 0 b.wrega region na, wregb := Tab.put 0 b.wregb region nb,
    worldPend := b.worldPend.filter (fun c => match c with
      | .plot _ _ => true
      | .region q _ _ => q ≠ region) } }

end Sys2Proof.Machine
end

