-- ==== Sys2Proof/Machine/Csr.lean ====
section
/-! DEFINITION. The group CSR (R176, R343, R344). -/

namespace Sys2Proof.Machine

/-- The value of a CSR in a firing, if R176 lists the number. -/
def State.csr (s : State) (t : Nat) (f : Firing) (c : Nat) : Option W64 :=
  let a := s.actor f.job f.aid
  let k := (s.graph f.job).key
  let trap := fun (g : Cause → W64) => match f.kind with
    | .fault x => g x
    | _ => 0
  match c with
  | 0x000 => some (BitVec.ofNat 64 f.aid)
  | 0x001 => some (tcoord t)
  | 0x002 => some (a.tgen.zeroExtend 64)
  | 0x003 => some (match f.kind with
    | .completion x _ => x
    | _ => 0)
  | 0x004 => some (match f.kind with
    | .completion _ x => x.zeroExtend 64
    | _ => 0)
  | 0x010 => some ((k.getD 0 0).zeroExtend 64)
  | 0x011 => some ((k.getD 1 0).zeroExtend 64)
  | 0x012 => some ((k.getD 2 0).zeroExtend 64)
  | 0x013 => some ((k.getD 3 0).zeroExtend 64)
  | 0x014 => some f.gctr
  | 0x015 => some (f.fflags.zeroExtend 64)
  | 0x020 => some (trap (fun x => BitVec.ofNat 64 x.code))
  | 0x021 => some (trap (fun x => x.tval))
  | 0x022 => some (trap (fun x => BitVec.ofNat 64 (x.tpc % 65536)))
  | _ => none

/-- Whether a firing may write a CSR (R176). -/
def csrRW (c : Nat) : Bool := c = 0x014 || c = 0x015

/-- A write of a CSR (R344). -/
def Firing.setCsr (f : Firing) (c : Nat) (v : W64) : Firing :=
  if c = 0x014 then { f with gctr := v } else { f with fflags := v.truncate 5 }

/-- csrw, csrs and csrc (R343). -/
def csrWrite (w : W64) (s : State) (d a : BitVec 5) (c : BitVec 12) (op : W64 → W64 → W64) : Res :=
  onSeq s [a] [] (fun t f =>
    match s.csr t f c.toNat with
    | none => trapAt s t f 1 w
    | some v =>
      if !csrRW c.toNat then trapAt s t f 1 w
      else if f.regs.drossS a then trapAt s t f 7 w
      else .next (s.stepFiring t (f.setCsr c.toNat (op v (f.regs.val a))) (f.regs.wr d v false)))

/-- csrr (R343). -/
def execCsrr (d : BitVec 5) (c : BitVec 12) (s : State) : Res :=
  onSeq s [] [] (fun t f =>
    match s.csr t f c.toNat with
    | none => trapAt s t f 1 (wordOf (.csrr d c))
    | some v => .next (s.stepFiring t f (f.regs.wr d v false)))

/-- csrw (R343). -/
def execCsrw (d a : BitVec 5) (c : BitVec 12) (s : State) : Res :=
  csrWrite (wordOf (.csrw d a c)) s d a c (fun _ x => x)

/-- csrs (R343). -/
def execCsrs (d a : BitVec 5) (c : BitVec 12) (s : State) : Res :=
  csrWrite (wordOf (.csrs d a c)) s d a c (fun v x => v ||| x)

/-- csrc (R343). -/
def execCsrc (d a : BitVec 5) (c : BitVec 12) (s : State) : Res :=
  csrWrite (wordOf (.csrc d a c)) s d a c (fun v x => v &&& ~~~x)

end Sys2Proof.Machine
end

