-- ==== Sys2Proof/Machine/Mem.lean ====
section
/-! DEFINITION. Loads and stores of handler RAM and of global memory (R346 to R352), and the microcode's loads and
stores (R221, R316). -/

namespace Sys2Proof.Machine

/-- The scalar that loaded bytes make. -/
def extend (signed : Bool) (bs : Bytes) : W64 :=
  let n := leNat (bs.map (·.1))
  if signed then BitVec.ofInt 64 (sgn (8 * bs.length) n) else BitVec.ofNat 64 n

/-- The bytes of a scalar store: the low bytes of the register, each with its dross (R346, R352). -/
def storeBytes (r : Regs) (d : BitVec 5) (size : Nat) : Bytes :=
  marked (r.drossS d) (leBytes size (r.val d).toNat)

/-- A byte of an engine's parameter space (R316): the templates, then the kick record. -/
def State.param (s : State) (p : Nat) (c : Copy) (o : Nat) : Byte :=
  if o < 0x2000 then
    match s.loaded? p (o / 128) with
    | some (_, t) => BitVec.ofNat 8 ((t.params.getD (o % 128 / 8) 0).toNat >>> (8 * (o % 8)))
    | none => 0
  else laneOf c.kr (o - 0x2000)

/-- A load from handler RAM, or from the parameter space in microcode (R346, R348, R316). -/
def loadRam (w : W64) (s : State) (d a : BitVec 5) (o : BitVec 10) (size : Nat) (signed : Bool) : Res :=
  onEither s [a] []
    (fun t f =>
      let ea := effAddr (f.regs.val a) o size
      if f.regs.drossS a then trapAt s t f 7 w
      else if !inAlloc ea size (s.actor f.job f.aid).ramLen then trapAt s t f 4 (BitVec.ofInt 64 ea)
      else if (s.graph f.job).meets f.aid false ea.toNat size true false then .next s
      else
        let bs := s.ramBytes f ea.toNat size
        .next (s.stepFiring t f (f.regs.wr d (extend signed bs) (anyDross bs))))
    (fun p c r =>
      let ea := effAddr (r.val a) o size
      if r.drossS a then drossUse s w
      else if !inAlloc ea size 0x2040 then .next (s.mcode p c)
      else
        let bs := clean ((List.range size).map (fun i => s.param p c (ea.toNat + i)))
        .next (s.stepEngine p (r.wr d (extend signed bs) false)))

/-- A scalar store to handler RAM (R346, R349). -/
def storeLocal (w : W64) (s : State) (d a : BitVec 5) (o : BitVec 10) (k : BitVec 4) (size : Nat) : Res :=
  onSeq s [a, d] [] (fun t f =>
    let ea := effAddr (f.regs.val a) o size
    if f.regs.drossS a then trapAt s t f 7 w
    else if !inAlloc ea size (s.actor f.job f.aid).ramLen then .next (s.raiseWrite t f ea)
    else .next (s.storeRam t f ea.toNat k.toNat (storeBytes f.regs d size)))

/-- Where a scalar load puts its bytes; a load into s0 keeps none (R330). -/
def scalarDest (d : BitVec 5) (size : Nat) (signed : Bool) (lo : Nat) : Dest :=
  if d = 0 then .none else .scalar d.toNat lo size signed

/-- A global scalar load (R346, R348). -/
def loadGlobal (w : W64) (s : State) (d a : BitVec 5) (o : BitVec 10) (k : BitVec 4) (size : Nat) (signed : Bool) : Res :=
  onEither s [a] []
    (fun t f =>
      let ea := effAddr (f.regs.val a) o size
      if f.regs.drossS a then trapAt s t f 7 w
      else onGlobal s t f ea size false (fun s f ps =>
        .next (s.issueLoad t f (ps.map (Piece.tidy size ea.toNat)) k.toNat (scalarDest d size signed))))
    (fun p c r =>
      let ea := effAddr (r.val a) o size
      if r.drossS a then drossUse s w
      else onGlobalE s p c ea size false (fun s c ps =>
        .next (s.issueLoadE p c r (ps.map Piece.noWindow) k.toNat (scalarDest d size signed))))

/-- A global scalar store (R346, R349). -/
def storeGlobal (w : W64) (s : State) (d a : BitVec 5) (o : BitVec 10) (k : BitVec 4) (size : Nat) : Res :=
  onEither s [a, d] []
    (fun t f =>
      let ea := effAddr (f.regs.val a) o size
      if f.regs.drossS a then trapAt s t f 7 w
      else onGlobal s t f ea size true (fun s f ps =>
        .next (s.issueStore t f (ps.map (Piece.tidy size ea.toNat)) k.toNat (storeBytes f.regs d size))))
    (fun p c r =>
      let ea := effAddr (r.val a) o size
      if r.drossS a then drossUse s w
      else onGlobalE s p c ea size true (fun s c ps =>
        .next (s.issueStoreE p c r (ps.map Piece.noWindow) k.toNat (storeBytes r d size))))

/-- lb (R346, R348). -/
def execLb (d a : BitVec 5) (o : BitVec 10) (k : BitVec 4) (s : State) : Res :=
  loadRam (wordOf (.lb d a o k)) s d a o 1 true

/-- lh (R346, R348). -/
def execLh (d a : BitVec 5) (o : BitVec 10) (k : BitVec 4) (s : State) : Res :=
  loadRam (wordOf (.lh d a o k)) s d a o 2 true

/-- lw (R346, R348). -/
def execLw (d a : BitVec 5) (o : BitVec 10) (k : BitVec 4) (s : State) : Res :=
  loadRam (wordOf (.lw d a o k)) s d a o 4 true

/-- ld (R346, R348). -/
def execLd (d a : BitVec 5) (o : BitVec 10) (k : BitVec 4) (s : State) : Res :=
  loadRam (wordOf (.ld d a o k)) s d a o 8 true

/-- lbz (R346, R348). -/
def execLbz (d a : BitVec 5) (o : BitVec 10) (k : BitVec 4) (s : State) : Res :=
  loadRam (wordOf (.lbz d a o k)) s d a o 1 false

/-- lhz (R346, R348). -/
def execLhz (d a : BitVec 5) (o : BitVec 10) (k : BitVec 4) (s : State) : Res :=
  loadRam (wordOf (.lhz d a o k)) s d a o 2 false

/-- lwz (R346, R348). -/
def execLwz (d a : BitVec 5) (o : BitVec 10) (k : BitVec 4) (s : State) : Res :=
  loadRam (wordOf (.lwz d a o k)) s d a o 4 false

/-- sb (R346, R349). -/
def execSb (d a : BitVec 5) (o : BitVec 10) (k : BitVec 4) (s : State) : Res :=
  storeLocal (wordOf (.sb d a o k)) s d a o k 1

/-- sh (R346, R349). -/
def execSh (d a : BitVec 5) (o : BitVec 10) (k : BitVec 4) (s : State) : Res :=
  storeLocal (wordOf (.sh d a o k)) s d a o k 2

/-- sw (R346, R349). -/
def execSw (d a : BitVec 5) (o : BitVec 10) (k : BitVec 4) (s : State) : Res :=
  storeLocal (wordOf (.sw d a o k)) s d a o k 4

/-- sd (R346, R349). -/
def execSd (d a : BitVec 5) (o : BitVec 10) (k : BitVec 4) (s : State) : Res :=
  storeLocal (wordOf (.sd d a o k)) s d a o k 8

/-- lgb (R346, R348). -/
def execLgb (d a : BitVec 5) (o : BitVec 10) (k : BitVec 4) (s : State) : Res :=
  loadGlobal (wordOf (.lgb d a o k)) s d a o k 1 true

/-- lgh (R346, R348). -/
def execLgh (d a : BitVec 5) (o : BitVec 10) (k : BitVec 4) (s : State) : Res :=
  loadGlobal (wordOf (.lgh d a o k)) s d a o k 2 true

/-- lgw (R346, R348). -/
def execLgw (d a : BitVec 5) (o : BitVec 10) (k : BitVec 4) (s : State) : Res :=
  loadGlobal (wordOf (.lgw d a o k)) s d a o k 4 true

/-- lgd (R346, R348). -/
def execLgd (d a : BitVec 5) (o : BitVec 10) (k : BitVec 4) (s : State) : Res :=
  loadGlobal (wordOf (.lgd d a o k)) s d a o k 8 true

/-- lgbz (R346, R348). -/
def execLgbz (d a : BitVec 5) (o : BitVec 10) (k : BitVec 4) (s : State) : Res :=
  loadGlobal (wordOf (.lgbz d a o k)) s d a o k 1 false

/-- lghz (R346, R348). -/
def execLghz (d a : BitVec 5) (o : BitVec 10) (k : BitVec 4) (s : State) : Res :=
  loadGlobal (wordOf (.lghz d a o k)) s d a o k 2 false

/-- lgwz (R346, R348). -/
def execLgwz (d a : BitVec 5) (o : BitVec 10) (k : BitVec 4) (s : State) : Res :=
  loadGlobal (wordOf (.lgwz d a o k)) s d a o k 4 false

/-- sgb (R346, R349). -/
def execSgb (d a : BitVec 5) (o : BitVec 10) (k : BitVec 4) (s : State) : Res :=
  storeGlobal (wordOf (.sgb d a o k)) s d a o k 1

/-- sgh (R346, R349). -/
def execSgh (d a : BitVec 5) (o : BitVec 10) (k : BitVec 4) (s : State) : Res :=
  storeGlobal (wordOf (.sgh d a o k)) s d a o k 2

/-- sgw (R346, R349). -/
def execSgw (d a : BitVec 5) (o : BitVec 10) (k : BitVec 4) (s : State) : Res :=
  storeGlobal (wordOf (.sgw d a o k)) s d a o k 4

/-- sgd (R346, R349). -/
def execSgd (d a : BitVec 5) (o : BitVec 10) (k : BitVec 4) (s : State) : Res :=
  storeGlobal (wordOf (.sgd d a o k)) s d a o k 8

/-- vl (R346, R352). -/
def execVl (d a : BitVec 5) (o : BitVec 10) (k : BitVec 4) (s : State) : Res :=
  onSeq s [a] [] (fun t f =>
    let ea := effAddr (f.regs.val a) o 64
    if f.regs.drossS a then trapAt s t f 7 (wordOf (.vl d a o k))
    else if !inAlloc ea 64 (s.actor f.job f.aid).ramLen then trapAt s t f 4 (BitVec.ofInt 64 ea)
    else if (s.graph f.job).meets f.aid false ea.toNat 64 true false then .next s
    else
      let v := vLanes (s.ramBytes f ea.toNat 64)
      .next (s.stepFiring t f (f.regs.wrV d v.val v.dross)))

/-- vs (R346, R349, R352). -/
def execVs (d a : BitVec 5) (o : BitVec 10) (k : BitVec 4) (s : State) : Res :=
  onSeq s [a] [d] (fun t f =>
    let ea := effAddr (f.regs.val a) o 64
    if f.regs.drossS a then trapAt s t f 7 (wordOf (.vs d a o k))
    else if !inAlloc ea 64 (s.actor f.job f.aid).ramLen then .next (s.raiseWrite t f ea)
    else
      let v := f.regs.rdV d
      .next (s.storeRam t f ea.toNat k.toNat (vBytes v.val v.dross)))

/-- vlg (R346, R348, R352). -/
def execVlg (d a : BitVec 5) (o : BitVec 10) (k : BitVec 4) (s : State) : Res :=
  onEither s [a] []
    (fun t f =>
      let ea := effAddr (f.regs.val a) o 64
      if f.regs.drossS a then trapAt s t f 7 (wordOf (.vlg d a o k))
      else onGlobal s t f ea 64 false (fun s f ps =>
        .next (s.issueLoad t f ps k.toNat (fun lo => .vector d.toNat lo))))
    (fun p c r =>
      let ea := effAddr (r.val a) o 64
      if r.drossS a then drossUse s (wordOf (.vlg d a o k))
      else onGlobalE s p c ea 64 false (fun s c ps =>
        .next (s.issueLoadE p c r (ps.map Piece.noWindow) k.toNat (fun lo => .vector d.toNat lo))))

/-- The engine and the named queue of a kick register that an aligned 64-byte write names (R203). -/
def kickReg (ps : List Piece) : Option (Nat × Nat) :=
  match ps.head?.map Piece.tgt with
  | some (Target.reg off) =>
    if 0x740000 ≤ off ∧ off < 0x750000 ∧ off % 64 = 0 ∧ ps.length = 8 then
      some ((off - 0x740000) / 256, off % 256 / 64)
    else none
  | _ => none

/-- vsg (R346, R349, R316): to a kick register, it takes an entry and takes effect at commit step 6 (R203). -/
def execVsg (d a : BitVec 5) (o : BitVec 10) (k : BitVec 4) (s : State) : Res :=
  onEither s [a] [d] (fun t f =>
    let ea := effAddr (f.regs.val a) o 64
    let v := f.regs.rdV d
    if f.regs.drossS a then trapAt s t f 7 (wordOf (.vsg d a o k))
    else onGlobal s t f ea 64 true (fun s f ps =>
      match kickReg ps with
      | some (p, q) =>
        let f' : Firing := { f.patch .glob ea.toNat (vBytes v.val v.dross) with
          eff6 := f.eff6 ++ [Eff6.kickReg ea.toNat p q v.val (decide (v.dross ≠ 0))] }
        if 64 < f'.entries then trapAt s t f 6 (BitVec.ofNat 64 (ea.toNat / 64 * 64))
        else .next (s.stepFiring t { f' with cbuf := f'.cbuf ++ [CItem.posted .glob ea.toNat (vBytes v.val v.dross)] } f.regs)
      | none => .next (s.issueStore t f ps k.toNat (vBytes v.val v.dross))))
    (fun p c r =>
      let ea := effAddr (r.val a) o 64
      let v := r.rdV d
      if r.drossS a then drossUse s (wordOf (.vsg d a o k))
      else onGlobalE s p c ea 64 true (fun s c ps =>
        .next (s.issueStoreE p c r (ps.map Piece.noWindow) k.toNat (vBytes v.val v.dross))))

end Sys2Proof.Machine
end

