-- ==== Sys2Proof/Machine/Tcopy.lean ====
section
/-! DEFINITION. The group TCOPY (R401, R402): copies between vector registers, the tile store, slots and handler RAM. -/

namespace Sys2Proof.Machine

/-- Whether a piece of asynchronous work writes the tile store. -/
def MWork.drains : MWork → Bool
  | .drain _ _ _ _ _ _ => true
  | _ => false

/-- Whether a piece of asynchronous work reads rows of the tile store. -/
def MWork.readsRows : MWork → Bool
  | .rows _ _ (.tstore _) _ _ _ _ => true
  | _ => false

/-- Whether a piece of asynchronous work reads a slot. -/
def MWork.usesSlot (h : Nat) : MWork → Bool
  | .rows _ k _ _ _ _ _ => k = h
  | _ => false

/-- Whether a tile-store read or write must wait for asynchronous work (R392), for the range scoreboard, or behind a waiting access of
the same firing (R194). -/
def State.tsHeld (s : State) (f : Firing) (lo n : Nat) (write : Bool) : Bool :=
  f.mwork.any (fun w => w.drains || (write && w.readsRows) || (s.graph f.job).workWaits f.aid (s.actor f.job f.aid) w) ||
    (decide (0 < n) && (s.graph f.job).meets f.aid true lo n true write)

/-- The byte offset of a tile-store address whose span of `n` bytes lies in the actor's rows (R401). -/
def tsSpan (rows : Nat) (ta : W64) (n : Nat) : Option Nat :=
  match tsAddr ta with
  | some x => if n = 0 || x.byte + n ≤ 256 * rows then some x.byte else none
  | none => none

/-- A TCOPY instruction: its address registers may not carry dross (R391). -/
def onCopy (w : W64) (s : State) (ss vs : List (BitVec 5)) (k : State → Nat → Firing → Actor → Res) : Res :=
  onSeq s ss vs (fun t f =>
    if ss.any f.regs.drossS then trapAt s t f 7 w
    else if f.mwork = [] then k s t f (s.actor f.job f.aid)
    else
      let (s, f) := s.settleWork f.workBound f
      k (s.setFiring t f) t f (s.actor f.job f.aid))

/-- tsld (R401). -/
def execTsld (d a : BitVec 5) (s : State) : Res :=
  let w := wordOf (.tsld d a)
  onCopy w s [a] [] (fun s t f x =>
    let ta := f.regs.val a
    if fld ta 3 0 ≠ 0 then trapAt s t f 3 w
    else match tsSpan x.rows ta 64 with
    | none => trapAt s t f 4 ta
    | some lo =>
      if s.tsHeld f lo 64 false then .next s
      else
        let v := vLanes (x.tstore.reads lo 64)
        .next (s.stepFiring t f (f.regs.wrV d v.val v.dross)))

/-- tsst (R401). -/
def execTsst (d a : BitVec 5) (s : State) : Res :=
  let w := wordOf (.tsst d a)
  onCopy w s [a] [d] (fun s t f x =>
    let ta := f.regs.val a
    if fld ta 3 0 ≠ 0 then trapAt s t f 3 w
    else match tsSpan x.rows ta 64 with
    | none => trapAt s t f 4 ta
    | some lo =>
      if s.tsHeld f lo 64 true then .next s
      else
        let v := f.regs.rdV d
        let (s, f) := s.tsWrite f lo (vBytes v.val v.dross)
        .next (s.stepFiring t f f.regs))

/-- The first of some row spans that leaves the actor's rows: its first row outside. The spec names no value for a span
of row numbers; it is as in R396, the source before the destination. DEDUCED, notes/assumptions/31.md -/
def rowsOutside (rows : Nat) (spans : List (Nat × Nat)) : Option Nat :=
  (spans.find? (fun x => rows < x.1 + x.2)).map (fun x => max x.1 rows)

/-- tsmv (R401): as if through a temporary copy. -/
def execTsmv (d a b : BitVec 5) (s : State) : Res :=
  let w := wordOf (.tsmv d a b)
  onCopy w s [d, a, b] [] (fun s t f x =>
    let n := (f.regs.val b).toNat
    let src := (f.regs.val a).toNat
    let dst := (f.regs.val d).toNat
    if 8192 < n then trapAt s t f 3 w
    else match rowsOutside x.rows [(src, n), (dst, n)] with
    | some r => trapAt s t f 4 (BitVec.ofNat 64 r)
    | none =>
      if s.tsHeld f (256 * src) (256 * n) false || s.tsHeld f (256 * dst) (256 * n) true then .next s
      else
        let (s, f) := s.tsWrite f (256 * dst) (x.tstore.reads (256 * src) (256 * n))
        .next (s.stepFiring t f f.regs))

/-- tsslot (R401). -/
def execTsslot (h a : BitVec 5) (s : State) : Res :=
  let w := wordOf (.tsslot h a)
  onCopy w s [a] [] (fun s t f x =>
    let src := (f.regs.val a).toNat
    if !(Tab.find x.slots h.toNat).any (·.claimed) then trapAt s t f 3 w
    else match rowsOutside x.rows [(src, 64)] with
    | some r => trapAt s t f 4 (BitVec.ofNat 64 r)
    | none =>
      if s.tsHeld f (256 * src) 16384 false || f.mwork.any (MWork.usesSlot h.toNat) then .next s
      else
        let (s, f) := s.slotWrite f h.toNat 0 (x.tstore.reads (256 * src) 16384)
        .next (s.stepFiring t f f.regs))

/-- slotts (R401). -/
def execSlotts (h a : BitVec 5) (s : State) : Res :=
  let w := wordOf (.slotts h a)
  onCopy w s [a] [] (fun s t f x =>
    let dst := (f.regs.val a).toNat
    if !(Tab.find x.slots h.toNat).any (·.claimed) then trapAt s t f 3 w
    else match rowsOutside x.rows [(dst, 64)] with
    | some r => trapAt s t f 4 (BitVec.ofNat 64 r)
    | none =>
      if s.tsHeld f (256 * dst) 16384 true then .next s
      else
        let (s, f) := s.tsWrite f (256 * dst) ((Tab.get {} x.slots h.toNat).mem.reads 0 16384)
        .next (s.stepFiring t f f.regs))

/-- The byte count of hrts and tshr (R401). -/
def copyCount (x : W64) : Option Nat := if x.toNat % 4 = 0 ∧ x.toNat ≤ 4096 then some x.toNat else none

/-- hrts (R401, R402): it sees the firing's own stores. -/
def execHrts (d a b : BitVec 5) (s : State) : Res :=
  let w := wordOf (.hrts d a b)
  onCopy w s [d, a, b] [] (fun s t f x =>
    let ta := f.regs.val d
    let src := (f.regs.val a).toNat
    match copyCount (f.regs.val b) with
    | none => trapAt s t f 3 w
    | some n =>
      if !inAlloc src n x.ramLen then trapAt s t f 4 (f.regs.val a)
      else match tsSpan x.rows ta n with
      | none => trapAt s t f 4 ta
      | some lo =>
        if n = 0 then .next (s.stepFiring t f f.regs)
        else if s.tsHeld f lo n true || (s.graph f.job).meets f.aid false src n true false then .next s
        else
          let (s, f) := s.tsWrite f lo (s.ramBytes f src n)
          .next (s.stepFiring t f f.regs))

/-- tshr (R401, R402): committed stores of class 0. -/
def execTshr (d a b : BitVec 5) (s : State) : Res :=
  let w := wordOf (.tshr d a b)
  onCopy w s [d, a, b] [] (fun s t f x =>
    let ta := f.regs.val a
    let dst := (f.regs.val d).toNat
    match copyCount (f.regs.val b) with
    | none => trapAt s t f 3 w
    | some n =>
      match tsSpan x.rows ta n with
      | none => trapAt s t f 4 ta
      | some lo =>
        if !inAlloc dst n x.ramLen then trapAt s t f 4 (f.regs.val d)
        else if n = 0 then .next (s.stepFiring t f f.regs)
        else if s.tsHeld f lo n false then .next s
        else .next (s.storeRam t f dst 0 (x.tstore.reads lo n)))

end Sys2Proof.Machine
end

