-- ==== Sys2Proof/Machine/Vmove.lean ====
section
/-! DEFINITION. The groups VMOVE (R380, R381) and GRIT (R386 to R388): moves of lanes, grit and sampling. -/

namespace Sys2Proof.Machine

/-- A byte form of R380: lane j of v[d] takes a byte with its dross where the predicate enables it. -/
def moveBytes (s : State) (t : Nat) (f : Firing) (d : BitVec 5) (on : Nat → Bool) (byte : Nat → Byte × Bool) : Res :=
  let v := vBuild 1 (f.regs.rdV d) ((List.range 64).map (fun j =>
    if on j then some ((byte j).1.toNat, (byte j).2) else none))
  .next (s.stepFiring t f (f.regs.wrV d v.val v.dross))

/-- A lane of a vector register with its dross. -/
def VReg.lane (v : VReg) (j : Nat) : Byte × Bool := (laneOf v.val j, v.dross.getLsbD j)

/-- vmov (R380, R362). -/
def execVmov (d a : BitVec 5) (p : Option (BitVec 3)) (s : State) : Res :=
  onLane (wordOf (.vmov d a p)) s [] [d, a] LaneSet.simd (fun t f =>
    moveBytes s t f d (fun j => laneOn f.regs p j && !(decide (60 ≤ j) && f.lane.mode 15 = 3)) (f.regs.rdV a).lane)

/-- vbcast (R380). -/
def execVbcast (d a : BitVec 5) (p : Option (BitVec 3)) (s : State) : Res :=
  onLane (wordOf (.vbcast d a p)) s [a] [d] LaneSet.simd (fun t f =>
    let v := vBuild f.lane.w (f.regs.rdV d) ((List.range f.lane.n).map (fun i =>
      if valueOn f.lane f.regs p i then some ((f.regs.val a).toNat, f.regs.drossS a) else none))
    .next (s.stepFiring t f (f.regs.wrV d v.val v.dross)))

/-- vins (R380): in a lane of an element in MODE 3 nothing is written (R362). -/
def execVins (d a b : BitVec 5) (s : State) : Res :=
  let w := wordOf (.vins d a b)
  onLane w s [a, b] [d] LaneSet.simd (fun t f =>
    let k := (f.regs.val b).toNat
    if f.regs.drossS b then trapAt s t f 7 w
    else if f.lane.n ≤ k then trapAt s t f 3 w
    else
      let v := vBuild f.lane.w (f.regs.rdV d) ((List.range f.lane.n).map (fun i =>
        if i = k && valueOn f.lane f.regs none i then some ((f.regs.val a).toNat, f.regs.drossS a) else none))
      .next (s.stepFiring t f (f.regs.wrV d v.val v.dross)))

/-- vext (R380). -/
def execVext (d a b : BitVec 5) (s : State) : Res :=
  let w := wordOf (.vext d a b)
  onLane w s [b] [a] LaneSet.simd (fun t f =>
    let k := (f.regs.val b).toNat
    let v := f.regs.rdV a
    if f.regs.drossS b then trapAt s t f 7 w
    else if f.lane.n ≤ k then trapAt s t f 3 w
    else .next (s.stepFiring t f
      (f.regs.wr d (BitVec.ofNat 64 (vGet v.val f.lane.w k)) (vDross v.dross f.lane.w k))))

/-- vperm (R380). -/
def execVperm (d a b : BitVec 5) (p : Option (BitVec 3)) (s : State) : Res :=
  onLane (wordOf (.vperm d a b p)) s [] [d, a, b] anyMode (fun t f =>
    let x := f.regs.rdV a
    let i := f.regs.rdV b
    moveBytes s t f d (laneOn f.regs p) (fun j =>
      let y := x.lane ((i.lane j).1.toNat % 64)
      (y.1, y.2 || (i.lane j).2)))

/-- vrot (R380). -/
def execVrot (d a b : BitVec 5) (p : Option (BitVec 3)) (s : State) : Res :=
  let w := wordOf (.vrot d a b p)
  onLane w s [b] [d, a] anyMode (fun t f =>
    if f.regs.drossS b then trapAt s t f 7 w
    else
      let k := fld (f.regs.val b) 5 0
      moveBytes s t f d (laneOn f.regs p) (fun j => (f.regs.rdV a).lane ((j + 64 - k) % 64)))

/-- vzip (R381): a plane in its 32-byte token form. -/
def execVzip (d a b : BitVec 5) (s : State) : Res :=
  let w := wordOf (.vzip d a b)
  onLane w s [b] [a] anyMode (fun t f =>
    let x := f.regs.val b
    let v := f.regs.rdV a
    if f.regs.drossS b then trapAt s t f 7 w
    else
      let code := fun j => let c := (laneOf v.val j).toNat; if c < 8 then c else 4
      let dig := (List.range 64).foldl (fun n j => n + code j <<< (3 * j)) 0
      let val := BitVec.ofNat 512 (dig + inFld (fld x 7 0) 199 192 + inFld (fld x 15 8) 207 200)
      .next (s.stepFiring t f (f.regs.wrV d val (if v.dross = 0 then 0 else 0xFFFFFFFF))))

/-- vunzip (R381): the codes of a plane token, with dross where the token breaks the rules of R255. A plane token
that breaks them arises as dross of KIND 2 (R275). -/
def execVunzip (d a b : BitVec 5) (s : State) : Res :=
  let w := wordOf (.vunzip d a b)
  onLane w s [b] [a] anyMode (fun t f =>
    let x := f.regs.val b
    let v := f.regs.rdV a
    if f.regs.drossS b then trapAt s t f 7 w
    else
      let pos := (laneOf v.val 25).toNat
      let bad := decide (pos / 16 % 8 ≠ 0) || decide (pos % 16 = 0) || decide (8 < pos % 16) || (List.range 6).any (fun i => laneOf v.val (26 + i) ≠ 0) ||
        decide (pos % 16 ≠ fld x 11 8) || decide ((laneOf v.val 24).toNat ≠ fld x 7 0)
      let old := decide (bitsOf v.dross.toNat 31 0 ≠ 0)
      let g := f.ariseAt 1 2 [bad]
      let val := vOf ((List.range 64).map (fun j => BitVec.ofNat 8 (bitsOf v.val.toNat (3 * j + 2) (3 * j))))
      .next (s.stepFiring t g (f.regs.wrV d val (if bad || old then BitVec.allOnes 64 else 0))))

/-! Grit (R386). -/

/-- The low doubleword of a draw: o1 · 2^32 + o0. -/
def lowDraw (g : BitVec 128) : W64 := g.extractLsb' 0 64

/-- grit (R386). -/
def execGrit (d : BitVec 5) (s : State) : Res :=
  onLane (wordOf (.grit d)) s [] [] anyMode (fun t f =>
    .next (s.stepFiring t { f with gctr := f.gctr + 1 } (f.regs.wr d (lowDraw (s.gritAt f f.gctr)) false)))

/-- gritv (R386). -/
def execGritv (d : BitVec 5) (s : State) : Res :=
  onLane (wordOf (.gritv d)) s [] [] anyMode (fun t f =>
    let g := f.gctr
    let v : V512 := s.gritAt f (g + 3) ++ s.gritAt f (g + 2) ++ s.gritAt f (g + 1) ++ s.gritAt f g
    .next (s.stepFiring t { f with gctr := g + 4 } (f.regs.wrV d v 0)))

/-- gritc (R386): a draw at the counter of a register. -/
def execGritc (d a : BitVec 5) (s : State) : Res :=
  onLane (wordOf (.gritc d a)) s [a] [] anyMode (fun t f =>
    .next (s.stepFiring t f (f.regs.wr d (lowDraw (s.gritAt f (f.regs.val a))) (f.regs.drossS a))))

/-! Sampling (R387, R388). -/

/-- The candidates of R387 with their logits: enabled values that are neither NaN nor −∞, or the +∞ ones alone, with
logit 0. -/
def candidates (vals : List (Nat × XV)) : List (Nat × XV) :=
  let inf := vals.filter (fun x => x.2 = .inf false)
  if inf ≠ [] then inf.map (fun x => (x.1, .fin false 0 0)) else vals.filter (fun x => x.2.isFin)

/-- Puts a candidate into a list that falls in logit and rises in index (R387). -/
def rankIn (c : Nat × XV) : List (Nat × XV) → List (Nat × XV)
  | [] => [c]
  | x :: t => if ltX x.2 c.2 || (eqX x.2 c.2 && decide (c.1 < x.1)) then c :: x :: t else x :: rankIn c t

/-- The rank order (R387). -/
def rankOrder (cs : List (Nat × XV)) : List (Nat × XV) := cs.foldl (fun l c => rankIn c l) []

/-- The candidate of greatest key among those kept, an exact tie going to the lowest index (R387). -/
def choice (h : Nat → Nat) (kept : List (Nat × XV)) : Option Nat :=
  let byIndex := kept.foldl (fun l c => (l.filter (fun x => x.1 < c.1)) ++ [c] ++ l.filter (fun x => c.1 < x.1)) []
  (byIndex.foldl (fun (best : Option (Nat × XV)) c => match best with
    | none => some c
    | some x => if keyGreater (c.2, h c.1) (x.2, h x.1) then some c else some x) none).map (·.1)

/-- A sampling instruction (R388): `keep` takes the rank order to the candidates kept. -/
def sample (w : W64) (s : State) (d a : BitVec 5) (ss : List (BitVec 5)) (p : Option (BitVec 3))
    (keep : Regs → List (Nat × XV) → List (Nat × XV)) : Res :=
  onLane w s ss [a] LaneSet.simd (fun t f =>
    if ss.any f.regs.drossS then trapAt s t f 7 w
    else
      let l := f.lane
      let on := f.onVals p
      let src := f.regs.rdV a
      let vals := on.map (fun i => (i, decodeFmt (l.main (elemOf l.w i)) (vGet src.val l.w i)))
      let (h, g) := s.halfWords f true l.n
      let r := match choice h (keep f.regs (rankOrder (candidates vals))) with
        | some i => BitVec.ofNat 64 i
        | none => BitVec.allOnes 64
      .next (s.stepFiring t g (f.regs.wr d r (on.any (f.srcDross [a])))))

/-- vsmpc (R388). -/
def execVsmpc (d a : BitVec 5) (p : Option (BitVec 3)) (s : State) : Res :=
  sample (wordOf (.vsmpc d a p)) s d a [] p (fun _ l => l)

/-- vsmpk (R388). -/
def execVsmpk (d a b : BitVec 5) (p : Option (BitVec 3)) (s : State) : Res :=
  sample (wordOf (.vsmpk d a b p)) s d a [b] p (fun r l => l.take (min (r.val b).toNat l.length))

/-- The candidates that vsmpn keeps for an FP32 mass P (R388). -/
def nucleus (x : W64) (l : List (Nat × XV)) : List (Nat × XV) :=
  match fp32.decode (fld x 31 0) with
  | .nan => []
  | .inf neg => if neg then [] else l
  | .fin neg m e =>
    if neg || m = 0 then []
    else if !ltX (.fin false m e) (.fin false 1 0) then l
    else
      let all := l.map (·.2)
      let n := ((List.range l.length).find? (fun k => !massBelow (all.take k) all m (-e).toNat)).getD l.length
      l.take n

/-- vsmpn (R388). -/
def execVsmpn (d a b : BitVec 5) (p : Option (BitVec 3)) (s : State) : Res :=
  sample (wordOf (.vsmpn d a b p)) s d a [b] p (fun r l => nucleus (r.val b) l)

end Sys2Proof.Machine
end

