-- ==== Sys2Proof/Machine/Vred.lean ====
section
/-! DEFINITION. The groups VRED and VPRED: reductions (R376), ingots (R377, R378) and predicates (R379). -/

namespace Sys2Proof.Machine

/-- vradd (R376). -/
def execVradd (d a : BitVec 5) (p : Option (BitVec 3)) (s : State) : Res :=
  laneS (wordOf (.vradd d a p)) s d a p isIntFmt (fun w l => BitVec.ofInt 64 ((l.map (sgn (8 * w))).foldl (· + ·) 0))

/-- vrmin (R376). -/
def execVrmin (d a : BitVec 5) (p : Option (BitVec 3)) (s : State) : Res :=
  laneS (wordOf (.vrmin d a p)) s d a p isIntFmt (fun w l => BitVec.ofInt 64 ((l.map (sgn (8 * w))).foldl min (2 ^ (8 * w - 1) - 1)))

/-- vrmax (R376). -/
def execVrmax (d a : BitVec 5) (p : Option (BitVec 3)) (s : State) : Res :=
  laneS (wordOf (.vrmax d a p)) s d a p isIntFmt (fun w l => BitVec.ofInt 64 ((l.map (sgn (8 * w))).foldl max (-(2 ^ (8 * w - 1)))))

/-- vrminu (R376). -/
def execVrminu (d a : BitVec 5) (p : Option (BitVec 3)) (s : State) : Res :=
  laneS (wordOf (.vrminu d a p)) s d a p isIntFmt (fun w l => BitVec.ofNat 64 (l.foldl min (2 ^ (8 * w) - 1)))

/-- vrmaxu (R376). -/
def execVrmaxu (d a : BitVec 5) (p : Option (BitVec 3)) (s : State) : Res :=
  laneS (wordOf (.vrmaxu d a p)) s d a p isIntFmt (fun _ l => BitVec.ofNat 64 (l.foldl max 0))

/-- vrand (R376). -/
def execVrand (d a : BitVec 5) (p : Option (BitVec 3)) (s : State) : Res :=
  laneS (wordOf (.vrand d a p)) s d a p anyFmt (fun w l => BitVec.ofNat 64 (l.foldl (· &&& ·) (2 ^ (8 * w) - 1)))

/-- vror (R376). -/
def execVror (d a : BitVec 5) (p : Option (BitVec 3)) (s : State) : Res :=
  laneS (wordOf (.vror d a p)) s d a p anyFmt (fun _ l => BitVec.ofNat 64 (l.foldl (· ||| ·) 0))

/-- vrxor (R376). -/
def execVrxor (d a : BitVec 5) (p : Option (BitVec 3)) (s : State) : Res :=
  laneS (wordOf (.vrxor d a p)) s d a p anyFmt (fun _ l => BitVec.ofNat 64 (l.foldl (· ^^^ ·) 0))

/-- The lanes of an ingot register. -/
def Firing.ingot (f : Firing) (n : BitVec 5) : Tab Ingot := if n = 0 then f.w0 else f.w1

/-- Sets an ingot register. -/
def Firing.setIngot (f : Firing) (n : BitVec 5) (x : Tab Ingot) : Firing :=
  if n = 0 then { f with w0 := x } else { f with w1 := x }

/-- wadd (R377, R273): each enabled value is added exactly into the lane of its element. -/
def execWadd (d a : BitVec 5) (p : Option (BitVec 3)) (s : State) : Res :=
  let w := wordOf (.wadd d a p)
  onLane w s [] [a] LaneSet.simd (fun t f =>
    if !f.classOk p isFloatFmt then trapAt s t f 3 w
    else
      let l := f.lane
      let src := f.regs.rdV a
      let x := (f.onVals p).foldl (fun x i =>
        let e := elemOf l.w i
        Tab.put {} x e ((Tab.get {} x e).add (decodeFmt (l.main e) (vGet src.val l.w i)) (vDross src.dross l.w i)))
        (f.ingot d)
      .next (s.stepFiring t (f.setIngot d x) f.regs))

/-- wrd (R378, R274). -/
def execWrd (d a : BitVec 5) (p : Option (BitVec 3)) (s : State) : Res :=
  let w := wordOf (.wrd d a p)
  onLane w s [] [d] LaneSet.simd (fun t f =>
    let l := f.lane
    let (h, g) := s.halfWords f (l.drawsIn allElts) 16
    let res := allElts.map (fun n =>
      if laneOn f.regs p (4 * n) && !(n = 15 && l.mode 15 = 3) then
        let x := Tab.get {} (f.ingot a) n
        some (x.readOut (l.rnd n) (l.sat n) (h n), x.dross)
      else none)
    let fl := (res.filterMap id).foldl (fun x c => x ||| c.1.flags) 0
    let v := vBuild 4 (f.regs.rdV d) (res.map (Option.map (fun c => (c.1.code, c.2))))
    .next (s.stepFiring t (g.flag fl) (f.regs.wrV d v.val v.dross)))

/-- wclr (R378). -/
def execWclr (d : BitVec 5) (p : Option (BitVec 3)) (s : State) : Res :=
  onLane (wordOf (.wclr d p)) s [] [] anyMode (fun t f =>
    let x := allElts.foldl (fun x n => if laneOn f.regs p (4 * n) then Tab.erase x n else x) (f.ingot d)
    .next (s.stepFiring t (f.setIngot d x) f.regs))

/-- wcpy (R378): a copy, or the exact sum of the lanes in lane 0. -/
def execWcpy (d a m : BitVec 5) (s : State) : Res :=
  let w := wordOf (.wcpy d a m)
  onLane w s [] [] anyMode (fun t f =>
    if m = 0 then .next (s.stepFiring t (f.setIngot d (f.ingot a)) f.regs)
    else if m = 1 then
      let sum := allElts.foldl (fun x n => x.join (Tab.get {} (f.ingot a) n)) {}
      .next (s.stepFiring t (f.setIngot d (Tab.put {} [] 0 sum)) f.regs)
    else trapAt s t f 3 w)

/-! Predicates (R379): they need no mode and run on a drained array too (R418). -/

/-- A predicate of predicates. -/
def onPred (s : State) (d : BitVec 5) (k : Regs → W64) : Res :=
  onSeq s [] [] (fun t f => .next (s.stepFiring t f (f.regs.wrP d.toNat (k f.regs))))

/-- A scalar of a predicate, clean. -/
def fromPred (s : State) (d a : BitVec 5) (k : W64 → W64) : Res :=
  onSeq s [] [] (fun t f => .next (s.stepFiring t f (f.regs.wr d (k (f.regs.rdP a.toNat)) false)))

/-- pand (R379). -/
def execPand (d a b : BitVec 5) (s : State) : Res := onPred s d (fun r => r.rdP a.toNat &&& r.rdP b.toNat)

/-- por (R379). -/
def execPor (d a b : BitVec 5) (s : State) : Res := onPred s d (fun r => r.rdP a.toNat ||| r.rdP b.toNat)

/-- pxor (R379). -/
def execPxor (d a b : BitVec 5) (s : State) : Res := onPred s d (fun r => r.rdP a.toNat ^^^ r.rdP b.toNat)

/-- pandn (R379). -/
def execPandn (d a b : BitVec 5) (s : State) : Res := onPred s d (fun r => r.rdP a.toNat &&& ~~~r.rdP b.toNat)

/-- pnot (R379). -/
def execPnot (d a : BitVec 5) (s : State) : Res := onPred s d (fun r => ~~~r.rdP a.toNat)

/-- pset (R379). -/
def execPset (d : BitVec 5) (s : State) : Res := onPred s d (fun _ => BitVec.allOnes 64)

/-- pclr (R379). -/
def execPclr (d : BitVec 5) (s : State) : Res := onPred s d (fun _ => 0)

/-- pmovs (R379): a source with dross raises DROSSUSE. -/
def execPmovs (d a : BitVec 5) (s : State) : Res :=
  onSeq s [a] [] (fun t f =>
    if f.regs.drossS a then trapAt s t f 7 (wordOf (.pmovs d a))
    else .next (s.stepFiring t f (f.regs.wrP d.toNat (f.regs.val a))))

/-- pmovd (R379). -/
def execPmovd (d a : BitVec 5) (s : State) : Res := fromPred s d a id

/-- pfirst (R379): the index of the lowest 1 bit, or 64. -/
def execPfirst (d a : BitVec 5) (s : State) : Res :=
  fromPred s d a (fun x => BitVec.ofNat 64 (((List.range 64).find? (fun i => x.getLsbD i)).getD 64))

/-- pcnt (R379). -/
def execPcnt (d a : BitVec 5) (s : State) : Res :=
  fromPred s d a (fun x => BitVec.ofNat 64 ((List.range 64).filter (fun i => x.getLsbD i)).length)

end Sys2Proof.Machine
end

