-- ==== Sys2Proof/Machine/Dispatch.lean ====
section
/-! DEFINITION. One arm for each constructor of Instr: a direct call of its meaning. -/

namespace Sys2Proof.Machine

def exec (i : Instr) (s : State) : Host.Outcome State Fault Refusal :=
  match i with
  | .add d a b => Sys2Proof.Machine.execAdd d a b s
  | .sub d a b => Sys2Proof.Machine.execSub d a b s
  | .and d a b => Sys2Proof.Machine.execAnd d a b s
  | .or d a b => Sys2Proof.Machine.execOr d a b s
  | .xor d a b => Sys2Proof.Machine.execXor d a b s
  | .sll d a b => Sys2Proof.Machine.execSll d a b s
  | .srl d a b => Sys2Proof.Machine.execSrl d a b s
  | .sra d a b => Sys2Proof.Machine.execSra d a b s
  | .rol d a b => Sys2Proof.Machine.execRol d a b s
  | .ror d a b => Sys2Proof.Machine.execRor d a b s
  | .slt d a b => Sys2Proof.Machine.execSlt d a b s
  | .sltu d a b => Sys2Proof.Machine.execSltu d a b s
  | .min d a b => Sys2Proof.Machine.execMin d a b s
  | .max d a b => Sys2Proof.Machine.execMax d a b s
  | .minu d a b => Sys2Proof.Machine.execMinu d a b s
  | .maxu d a b => Sys2Proof.Machine.execMaxu d a b s
  | .mul d a b => Sys2Proof.Machine.execMul d a b s
  | .mulh d a b => Sys2Proof.Machine.execMulh d a b s
  | .mulhu d a b => Sys2Proof.Machine.execMulhu d a b s
  | .div d a b => Sys2Proof.Machine.execDiv d a b s
  | .divu d a b => Sys2Proof.Machine.execDivu d a b s
  | .rem d a b => Sys2Proof.Machine.execRem d a b s
  | .remu d a b => Sys2Proof.Machine.execRemu d a b s
  | .andn d a b => Sys2Proof.Machine.execAndn d a b s
  | .clz d a => Sys2Proof.Machine.execClz d a s
  | .ctz d a => Sys2Proof.Machine.execCtz d a s
  | .popc d a => Sys2Proof.Machine.execPopc d a s
  | .sextb d a => Sys2Proof.Machine.execSextb d a s
  | .sexth d a => Sys2Proof.Machine.execSexth d a s
  | .sextw d a => Sys2Proof.Machine.execSextw d a s
  | .addw d a b => Sys2Proof.Machine.execAddw d a b s
  | .subw d a b => Sys2Proof.Machine.execSubw d a b s
  | .addi d a im => Sys2Proof.Machine.execAddi d a im s
  | .andi d a im => Sys2Proof.Machine.execAndi d a im s
  | .ori d a im => Sys2Proof.Machine.execOri d a im s
  | .xori d a im => Sys2Proof.Machine.execXori d a im s
  | .slti d a im => Sys2Proof.Machine.execSlti d a im s
  | .sltiu d a im => Sys2Proof.Machine.execSltiu d a im s
  | .lui d im => Sys2Proof.Machine.execLui d im s
  | .slli d a n => Sys2Proof.Machine.execSlli d a n s
  | .srli d a n => Sys2Proof.Machine.execSrli d a n s
  | .srai d a n => Sys2Proof.Machine.execSrai d a n s
  | .roli d a n => Sys2Proof.Machine.execRoli d a n s
  | .beq b a o => Sys2Proof.Machine.execBeq b a o s
  | .bne b a o => Sys2Proof.Machine.execBne b a o s
  | .blt b a o => Sys2Proof.Machine.execBlt b a o s
  | .bge b a o => Sys2Proof.Machine.execBge b a o s
  | .bltu b a o => Sys2Proof.Machine.execBltu b a o s
  | .bgeu b a o => Sys2Proof.Machine.execBgeu b a o s
  | .jal d o => Sys2Proof.Machine.execJal d o s
  | .jalr d a im => Sys2Proof.Machine.execJalr d a im s
  | .nop => Sys2Proof.Machine.execNop s
  | .commit => Sys2Proof.Machine.execCommit s
  | .yield => Sys2Proof.Machine.execYield s
  | .aend => Sys2Proof.Machine.execAend s
  | .trap a => Sys2Proof.Machine.execTrap a s
  | .ldepth d => Sys2Proof.Machine.execLdepth d s
  | .csrr d c => Sys2Proof.Machine.execCsrr d c s
  | .csrw d a c => Sys2Proof.Machine.execCsrw d a c s
  | .csrs d a c => Sys2Proof.Machine.execCsrs d a c s
  | .csrc d a c => Sys2Proof.Machine.execCsrc d a c s
  | .lb d a o k => Sys2Proof.Machine.execLb d a o k s
  | .lh d a o k => Sys2Proof.Machine.execLh d a o k s
  | .lw d a o k => Sys2Proof.Machine.execLw d a o k s
  | .ld d a o k => Sys2Proof.Machine.execLd d a o k s
  | .lbz d a o k => Sys2Proof.Machine.execLbz d a o k s
  | .lhz d a o k => Sys2Proof.Machine.execLhz d a o k s
  | .lwz d a o k => Sys2Proof.Machine.execLwz d a o k s
  | .sb d a o k => Sys2Proof.Machine.execSb d a o k s
  | .sh d a o k => Sys2Proof.Machine.execSh d a o k s
  | .sw d a o k => Sys2Proof.Machine.execSw d a o k s
  | .sd d a o k => Sys2Proof.Machine.execSd d a o k s
  | .lgb d a o k => Sys2Proof.Machine.execLgb d a o k s
  | .lgh d a o k => Sys2Proof.Machine.execLgh d a o k s
  | .lgw d a o k => Sys2Proof.Machine.execLgw d a o k s
  | .lgd d a o k => Sys2Proof.Machine.execLgd d a o k s
  | .lgbz d a o k => Sys2Proof.Machine.execLgbz d a o k s
  | .lghz d a o k => Sys2Proof.Machine.execLghz d a o k s
  | .lgwz d a o k => Sys2Proof.Machine.execLgwz d a o k s
  | .sgb d a o k => Sys2Proof.Machine.execSgb d a o k s
  | .sgh d a o k => Sys2Proof.Machine.execSgh d a o k s
  | .sgw d a o k => Sys2Proof.Machine.execSgw d a o k s
  | .sgd d a o k => Sys2Proof.Machine.execSgd d a o k s
  | .vl d a o k => Sys2Proof.Machine.execVl d a o k s
  | .vs d a o k => Sys2Proof.Machine.execVs d a o k s
  | .vlg d a o k => Sys2Proof.Machine.execVlg d a o k s
  | .vsg d a o k => Sys2Proof.Machine.execVsg d a o k s
  | .recv d n => Sys2Proof.Machine.execRecv d n s
  | .recvv d n => Sys2Proof.Machine.execRecvv d n s
  | .peek d a n => Sys2Proof.Machine.execPeek d a n s
  | .peekv d a n => Sys2Proof.Machine.execPeekv d a n s
  | .send a n => Sys2Proof.Machine.execSend a n s
  | .sendv a n => Sys2Proof.Machine.execSendv a n s
  | .sendn a n => Sys2Proof.Machine.execSendn a n s
  | .sendm d a n => Sys2Proof.Machine.execSendm d a n s
  | .sendmv d a n => Sys2Proof.Machine.execSendmv d a n s
  | .chcnt d n => Sys2Proof.Machine.execChcnt d n s
  | .chfree d n => Sys2Proof.Machine.execChfree d n s
  | .aadd d a b k => Sys2Proof.Machine.execAadd d a b k s
  | .aand d a b k => Sys2Proof.Machine.execAand d a b k s
  | .aor d a b k => Sys2Proof.Machine.execAor d a b k s
  | .axor d a b k => Sys2Proof.Machine.execAxor d a b k s
  | .amin d a b k => Sys2Proof.Machine.execAmin d a b k s
  | .amax d a b k => Sys2Proof.Machine.execAmax d a b k s
  | .aminu d a b k => Sys2Proof.Machine.execAminu d a b k s
  | .amaxu d a b k => Sys2Proof.Machine.execAmaxu d a b k s
  | .aswap d a b k => Sys2Proof.Machine.execAswap d a b k s
  | .acas d a b k => Sys2Proof.Machine.execAcas d a b k s
  | .fence sc m => Sys2Proof.Machine.execFence sc m s
  | .bar n => Sys2Proof.Machine.execBar n s
  | .subs a => Sys2Proof.Machine.execSubs a s
  | .unsubs a => Sys2Proof.Machine.execUnsubs a s
  | .vadd d a b p => Sys2Proof.Machine.execVadd d a b p s
  | .vsub d a b p => Sys2Proof.Machine.execVsub d a b p s
  | .vmul d a b p => Sys2Proof.Machine.execVmul d a b p s
  | .vmulh d a b p => Sys2Proof.Machine.execVmulh d a b p s
  | .vmulhu d a b p => Sys2Proof.Machine.execVmulhu d a b p s
  | .vand d a b p => Sys2Proof.Machine.execVand d a b p s
  | .vor d a b p => Sys2Proof.Machine.execVor d a b p s
  | .vxor d a b p => Sys2Proof.Machine.execVxor d a b p s
  | .vandn d a b p => Sys2Proof.Machine.execVandn d a b p s
  | .vnot d a p => Sys2Proof.Machine.execVnot d a p s
  | .vsll d a b p => Sys2Proof.Machine.execVsll d a b p s
  | .vsrl d a b p => Sys2Proof.Machine.execVsrl d a b p s
  | .vsra d a b p => Sys2Proof.Machine.execVsra d a b p s
  | .vmin d a b p => Sys2Proof.Machine.execVmin d a b p s
  | .vmax d a b p => Sys2Proof.Machine.execVmax d a b p s
  | .vminu d a b p => Sys2Proof.Machine.execVminu d a b p s
  | .vmaxu d a b p => Sys2Proof.Machine.execVmaxu d a b p s
  | .vabs d a p => Sys2Proof.Machine.execVabs d a p s
  | .vneg d a p => Sys2Proof.Machine.execVneg d a p s
  | .vceq d a b p => Sys2Proof.Machine.execVceq d a b p s
  | .vclt d a b p => Sys2Proof.Machine.execVclt d a b p s
  | .vcltu d a b p => Sys2Proof.Machine.execVcltu d a b p s
  | .vcle d a b p => Sys2Proof.Machine.execVcle d a b p s
  | .vcleu d a b p => Sys2Proof.Machine.execVcleu d a b p s
  | .vsel d a b p => Sys2Proof.Machine.execVsel d a b p s
  | .vfadd d a b p => Sys2Proof.Machine.execVfadd d a b p s
  | .vfsub d a b p => Sys2Proof.Machine.execVfsub d a b p s
  | .vfmul d a b p => Sys2Proof.Machine.execVfmul d a b p s
  | .vfdiv d a b p => Sys2Proof.Machine.execVfdiv d a b p s
  | .vfma d a b p => Sys2Proof.Machine.execVfma d a b p s
  | .vfms d a b p => Sys2Proof.Machine.execVfms d a b p s
  | .vfnma d a b p => Sys2Proof.Machine.execVfnma d a b p s
  | .vfsqrt d a p => Sys2Proof.Machine.execVfsqrt d a p s
  | .vfmin d a b p => Sys2Proof.Machine.execVfmin d a b p s
  | .vfmax d a b p => Sys2Proof.Machine.execVfmax d a b p s
  | .vfabs d a p => Sys2Proof.Machine.execVfabs d a p s
  | .vfneg d a p => Sys2Proof.Machine.execVfneg d a p s
  | .vfceq d a b p => Sys2Proof.Machine.execVfceq d a b p s
  | .vfclt d a b p => Sys2Proof.Machine.execVfclt d a b p s
  | .vfcle d a b p => Sys2Proof.Machine.execVfcle d a b p s
  | .vfclass d a p => Sys2Proof.Machine.execVfclass d a p s
  | .vcvta d a q p => Sys2Proof.Machine.execVcvta d a q p s
  | .vcvtm d a q p => Sys2Proof.Machine.execVcvtm d a q p s
  | .vcvts d a b p => Sys2Proof.Machine.execVcvts d a b p s
  | .vmxe d a q => Sys2Proof.Machine.execVmxe d a q s
  | .vmxd d a q => Sys2Proof.Machine.execVmxd d a q s
  | .vsde d a => Sys2Proof.Machine.execVsde d a s
  | .vsdd d a => Sys2Proof.Machine.execVsdd d a s
  | .vradd d a p => Sys2Proof.Machine.execVradd d a p s
  | .vrmin d a p => Sys2Proof.Machine.execVrmin d a p s
  | .vrmax d a p => Sys2Proof.Machine.execVrmax d a p s
  | .vrminu d a p => Sys2Proof.Machine.execVrminu d a p s
  | .vrmaxu d a p => Sys2Proof.Machine.execVrmaxu d a p s
  | .vrand d a p => Sys2Proof.Machine.execVrand d a p s
  | .vror d a p => Sys2Proof.Machine.execVror d a p s
  | .vrxor d a p => Sys2Proof.Machine.execVrxor d a p s
  | .wadd d a p => Sys2Proof.Machine.execWadd d a p s
  | .wrd d a p => Sys2Proof.Machine.execWrd d a p s
  | .wclr d p => Sys2Proof.Machine.execWclr d p s
  | .wcpy d a f => Sys2Proof.Machine.execWcpy d a f s
  | .pand d a b => Sys2Proof.Machine.execPand d a b s
  | .por d a b => Sys2Proof.Machine.execPor d a b s
  | .pxor d a b => Sys2Proof.Machine.execPxor d a b s
  | .pandn d a b => Sys2Proof.Machine.execPandn d a b s
  | .pnot d a => Sys2Proof.Machine.execPnot d a s
  | .pset d => Sys2Proof.Machine.execPset d s
  | .pclr d => Sys2Proof.Machine.execPclr d s
  | .pmovs d a => Sys2Proof.Machine.execPmovs d a s
  | .pmovd d a => Sys2Proof.Machine.execPmovd d a s
  | .pfirst d a => Sys2Proof.Machine.execPfirst d a s
  | .pcnt d a => Sys2Proof.Machine.execPcnt d a s
  | .vsgo a => Sys2Proof.Machine.execVsgo a s
  | .vswt => Sys2Proof.Machine.execVswt s
  | .vsdadd d a b => Sys2Proof.Machine.execVsdadd d a b s
  | .vsdsub d a b => Sys2Proof.Machine.execVsdsub d a b s
  | .vsdmul d a b => Sys2Proof.Machine.execVsdmul d a b s
  | .vsdcut d a m => Sys2Proof.Machine.execVsdcut d a m s
  | .vsdcmp d a b => Sys2Proof.Machine.execVsdcmp d a b s
  | .vjoin d a b => Sys2Proof.Machine.execVjoin d a b s
  | .vjoinu d a b => Sys2Proof.Machine.execVjoinu d a b s
  | .grit d => Sys2Proof.Machine.execGrit d s
  | .gritv d => Sys2Proof.Machine.execGritv d s
  | .gritc d a => Sys2Proof.Machine.execGritc d a s
  | .vsmpc d a p => Sys2Proof.Machine.execVsmpc d a p s
  | .vsmpk d a b p => Sys2Proof.Machine.execVsmpk d a b p s
  | .vsmpn d a b p => Sys2Proof.Machine.execVsmpn d a b p s
  | .vmov d a p => Sys2Proof.Machine.execVmov d a p s
  | .vbcast d a p => Sys2Proof.Machine.execVbcast d a p s
  | .vins d a b => Sys2Proof.Machine.execVins d a b s
  | .vext d a b => Sys2Proof.Machine.execVext d a b s
  | .vperm d a b p => Sys2Proof.Machine.execVperm d a b p s
  | .vrot d a b p => Sys2Proof.Machine.execVrot d a b p s
  | .vzip d a b => Sys2Proof.Machine.execVzip d a b s
  | .vunzip d a b => Sys2Proof.Machine.execVunzip d a b s
  | .sclaim h => Sys2Proof.Machine.execSclaim h s
  | .srel h => Sys2Proof.Machine.execSrel h s
  | .mctx c h => Sys2Proof.Machine.execMctx c h s
  | .mrow c a b => Sys2Proof.Machine.execMrow c a b s
  | .mrowc c n b => Sys2Proof.Machine.execMrowc c n b s
  | .mrep c r b => Sys2Proof.Machine.execMrep c r b s
  | .mzero c => Sys2Proof.Machine.execMzero c s
  | .mdrain c a b => Sys2Proof.Machine.execMdrain c a b s
  | .mwait => Sys2Proof.Machine.execMwait s
  | .tsld d a => Sys2Proof.Machine.execTsld d a s
  | .tsst d a => Sys2Proof.Machine.execTsst d a s
  | .tsmv d a b => Sys2Proof.Machine.execTsmv d a b s
  | .tsslot h a => Sys2Proof.Machine.execTsslot h a s
  | .slotts h a => Sys2Proof.Machine.execSlotts h a s
  | .hrts d a b => Sys2Proof.Machine.execHrts d a b s
  | .tshr d a b => Sys2Proof.Machine.execTshr d a b s
  | .sarm a => Sys2Proof.Machine.execSarm a s
  | .sdis a => Sys2Proof.Machine.execSdis a s
  | .sbind a => Sys2Proof.Machine.execSbind a s
  | .sunbind a => Sys2Proof.Machine.execSunbind a s
  | .skick d a => Sys2Proof.Machine.execSkick d a s
  | .swait a => Sys2Proof.Machine.execSwait a s
  | .brd d a b => Sys2Proof.Machine.execBrd d a b s
  | .bwr d a b => Sys2Proof.Machine.execBwr d a b s
  | .bfill d a b => Sys2Proof.Machine.execBfill d a b s
  | .mbrel a => Sys2Proof.Machine.execMbrel a s
  | .cfgld k a => Sys2Proof.Machine.execCfgld k a s
  | .cfgdrn => Sys2Proof.Machine.execCfgdrn s
  | .cfgset c a => Sys2Proof.Machine.execCfgset c a s
  | .cfgrun => Sys2Proof.Machine.execCfgrun s
  | .launch d a b => Sys2Proof.Machine.execLaunch d a b s
  | .compat m x => Sys2Proof.Machine.execCompat m x s
  | .illegalInstruction w => Sys2Proof.Machine.execIllegalInstruction w s
  | .powerOnReset => Sys2Proof.Machine.execPowerOnReset s
  | .limitReset code => Sys2Proof.Machine.execLimitReset code s
  | .perst => Sys2Proof.Machine.execPerst s
  | .mreset r => Sys2Proof.Machine.execMreset r s
  | .fwhalt r => Sys2Proof.Machine.execFwhalt r s
  | .functionReset link fn => Sys2Proof.Machine.execFunctionReset link fn s
  | .linkReset link => Sys2Proof.Machine.execLinkReset link s
  | .linkdown l => Sys2Proof.Machine.execLinkdown l s
  | .coolingWarning => Sys2Proof.Machine.execCoolingWarning s
  | .coolingCap => Sys2Proof.Machine.execCoolingCap s
  | .coolingCapClear => Sys2Proof.Machine.execCoolingCapClear s
  | .coolingShutdown => Sys2Proof.Machine.execCoolingShutdown s
  | .coolingRecovery found => Sys2Proof.Machine.execCoolingRecovery found s
  | .loadfw r blk => Sys2Proof.Machine.execLoadfw r blk s
  | .worldreq r blk => Sys2Proof.Machine.execWorldreq r blk s
  | .enrol r blk => Sys2Proof.Machine.execEnrol r blk s
  | .svnraise r blk => Sys2Proof.Machine.execSvnraise r blk s
  | .mailboxBadcmd r => Sys2Proof.Machine.execMailboxBadcmd r s
  | .mailboxDone => Sys2Proof.Machine.execMailboxDone s
  | .firmwareStart modes expanders => Sys2Proof.Machine.execFirmwareStart modes expanders s
  | .bringupComplete found worlds linkPorts svBase svLen => Sys2Proof.Machine.execBringupComplete found worlds linkPorts svBase svLen s
  | .spdmMeasurement nonce => Sys2Proof.Machine.execSpdmMeasurement nonce s
  | .registerWrite r => Sys2Proof.Machine.execRegisterWrite r s
  | .poisonedRegisterWrite who off data => Sys2Proof.Machine.execPoisonedRegisterWrite who off data s
  | .qtailWrite r => Sys2Proof.Machine.execQtailWrite r s
  | .queueEnable r => Sys2Proof.Machine.execQueueEnable r s
  | .queueDisable r => Sys2Proof.Machine.execQueueDisable r s
  | .qctlKill r => Sys2Proof.Machine.execQctlKill r s
  | .qctlReset r => Sys2Proof.Machine.execQctlReset r s
  | .recordFetch q x => Sys2Proof.Machine.execRecordFetch q x s
  | .imageVerify job ext => Sys2Proof.Machine.execImageVerify job ext s
  | .dispatchDecision => Sys2Proof.Machine.execDispatchDecision s
  | .configLoadDone job ext => Sys2Proof.Machine.execConfigLoadDone job ext s
  | .weldWavefront job x => Sys2Proof.Machine.execWeldWavefront job x s
  | .quenchMarker job x => Sys2Proof.Machine.execQuenchMarker job x s
  | .quenchComplete job => Sys2Proof.Machine.execQuenchComplete job s
  | .graphEnd job => Sys2Proof.Machine.execGraphEnd job s
  | .deadlockDetect job => Sys2Proof.Machine.execDeadlockDetect job s
  | .jobRetire job => Sys2Proof.Machine.execJobRetire job s
  | .klrefill r => Sys2Proof.Machine.execKlrefill r s
  | .leaseAdd r => Sys2Proof.Machine.execLeaseAdd r s
  | .energyCharge block job x => Sys2Proof.Machine.execEnergyCharge block job x s
  | .thermalRead block celsius => Sys2Proof.Machine.execThermalRead block celsius s
  | .thermalStep block => Sys2Proof.Machine.execThermalStep block s
  | .powerWindow watts => Sys2Proof.Machine.execPowerWindow watts s
  | .barrierPass job alloy bar => Sys2Proof.Machine.execBarrierPass job alloy bar s
  | .moveStateCopy src => Sys2Proof.Machine.execMoveStateCopy src s
  | .moveRetarget src => Sys2Proof.Machine.execMoveRetarget src s
  | .moveAbandon src => Sys2Proof.Machine.execMoveAbandon src s
  | .relocationMarker port x => Sys2Proof.Machine.execRelocationMarker port x s
  | .ageingMeasure block drift age => Sys2Proof.Machine.execAgeingMeasure block drift age s
  | .firingBoundary tile => Sys2Proof.Machine.execFiringBoundary tile s
  | .tokenArrival job chan x => Sys2Proof.Machine.execTokenArrival job chan x s
  | .endMark job x => Sys2Proof.Machine.execEndMark job x s
  | .commitContinue tile => Sys2Proof.Machine.execCommitContinue tile s
  | .uncorrectableError tile x => Sys2Proof.Machine.execUncorrectableError tile x s
  | .tileScrub tile found => Sys2Proof.Machine.execTileScrub tile found s
  | .slotClaimGrant tile => Sys2Proof.Machine.execSlotClaimGrant tile s
  | .rowFiring tile ctx mismatch => Sys2Proof.Machine.execRowFiring tile ctx mismatch s
  | .repeatGroup job aid node => Sys2Proof.Machine.execRepeatGroup job aid node s
  | .laneElementFire tile elem => Sys2Proof.Machine.execLaneElementFire tile elem s
  | .streamRunDone tile => Sys2Proof.Machine.execStreamRunDone tile s
  | .siltCopyStart port => Sys2Proof.Machine.execSiltCopyStart port s
  | .boundKick port template => Sys2Proof.Machine.execBoundKick port template s
  | .kickRegisterWrite who off data => Sys2Proof.Machine.execKickRegisterWrite who off data s
  | .mailboxEvent job cxid => Sys2Proof.Machine.execMailboxEvent job cxid s
  | .mptrcRead who x => Sys2Proof.Machine.execMptrcRead who x s
  | .memportRead port req => Sys2Proof.Machine.execMemportRead port req s
  | .memportWrite port req => Sys2Proof.Machine.execMemportWrite port req s
  | .memportNull port req => Sys2Proof.Machine.execMemportNull port req s
  | .memportPerform port req x => Sys2Proof.Machine.execMemportPerform port req x s
  | .replyRelease port req => Sys2Proof.Machine.execReplyRelease port req s
  | .requesterEnd port req => Sys2Proof.Machine.execRequesterEnd port req s
  | .baseDieScrub granule found => Sys2Proof.Machine.execBaseDieScrub granule found s
  | .expanderFail link expander => Sys2Proof.Machine.execExpanderFail link expander s
  | .globalAccessPerform id => Sys2Proof.Machine.execGlobalAccessPerform id s
  | .ticketRetry r => Sys2Proof.Machine.execTicketRetry r s
  | .ticketFail r => Sys2Proof.Machine.execTicketFail r s
  | .fluxStart r => Sys2Proof.Machine.execFluxStart r s
  | .fluxEmerge x => Sys2Proof.Machine.execFluxEmerge x s
  | .atsInvalidate link pasid va size => Sys2Proof.Machine.execAtsInvalidate link pasid va size s
  | .atsTranslationResponse id addr writable => Sys2Proof.Machine.execAtsTranslationResponse id addr writable s
  | .priResponse id ok => Sys2Proof.Machine.execPriResponse id ok s
  | .streamElementIssue job stream => Sys2Proof.Machine.execStreamElementIssue job stream s
  | .streamElementComplete job stream elem => Sys2Proof.Machine.execStreamElementComplete job stream elem s
  | .hostBar2Read link off n => Sys2Proof.Machine.execHostBar2Read link off n s
  | .hostBar2Write link off data poison => Sys2Proof.Machine.execHostBar2Write link off data poison s
  | .peerInboundRead peer addr n cls => Sys2Proof.Machine.execPeerInboundRead peer addr n cls s
  | .peerInboundWrite peer addr cls data poison => Sys2Proof.Machine.execPeerInboundWrite peer addr cls data poison s
  | .peerInboundAtomic peer addr cls op data cmp poison => Sys2Proof.Machine.execPeerInboundAtomic peer addr cls op data cmp poison s
  | .peerDomainFence peer mask => Sys2Proof.Machine.execPeerDomainFence peer mask s
  | .peerResponse id epoch data poison error => Sys2Proof.Machine.execPeerResponse id epoch data poison error s
  | .requestExpire id => Sys2Proof.Machine.execRequestExpire id s
  | .outboundRequestSend id => Sys2Proof.Machine.execOutboundRequestSend id s
  | .peerActivate r => Sys2Proof.Machine.execPeerActivate r s
  | .peerDisable r => Sys2Proof.Machine.execPeerDisable r s
  | .linkPortEnable r => Sys2Proof.Machine.execLinkPortEnable r s
  | .linkPortDisable r => Sys2Proof.Machine.execLinkPortDisable r s
  | .reduceContribution job stream => Sys2Proof.Machine.execReduceContribution job stream s
  | .reduceResult job stream others => Sys2Proof.Machine.execReduceResult job stream others s
  | .assayRun block => Sys2Proof.Machine.execAssayRun block s
  | .assayComplete block lasting drift age => Sys2Proof.Machine.execAssayComplete block lasting drift age s
  | .worldTableWrite r => Sys2Proof.Machine.execWorldTableWrite r s
  | .plotWorldChange plot => Sys2Proof.Machine.execPlotWorldChange plot s
  | .regionWorldChange region => Sys2Proof.Machine.execRegionWorldChange region s
  | .moduleLeavesReset => Sys2Proof.Machine.execModuleLeavesReset s
  | .linkTrained l lanes rate atomics ats => Sys2Proof.Machine.execLinkTrained l lanes rate atomics ats s
  | .hostCompletion id data status => Sys2Proof.Machine.execHostCompletion id data status s

end Sys2Proof.Machine
end

