-- ==== Sys2Proof/Machine/Step.lean ====
section
/-! DEFINITION. One step of the part: the next turn of the agenda, or an instruction of the agent in focus. -/

namespace Sys2Proof.Machine

/-- An instruction of the agent in focus: the sequencer fetches from its actor's code (R340) and an engine from
its microcode (R201). An agent with nothing to run leaves the state as it is. -/
def runFocus (s : State) : Host.Outcome State Fault Refusal :=
  match s.fetch with
  | .idle => .next s
  | .outside s' => .next s'
  | .word bs =>
    match decodeBytes bs with
    | .ok (i, _) => exec i s
    | .error _ => exec (.illegalInstruction (fetched bs)) s

/-- One step. -/
def step (s : State) : Host.Outcome State Fault Refusal :=
  match s.agenda with
  | [] => runFocus s
  | .run a :: rest => runFocus { s with agenda := rest, focus := a }
  | .event i :: rest => exec i { s with agenda := rest }

/-- The state in which the next step fetches a given word: tile 0 runs a firing of an actor whose code holds the
word at its program counter. It stands for the loading of a graph and the start of a firing.
DESIGN CHOICE, notes/assumptions/4.md -/
def State.withFetchWord (s : State) (_nbits w : Nat) : State :=
  s.placeWord (bytesOfWord (BitVec.ofNat 32 w))

end Sys2Proof.Machine
end

