-- ==== Sys2Proof/Safety.lean ====
section
/-! DEFINITION. What the claims call a safe run: a step that answers a next state, and the form of the state that
every step keeps. -/

namespace Sys2Proof.Machine

/-- A step of the part from one state to the next. -/
def Steps (s t : State) : Prop := step s = .next t

/-- The run of any number of steps. -/
inductive Runs : State → State → Prop
  | refl (s : State) : Runs s s
  | tail {s t u : State} : Runs s t → Steps t u → Runs s u

/-- A property that every step keeps, from any state that has it. -/
def Kept (p : State → Prop) : Prop := ∀ s t, p s → Steps s t → p t

/-- Physical memory is in canonical form. -/
def memOk (s : State) : Prop := s.mem.wf = true

end Sys2Proof.Machine
end

