-- ==== Sys2Proof/WellFormed.lean ====
section
/-! DEFINITION. Which instructions and events are well formed: register numbers within their files (R310,
R313), and event arguments within the part's own counts. -/

namespace Sys2Proof

/-- A tile number, 64 · y + x (R11). -/
def okTile (t : Nat) : Bool := decide (t < 4096)
/-- A port-tile index (R13). -/
def okPort (p : Nat) : Bool := decide (p < 256)
/-- A block index (R298). -/
def okBlock (b : Nat) : Bool := decide (b < 4352)
/-- A block with its DRIFT (R140). -/
def okDrift (m : Nat × Nat) : Bool := okBlock m.1 && decide (m.2 ≤ 255)
/-- A hardware queue (R67). -/
def okQueue (q : Nat) : Bool := decide (q < 4096)
/-- A peer (R21). -/
def okPeer (q : Nat) : Bool := decide (q < 4096)
/-- A host link (R14). -/
def okLink (l : Nat) : Bool := decide (l < 4)
/-- A requester number (R40). -/
def okReq (r : Nat) : Bool := decide (r < 64)
/-- A UALink port or host link (R14). -/
def okLinkId : LinkId → Bool
  | .ual n => decide (n < 48)
  | .host n => decide (n < 4)
/-- A requester of a register access (R18, R19, R21). -/
def okWho : Who → Bool
  | .pf l => okLink l
  | .vf l f => okLink l && decide (1 ≤ f) && decide (f ≤ 63)
  | .secure => true
  | .actor _ => true
  | .peer q => okPeer q
/-- A register write of 4 or 8 bytes within the 8 MiB space (R59). -/
def okReg (r : RegReq) : Bool :=
  okWho r.who && (r.size == 4 || r.size == 8) && decide (r.off % r.size = 0) && decide (r.off + r.size ≤ 0x800000)

/-- Whether an instruction or event is well formed. -/
def WellFormed (i : Instr) : Bool :=
  match i with
  | .fence s _ => decide (s < 5#5)
  | .vceq d _ _ _ => decide (d < 8#5)
  | .vclt d _ _ _ => decide (d < 8#5)
  | .vcltu d _ _ _ => decide (d < 8#5)
  | .vcle d _ _ _ => decide (d < 8#5)
  | .vcleu d _ _ _ => decide (d < 8#5)
  | .vfceq d _ _ _ => decide (d < 8#5)
  | .vfclt d _ _ _ => decide (d < 8#5)
  | .vfcle d _ _ _ => decide (d < 8#5)
  | .wadd d _ _ => decide (d < 2#5)
  | .wrd _ a _ => decide (a < 2#5)
  | .wclr d _ => decide (d < 2#5)
  | .wcpy d a _ => decide (d < 2#5) && decide (a < 2#5)
  | .pand d a b => decide (d < 8#5) && decide (a < 8#5) && decide (b < 8#5)
  | .por d a b => decide (d < 8#5) && decide (a < 8#5) && decide (b < 8#5)
  | .pxor d a b => decide (d < 8#5) && decide (a < 8#5) && decide (b < 8#5)
  | .pandn d a b => decide (d < 8#5) && decide (a < 8#5) && decide (b < 8#5)
  | .pnot d a => decide (d < 8#5) && decide (a < 8#5)
  | .pset d => decide (d < 8#5)
  | .pclr d => decide (d < 8#5)
  | .pmovs d _ => decide (d < 8#5)
  | .pmovd _ a => decide (a < 8#5)
  | .pfirst _ a => decide (a < 8#5)
  | .pcnt _ a => decide (a < 8#5)
  | .vsdcmp d _ _ => decide (d < 8#5)
  | .limitReset code => decide (1 ≤ code) && decide (code ≤ 8)
  | .mreset r | .fwhalt r | .mailboxBadcmd r | .registerWrite r | .qtailWrite r | .queueEnable r
  | .queueDisable r | .qctlKill r | .qctlReset r | .klrefill r | .leaseAdd r | .ticketRetry r | .ticketFail r
  | .fluxStart r | .peerActivate r | .peerDisable r | .linkPortEnable r | .linkPortDisable r
  | .worldTableWrite r => okReg r
  | .loadfw r _ | .worldreq r _ | .enrol r _ | .svnraise r _ => okReg r
  | .functionReset l f => okLink l && decide (f ≤ 63)
  | .linkReset l => okLink l
  | .linkdown l => okLinkId l
  | .poisonedRegisterWrite who off _ => okWho who && decide (off < 0x800000)
  | .recordFetch q x => okQueue q && x.dws.all (fun i => decide (i < 16))
  | .energyCharge b _ _ | .thermalRead b _ | .thermalStep b => okBlock b
  | .ageingMeasure b drift _ => okBlock b && decide (drift ≤ 255)
  | .weldWavefront _ x => okTile x.n
  | .moveStateCopy t | .moveRetarget t | .moveAbandon t | .firingBoundary t | .commitContinue t
  | .slotClaimGrant t | .streamRunDone t => okTile t
  | .uncorrectableError t x => okBlock t && decide (x.site.mem ≤ 19)
  | .tileScrub t _ => okTile t
  | .relocationMarker p _ => okPort p
  | .rowFiring t c _ => okTile t && decide (c < 4)
  | .laneElementFire t n => okTile t && decide (n < 16)
  | .repeatGroup _ _ n => decide (n < 2)
  | .siltCopyStart p => okPort p
  | .boundKick p n => okPort p && decide (n < 64)
  | .kickRegisterWrite who off _ => okWho who && decide (off < 0x800000)
  | .mptrcRead who x => okWho who && decide (x.off < 0x800000) && decide (x.size ≤ 8)
  | .memportRead p r | .memportWrite p r | .memportNull p r | .replyRelease p r | .requesterEnd p r =>
    okPort p && okReq r
  | .memportPerform p _ x => okPort p && decide (x.tag < 8) && x.gs.all (fun g => decide (g < 8))
  | .expanderFail l e => okLink l && decide (e < 8)
  | .fluxEmerge x => okPort x.n
  | .atsInvalidate l pasid _ size => okLink l && decide (pasid < 2 ^ 20) && decide (12 ≤ size)
  | .hostBar2Read l off n => okLink l && decide (off + n ≤ 2 ^ 42)
  | .hostBar2Write l off data _ => okLink l && decide (off + data.length ≤ 2 ^ 42)
  | .peerInboundRead q addr n cls => okPeer q && decide (1 ≤ n) && decide (addr % 256 + n ≤ 256) && decide (cls < 16)
  | .peerInboundWrite q addr cls data _ =>
    okPeer q && decide (1 ≤ data.length) && decide (addr % 256 + data.length ≤ 256) && decide (cls < 16)
  | .peerInboundAtomic q addr cls _ _ _ _ => okPeer q && decide (addr % 8 = 0) && decide (cls < 16)
  | .peerDomainFence q mask => okPeer q && decide (mask < 65536)
  | .assayRun b => okBlock b
  | .assayComplete b _ drift _ => okBlock b && decide (drift ≤ 255)
  | .plotWorldChange p => decide (p < 256)
  | .regionWorldChange r => decide (r < 64)
  | .linkTrained l lanes rate _ _ => okLinkId l && decide (lanes ≤ 16) && decide (rate ≤ 6)
  | .firmwareStart modes exps =>
    decide (modes.length = 4) && decide (modes.headD 2 < 2) && modes.all (fun m => decide (m < 3)) &&
      exps.all (fun e => okLink e.1)
  | .bringupComplete found _ ports _ _ =>
    found.lasting.all okBlock && found.drifts.all okDrift && ports.all (fun n => decide (n < 48))
  | .coolingRecovery found => found.lasting.all okBlock && found.drifts.all okDrift
  | .spdmMeasurement nonce => decide (nonce.length = 32)
  | _ => true

end Sys2Proof
end

