-- ==== Sys2Proof/Certificates/Slice0/Obligations.lean ====
section
/-! DEFINITION. The statements for the provers, with the words that they are stated in. -/

namespace Sys2Proof.Claims

open Machine

/-! Words of the statements. -/

/-- Tile `t` is in focus and executes the instructions of firing `f`, which is not in commit (R148, R342). -/
def Executes (s : State) (t : Nat) (f : Firing) : Prop :=
  s.focus = .tile t ∧ (s.tile t).firing = some f ∧ ∀ k e, f.phase ≠ .commit k e

/-- Port tile `p` is in focus and its Silt engine executes microcode for copy `c` (R201). -/
def Copies (s : State) (p : Nat) (c : Copy) : Prop :=
  s.focus = .engine p ∧ (s.port p).eng.copy = some c

/-- The named scalar and vector registers wait for no access (R348). -/
def Here (r : Regs) (ss vs : List (BitVec 5)) : Prop :=
  (∀ n ∈ ss, (r.rd n).pend = []) ∧ ∀ n ∈ vs, (r.rdV n).pend = []

/-- The state in which the firing of tile `t` is `f`, and everything else is as in `s`. -/
def withFiring (s : State) (t : Nat) (f : Firing) : State :=
  { s with tiles := Tab.set s.tiles t { s.tile t with firing := some f } }

/-- Firing `f` once an instruction has left it with registers `r`: the pc is past the word (R308). -/
def Firing.past (f : Firing) (r : Regs) : Firing := { f with regs := { r with pc := r.pc + 4 }, icount := f.icount + 1 }

/-- The state in which firing `f` of tile `t` has executed an instruction that leaves it with registers `r`. Nothing
else of the state has changed. -/
def past (s : State) (t : Nat) (f : Firing) (r : Regs) : State := withFiring s t (Firing.past f r)

/-- The state in which the engine of port tile `p` has executed an instruction of microcode that leaves registers `r`.
Nothing else of the state has changed. -/
def pastE (s : State) (p : Nat) (r : Regs) : State :=
  { s with ports := Tab.set s.ports p { s.port p with eng := { (s.port p).eng with regs := { r with pc := r.pc + 4 } } } }

/-- An instruction leaves the firing in focus, and the engine in focus alike, with the registers `k` of those it has
(R316, R330): it completes and changes nothing else. -/
def Leaves (i : Instr) (reads : List (BitVec 5)) (k : Regs → Regs) : Prop :=
  (∀ s t f, Executes s t f → Here f.regs reads [] → exec i s = .next (past s t f (k f.regs))) ∧
  (∀ s p c, Copies s p c → Here (s.port p).eng.regs reads [] → exec i s = .next (pastE s p (k (s.port p).eng.regs)))

/-- The bytes of a word in memory order (R308). -/
def bytesOf (w : W32) : List Byte := [w.extractLsb' 0 8, w.extractLsb' 8 8, w.extractLsb' 16 8, w.extractLsb' 24 8]

end Sys2Proof.Claims

open Sys2Proof Sys2Proof.Machine Sys2Proof.Claims

/-! Scalar arithmetic, branches and jumps (R330 to R343). -/

namespace Sys2Proof.Claims

open Machine

/-- Results of the group ALU in the exact arithmetic of R334, for two sources. -/
def aluRows : List ((BitVec 5 → BitVec 5 → BitVec 5 → Instr) × (W64 → W64 → W64)) :=
  [(.add, fun x y => BitVec.ofNat 64 (x.toNat + y.toNat)),
   (.sub, fun x y => BitVec.ofInt 64 ((x.toNat : Int) - y.toNat)),
   (.and, fun x y => x &&& y), (.or, fun x y => x ||| y), (.xor, fun x y => x ^^^ y),
   (.sll, fun x y => BitVec.ofNat 64 (x.toNat * 2 ^ (y.toNat % 64))),
   (.srl, fun x y => BitVec.ofNat 64 (x.toNat / 2 ^ (y.toNat % 64))),
   (.sra, fun x y => BitVec.ofInt 64 (x.toInt / 2 ^ (y.toNat % 64))),
   (.rol, fun x y => x <<< (y.toNat % 64) ||| x >>> (64 - y.toNat % 64)),
   (.ror, fun x y => x >>> (y.toNat % 64) ||| x <<< (64 - y.toNat % 64)),
   (.slt, fun x y => if x.toInt < y.toInt then 1 else 0),
   (.sltu, fun x y => if x.toNat < y.toNat then 1 else 0),
   (.min, fun x y => BitVec.ofInt 64 (min x.toInt y.toInt)),
   (.max, fun x y => BitVec.ofInt 64 (max x.toInt y.toInt)),
   (.minu, fun x y => BitVec.ofNat 64 (min x.toNat y.toNat)),
   (.maxu, fun x y => BitVec.ofNat 64 (max x.toNat y.toNat)),
   (.mul, fun x y => BitVec.ofNat 64 (x.toNat * y.toNat)),
   (.mulh, fun x y => BitVec.ofInt 64 (x.toInt * y.toInt / 2 ^ 64)),
   (.mulhu, fun x y => BitVec.ofNat 64 (x.toNat * y.toNat / 2 ^ 64)),
   (.andn, fun x y => x &&& ~~~y),
   (.addw, fun x y => ((x.setWidth 32) + (y.setWidth 32)).signExtend 64),
   (.subw, fun x y => ((x.setWidth 32) - (y.setWidth 32)).signExtend 64)]

/-- Results of the group ALU for one source (R334). -/
def aluOneRows : List ((BitVec 5 → BitVec 5 → Instr) × (W64 → W64)) :=
  [(.clz, fun x => BitVec.ofNat 64 ((List.range 64).findIdx (fun i => x.getLsbD (63 - i)))),
   (.ctz, fun x => BitVec.ofNat 64 ((List.range 64).findIdx (fun i => x.getLsbD i))),
   (.popc, fun x => BitVec.ofNat 64 ((List.range 64).countP (fun i => x.getLsbD i))),
   (.sextb, fun x => BitVec.ofInt 64 (x.setWidth 8).toInt),
   (.sexth, fun x => BitVec.ofInt 64 (x.setWidth 16).toInt),
   (.sextw, fun x => BitVec.ofInt 64 (x.setWidth 32).toInt)]

/-- The end of a range from `lo` to `hi` that lies toward an exact value, or the value itself (R335). -/
def clamp (lo hi z : Int) : Int := max lo (min hi z)

/-- Quotients and remainders (R335). -/
def divRows : List ((BitVec 5 → BitVec 5 → BitVec 5 → Instr) × (W64 → W64 → W64)) :=
  [(.div, fun x y =>
      if y = 0 then
        if x = 0 then 0 else if 0 < x.toInt then 0x7FFFFFFFFFFFFFFF else 0x8000000000000000
      else BitVec.ofInt 64 (clamp (-2 ^ 63) (2 ^ 63 - 1) (x.toInt.tdiv y.toInt))),
   (.divu, fun x y =>
      if y = 0 then if x = 0 then 0 else 0xFFFFFFFFFFFFFFFF else BitVec.ofNat 64 (x.toNat / y.toNat)),
   (.rem, fun x y => if y = 0 then 0 else BitVec.ofInt 64 (x.toInt - x.toInt.tdiv y.toInt * y.toInt)),
   (.remu, fun x y => if y = 0 then 0 else BitVec.ofNat 64 (x.toNat - x.toNat / y.toNat * y.toNat))]

/-- Results of the immediate forms (R336), with x the register and i the field IMM. -/
def immRows : List ((BitVec 5 → BitVec 5 → BitVec 16 → Instr) × (W64 → BitVec 16 → W64)) :=
  [(.addi, fun x i => BitVec.ofInt 64 (x.toNat + i.toInt)),
   (.andi, fun x i => x &&& i.setWidth 64),
   (.ori, fun x i => x ||| i.setWidth 64),
   (.xori, fun x i => x ^^^ i.setWidth 64),
   (.slti, fun x i => if x.toInt < i.toInt then 1 else 0),
   (.sltiu, fun x i => if x.toNat < i.toNat then 1 else 0)]

/-- Results of the shifts by an immediate (R336). -/
def shiftRows : List ((BitVec 5 → BitVec 5 → BitVec 6 → Instr) × (W64 → Nat → W64)) :=
  [(.slli, fun x n => BitVec.ofNat 64 (x.toNat * 2 ^ n)),
   (.srli, fun x n => BitVec.ofNat 64 (x.toNat / 2 ^ n)),
   (.srai, fun x n => BitVec.ofInt 64 (x.toInt / 2 ^ n)),
   (.roli, fun x n => x <<< n ||| x >>> (64 - n))]

/-- The conditions of the branches (R338). -/
def branchRows : List ((BitVec 5 → BitVec 5 → BitVec 16 → Instr) × (W64 → W64 → Prop)) :=
  [(.beq, fun x y => x = y), (.bne, fun x y => x ≠ y),
   (.blt, fun x y => x.toInt < y.toInt), (.bge, fun x y => y.toInt ≤ x.toInt),
   (.bltu, fun x y => x.toNat < y.toNat), (.bgeu, fun x y => y.toNat ≤ x.toNat)]

/-- The word of a control instruction as a 64-bit trap value (R283). -/
def wordVal (i : Instr) : W64 := ((encode i).getD 0).setWidth 64

end Sys2Proof.Claims

/-- R330: reading s0 gives a clean 0 and a write to s0 is discarded; another register reads as it was written, and a
write leaves every other register as it was. -/
def Obligations.ScalarRegisterRules : Prop :=
  ∀ (r : Regs) (d n : BitVec 5) (v : W64) (x : Bool),
    (r.rd 0).val = 0 ∧ (r.rd 0).dross = false ∧ r.wr 0 v x = r ∧
    (d ≠ 0 → (r.wr d v x).val d = v ∧ (r.wr d v x).drossS d = x) ∧
    (n ≠ d → (r.wr d v x).rd n = r.rd n) ∧
    (r.wr d v x).pc = r.pc ∧ (r.wr d v x).v = r.v ∧ (r.wr d v x).p = r.p

/-- R334: the words of the group ALU: 0x0400_0000 with d, a, b and FUNC in their places; b is zero where only a is read. -/
def Sys2Proof.Claims.AluWords : Prop :=
  (∀ e ∈ (List.map Prod.fst aluRows).zip (List.range 19 ++ [0x17, 0x1E, 0x1F]), ∀ d a b, (encode (e.1 d a b)).map BitVec.toNat =
    some (0x04000000 + d.toNat * 2 ^ 21 + a.toNat * 2 ^ 16 + b.toNat * 2 ^ 11 + e.2)) ∧
  (∀ e ∈ (List.map Prod.fst divRows).zip [0x13, 0x14, 0x15, 0x16], ∀ d a b, (encode (e.1 d a b)).map BitVec.toNat =
    some (0x04000000 + d.toNat * 2 ^ 21 + a.toNat * 2 ^ 16 + b.toNat * 2 ^ 11 + e.2)) ∧
  (∀ e ∈ (List.map Prod.fst aluOneRows).zip [0x18, 0x19, 0x1A, 0x1B, 0x1C, 0x1D], ∀ d a,
    (encode (e.1 d a)).map BitVec.toNat = some (0x04000000 + d.toNat * 2 ^ 21 + a.toNat * 2 ^ 16 + e.2))

/-- R334: the results of the group ALU but for division, whatever the operands; a source with dross gives dross. -/
def Sys2Proof.Claims.AluResults : Prop :=
  (∀ e ∈ aluRows, ∀ d a b, Leaves (e.1 d a b) [a, b]
    (fun r => r.wr d (e.2 (r.val a) (r.val b)) (r.drossS a || r.drossS b))) ∧
  (∀ e ∈ aluOneRows, ∀ d a, Leaves (e.1 d a) [a] (fun r => r.wr d (e.2 (r.val a)) (r.drossS a)))

/-- R335: division saturates, and no operand raises a cause. -/
def Sys2Proof.Claims.DivisionResults : Prop :=
  ∀ e ∈ divRows, ∀ d a b, Leaves (e.1 d a b) [a, b]
    (fun r => r.wr d (e.2 (r.val a) (r.val b)) (r.drossS a || r.drossS b))

/-- R336: the immediate forms, with lui, and the shifts by an immediate. -/
def Sys2Proof.Claims.ImmediateResults : Prop :=
  (∀ e ∈ immRows, ∀ d a i, Leaves (e.1 d a i) [a] (fun r => r.wr d (e.2 (r.val a) i) (r.drossS a))) ∧
  (∀ e ∈ shiftRows, ∀ d a n, Leaves (e.1 d a n) [a] (fun r => r.wr d (e.2 (r.val a) n.toNat) (r.drossS a))) ∧
  (∀ d i, Leaves (.lui d i) [] (fun r => r.wr d (BitVec.ofInt 64 (i.toInt * 2 ^ 16)) false))

/-- R334, R335, R336: the words and the results of the group ALU, of division and of the immediate forms. -/
def Obligations.ScalarResults : Prop := AluWords ∧ AluResults ∧ DivisionResults ∧ ImmediateResults

/-- R338, R339, R341: the branches on clean sources, taken and not taken, the jumps, and nop.
Readings and choices of the model: notes/assumptions/24.md. -/
def Obligations.BranchesAndJumps : Prop :=
  (∀ e ∈ branchRows, ∀ b a o s t f, Executes s t f → Here f.regs [a, b] [] →
    f.regs.drossS a = false → f.regs.drossS b = false →
    (e.2 (f.regs.val a) (f.regs.val b) →
      exec (e.1 b a o) s = .next (withFiring s t
        { f with regs := { f.regs with pc := f.regs.pc + 4 * o.toInt }, icount := f.icount + 1 })) ∧
    (¬ e.2 (f.regs.val a) (f.regs.val b) → exec (e.1 b a o) s = .next (past s t f f.regs))) ∧
  (∀ d o s t f, Executes s t f →
    exec (.jal d o) s = .next (withFiring s t
      { f with regs := { f.regs.wr d (BitVec.ofInt 64 (f.regs.pc + 4)) false with pc := f.regs.pc + 4 * o.toInt },
               icount := f.icount + 1 })) ∧
  (∀ d a i s t f, Executes s t f → Here f.regs [a] [] → f.regs.drossS a = false →
    exec (.jalr d a i) s = .next (withFiring s t
      { f with regs := { f.regs.wr d (BitVec.ofInt 64 (f.regs.pc + 4)) false with
                           pc := (f.regs.val a).toNat + i.toInt },
               icount := f.icount + 1 })) ∧
  Leaves .nop [] id

/-- R330, R338, R339, R331: a branch, a jump through a register and a write of a CSR that R176 lets a firing write
raise DROSSUSE, with the word as the value, where a source carries dross: the firing aborts or its graph does. -/
def Sys2Proof.Claims.DrossUseTraps : Prop :=
  (∀ e ∈ branchRows, ∀ b a o s t f, Executes s t f → Here f.regs [a, b] [] →
    (f.regs.drossS a = true ∨ f.regs.drossS b = true) →
    exec (e.1 b a o) s = .next (s.raise t f 7 (wordVal (e.1 b a o)))) ∧
  (∀ d a i s t f, Executes s t f → Here f.regs [a] [] → f.regs.drossS a = true →
    exec (.jalr d a i) s = .next (s.raise t f 7 (wordVal (.jalr d a i)))) ∧
  (∀ d a c s t f, Executes s t f → Here f.regs [a] [] → f.regs.drossS a = true → c = 0x014 ∨ c = 0x015 →
    exec (.csrw d a c) s = .next (s.raise t f 7 (wordVal (.csrw d a c))) ∧
    exec (.csrs d a c) s = .next (s.raise t f 7 (wordVal (.csrs d a c))) ∧
    exec (.csrc d a c) s = .next (s.raise t f 7 (wordVal (.csrc d a c))))

/-- R343, R344: csrr reads every CSR of R176 clean; csrw, csrs and csrc write gctr with all 64 bits and fflags with
bits 4:0, and give the value before. -/
def Obligations.CsrAccess : Prop :=
  (∀ (d : BitVec 5) (c : BitVec 12) (s : State) t f v, Executes s t f → s.csr t f c.toNat = some v →
    exec (.csrr d c) s = .next (past s t f (f.regs.wr d v false))) ∧
  (∀ d a s t f, Executes s t f → Here f.regs [a] [] → f.regs.drossS a = false →
    let x := f.regs.val a
    let r := f.regs.wr d f.gctr false
    exec (.csrw d a 0x014) s = .next (past s t { f with gctr := x } r) ∧
    exec (.csrs d a 0x014) s = .next (past s t { f with gctr := f.gctr ||| x } r) ∧
    exec (.csrc d a 0x014) s = .next (past s t { f with gctr := f.gctr &&& ~~~x } r)) ∧
  (∀ d a s t f, Executes s t f → Here f.regs [a] [] → f.regs.drossS a = false →
    let x := (f.regs.val a).extractLsb' 0 5
    let r := f.regs.wr d (f.fflags.setWidth 64) false
    exec (.csrw d a 0x015) s = .next (past s t { f with fflags := x } r) ∧
    exec (.csrs d a 0x015) s = .next (past s t { f with fflags := f.fflags ||| x } r) ∧
    exec (.csrc d a 0x015) s = .next (past s t { f with fflags := f.fflags &&& ~~~x } r)) ∧
  (∀ (s : State) (t : Nat) (f : Firing),
    s.csr t f 0x000 = some (BitVec.ofNat 64 f.aid) ∧ s.csr t f 0x001 = some (BitVec.ofNat 64 t) ∧
    s.csr t f 0x002 = some ((s.actor f.job f.aid).tgen.setWidth 64) ∧
    (∀ i < 4, s.csr t f (0x010 + i) = some (((s.graph f.job).key.getD i 0).setWidth 64)) ∧
    s.csr t f 0x014 = some f.gctr ∧ s.csr t f 0x015 = some (f.fflags.setWidth 64) ∧
    (∀ x y, f.kind = .completion x y → s.csr t f 0x003 = some x ∧ s.csr t f 0x004 = some (y.setWidth 64)) ∧
    ((∀ x y, f.kind ≠ .completion x y) → s.csr t f 0x003 = some 0 ∧ s.csr t f 0x004 = some 0) ∧
    (∀ c, f.kind = .fault c → s.csr t f 0x020 = some (BitVec.ofNat 64 c.code) ∧ s.csr t f 0x021 = some c.tval ∧
      s.csr t f 0x022 = some (BitVec.ofNat 64 (c.tpc % 65536))) ∧
    ((∀ c, f.kind ≠ .fault c) → s.csr t f 0x020 = some 0 ∧ s.csr t f 0x021 = some 0 ∧ s.csr t f 0x022 = some 0))

/-- R343, R315: a CSR number that R176 does not list, and a write of one that it marks RO, raise ILLINSTR. -/
def Sys2Proof.Claims.CsrTraps : Prop :=
  (∀ (d : BitVec 5) (c : BitVec 12) (s : State) t f, Executes s t f → s.csr t f c.toNat = none →
    exec (.csrr d c) s = .next (s.raise t f 1 (wordVal (.csrr d c)))) ∧
  (∀ d a c s t f, Executes s t f → Here f.regs [a] [] → c ≠ 0x014 → c ≠ 0x015 →
    exec (.csrw d a c) s = .next (s.raise t f 1 (wordVal (.csrw d a c))) ∧
    exec (.csrs d a c) s = .next (s.raise t f 1 (wordVal (.csrs d a c))) ∧
    exec (.csrc d a c) s = .next (s.raise t f 1 (wordVal (.csrc d a c)))) ∧
  (∀ (s : State) (t : Nat) (f : Firing) (c : BitVec 12), s.csr t f c.toNat = none ↔
    c ∉ [0x000, 0x001, 0x002, 0x003, 0x004, 0x010, 0x011, 0x012, 0x013, 0x014, 0x015, 0x020, 0x021, 0x022])

/-! Loads, stores, channels, atomics, fences and barriers (R346 to R359, R410 to R416). -/

namespace Sys2Proof.Claims

open Machine

/-- The scalar loads of handler RAM: size in bytes, and whether the result is sign-extended (R346). -/
def ramLoads : List ((BitVec 5 → BitVec 5 → BitVec 10 → BitVec 4 → Instr) × Nat × Bool) :=
  [(.lb, 1, true), (.lh, 2, true), (.lw, 4, true), (.ld, 8, true), (.lbz, 1, false), (.lhz, 2, false), (.lwz, 4, false)]

/-- The scalar loads of global memory (R346). -/
def globalLoads : List ((BitVec 5 → BitVec 5 → BitVec 10 → BitVec 4 → Instr) × Nat × Bool) :=
  [(.lgb, 1, true), (.lgh, 2, true), (.lgw, 4, true), (.lgd, 8, true), (.lgbz, 1, false), (.lghz, 2, false), (.lgwz, 4, false)]

/-- The scalar stores of handler RAM and their sizes (R346). -/
def ramStores : List ((BitVec 5 → BitVec 5 → BitVec 10 → BitVec 4 → Instr) × Nat) :=
  [(.sb, 1), (.sh, 2), (.sw, 4), (.sd, 8)]

/-- The scalar stores of global memory and their sizes (R346). -/
def globalStores : List ((BitVec 5 → BitVec 5 → BitVec 10 → BitVec 4 → Instr) × Nat) :=
  [(.sgb, 1), (.sgh, 2), (.sgw, 4), (.sgd, 8)]

/-- The effective address of R347, exactly. -/
def ea (x : W64) (o : BitVec 10) (scale : Nat) : Int := (x.toNat : Int) + o.toInt * scale

/-- A handler-RAM span of `n` bytes lies in the allocation of a firing's actor (R177, R347). -/
def InRam (s : State) (f : Firing) (e : Int) (n : Nat) : Prop := 0 ≤ e ∧ e + n ≤ (s.actor f.job f.aid).ramLen

/-- No scoreboard entry of a copy that writes an actor's handler RAM meets the span (R194). -/
def NoInEntry (s : State) (f : Firing) (e : Int) (n : Nat) : Prop :=
  ∀ x ∈ (s.graph f.job).sb, x.aid = f.aid → x.tstore = false → x.into = true → ¬ ((e.toNat : Nat) ≤ x.hi ∧ x.lo < e.toNat + n)

/-- No scoreboard entry over an actor's handler RAM meets the span (R194, R349). -/
def NoEntry (s : State) (f : Firing) (e : Int) (n : Nat) : Prop :=
  ∀ x ∈ (s.graph f.job).sb, x.aid = f.aid → x.tstore = false → ¬ ((e.toNat : Nat) ≤ x.hi ∧ x.lo < e.toNat + n)

/-- The byte that a handler-RAM load of a firing returns at an address (R350): its own latest store's, else memory's. -/
def ramByte (s : State) (f : Firing) (a : Nat) : Byte × Bool :=
  (f.forward .hram a).getD ((s.actor f.job f.aid).hram.read a)

/-- Bytes as a number, the lowest address least significant (R4). -/
def number (bs : List (Byte × Bool)) : Nat := (bs.mapIdx (fun i b => b.1.toNat * 256 ^ i)).sum

/-- A number of `8 · size` bits as a doubleword, sign- or zero-extended (R346). -/
def widen (signed : Bool) (size x : Nat) : W64 :=
  if signed && decide (2 ^ (8 * size - 1) ≤ x) then BitVec.ofInt 64 ((x : Int) - 2 ^ (8 * size)) else BitVec.ofNat 64 x

/-- Byte `i` of a number (R4). -/
def byteAt (x i : Nat) : Byte := BitVec.ofNat 8 (x / 256 ^ i)

/-- The commit buffer of `f'` holds the bytes `bs` from address `a` on in a space, and gives every other byte of either
space as that of `f` does (R349, R350). -/
def Buffered (f f' : Firing) (sp : Space) (a : Nat) (bs : List (Byte × Bool)) : Prop :=
  (∀ i, i < bs.length → f'.forward sp (a + i) = bs[i]?) ∧
  (∀ x, ¬ (a ≤ x ∧ x < a + bs.length) → f'.forward sp x = f.forward sp x) ∧
  (∀ sp' x, sp' ≠ sp → f'.forward sp' x = f.forward sp' x)

/-- The firing of tile `t` has gone past the word with all registers as they were, and only its commit buffer and its
replayable mark differ. -/
def OnlyBuffer (s u : State) (t : Nat) (f f' : Firing) : Prop :=
  u = withFiring s t f' ∧
  f' = { f with regs := { f.regs with pc := f.regs.pc + 4 }, icount := f.icount + 1, cbuf := f'.cbuf, replay := f'.replay }

/-- A global access of a firing may go on: no ticket holds the firing, the span is canonical, and its granules are
translated, which leaves `s1` (R347, R231). -/
def Translates (s : State) (f : Firing) (e : Int) (n : Nat) (write : Bool) (ps : List Piece) (s1 : State) : Prop :=
  f.ticket = none ∧ canonicalSpan e n = true ∧
  State.translateAll (s.pasidOf f.job) f.failed write (.firing f.job f.aid none) (pieces (n + 1) e.toNat n) s = ((ps, none), s1)

/-- A token read by a firing: its low bytes as a number, and its dross; a null reads as a clean zero (R162, R356). -/
def tokenNum (t : Token) (w : Nat) : Nat := if t.null then 0 else t.data.toNat % 2 ^ (8 * w)

/-- The dross of a token; a null is clean. -/
def tokenX (t : Token) : Bool := !t.null && t.dross

/-- The firing notes of the last token that it read on endpoint `n` (R354). -/
def noted (f : Firing) (n : Nat) (t : Token) : Firing :=
  { f with lnull := Tab.put false f.lnull n t.null, ldross := Tab.put false f.ldross n (tokenX t) }

/-- A firing that sends tokens on endpoint `n`: they join the outbound buffer and SENT(n) goes up (R357). -/
def Sends (s u : State) (t : Nat) (f : Firing) (n mask : Nat) (toks : List Token) : Prop :=
  ∃ f', u = withFiring s t f' ∧ f'.regs = { f.regs with pc := f.regs.pc + 4 } ∧
    (∃ ids, f'.out = f.out ++ toks.map (fun x => { ep := n, tok := x, mask := mask, ids := ids })) ∧
    Tab.get 0 f'.sent n = Tab.get 0 f.sent n + toks.length ∧
    (∀ m ≠ n, Tab.get 0 f'.sent m = Tab.get 0 f.sent m) ∧
    f' = { f with regs := f'.regs, icount := f.icount + 1, out := f'.out, sent := f'.sent }

/-- The atomics (R410): constructor, operation, and the doubleword that memory takes for old, operand and expected
value. -/
def atomicRows : List ((BitVec 5 → BitVec 5 → BitVec 5 → BitVec 4 → Instr) × AtomOp × (W64 → W64 → W64 → W64)) :=
  [(.aadd, .add, fun old x _ => BitVec.ofNat 64 (old.toNat + x.toNat)),
   (.aand, .and, fun old x _ => old &&& x), (.aor, .or, fun old x _ => old ||| x), (.axor, .xor, fun old x _ => old ^^^ x),
   (.amin, .min, fun old x _ => BitVec.ofInt 64 (min old.toInt x.toInt)),
   (.amax, .max, fun old x _ => BitVec.ofInt 64 (max old.toInt x.toInt)),
   (.aminu, .minu, fun old x _ => BitVec.ofNat 64 (min old.toNat x.toNat)),
   (.amaxu, .maxu, fun old x _ => BitVec.ofNat 64 (max old.toNat x.toNat)),
   (.aswap, .swap, fun _ x _ => x), (.acas, .cas, fun old x e => if old = e then x else old)]

/-- The doubleword at an address of memory. -/
def dword (m : Memory) (a : Nat) : W64 := BitVec.ofNat 64 (number (m.reads a 8))

end Sys2Proof.Claims

/-- R346, R347, R348, R350: a load of handler RAM returns its bytes, little-endian and extended, with the dross of any
byte; vl fills a vector register. Nothing else changes.
Readings and choices of the model: notes/assumptions/1.md. -/
def Obligations.HandlerRamLoads : Prop :=
  (∀ e ∈ ramLoads, ∀ d a o k s t f, Executes s t f → Here f.regs [a] [] → f.regs.drossS a = false →
    InRam s f (ea (f.regs.val a) o e.2.1) e.2.1 → NoInEntry s f (ea (f.regs.val a) o e.2.1) e.2.1 →
    let bs := (List.range e.2.1).map (fun i => ramByte s f ((ea (f.regs.val a) o e.2.1).toNat + i))
    exec (e.1 d a o k) s = .next (past s t f (f.regs.wr d (widen e.2.2 e.2.1 (number bs)) (bs.any (·.2))))) ∧
  (∀ d a o k s t f, Executes s t f → Here f.regs [a] [] → f.regs.drossS a = false →
    InRam s f (ea (f.regs.val a) o 64) 64 → NoInEntry s f (ea (f.regs.val a) o 64) 64 →
    ∃ v x, exec (.vl d a o k) s = .next (past s t f (f.regs.wrV d v x)) ∧
      ∀ j < 64, (v.extractLsb' (8 * j) 8, x.getLsbD j) = ramByte s f ((ea (f.regs.val a) o 64).toNat + j))

/-- R346, R349, R350: a store of handler RAM in class 0 to 14 that needs no 65th entry is held in the commit buffer,
from which later loads of the firing take its bytes; handler RAM and global memory are as before. -/
def Sys2Proof.Claims.BufferedStores : Prop :=
  (∀ e ∈ ramStores, ∀ d a o (k : BitVec 4) s t f, Executes s t f → Here f.regs [a, d] [] → f.regs.drossS a = false → k ≠ 15 →
    InRam s f (ea (f.regs.val a) o e.2) e.2 → f.entries + 2 ≤ 64 →
    ∃ u f', exec (e.1 d a o k) s = .next u ∧ OnlyBuffer s u t f f' ∧ f'.replay = f.replay ∧
      Buffered f f' .hram (ea (f.regs.val a) o e.2).toNat
        ((List.range e.2).map (fun i => (byteAt (f.regs.val d).toNat i, f.regs.drossS d)))) ∧
  (∀ d a o (k : BitVec 4) s t f, Executes s t f → Here f.regs [a] [d] → f.regs.drossS a = false → k ≠ 15 →
    InRam s f (ea (f.regs.val a) o 64) 64 → f.entries + 2 ≤ 64 →
    ∃ u f', exec (.vs d a o k) s = .next u ∧ OnlyBuffer s u t f f' ∧ f'.replay = f.replay ∧
      Buffered f f' .hram (ea (f.regs.val a) o 64).toNat
        ((List.range 64).map (fun j => ((f.regs.rdV d).val.extractLsb' (8 * j) 8, (f.regs.rdV d).dross.getLsbD j))))

/-- R349, R352, R153: what a store of handler RAM in class 15 does where no scoreboard entry meets it: it is performed at issue. The
bytes `bs` from `a` on change and every other byte is as before; a granule that a byte with dross reaches carries dross, one that the
store fills with clean bytes carries none, and every other keeps its mark; global memory is as before, and the firing is no longer
replayable. -/
def Sys2Proof.Claims.Posts (s u : State) (t : Nat) (f : Firing) (a : Nat) (bs : List (Byte × Bool)) : Prop :=
  let m := (s.actor f.job f.aid).hram
  let m' := (u.actor f.job f.aid).hram
  ∃ f', (u.tile t).firing = some f' ∧ f'.replay = false ∧ f'.regs = { f.regs with pc := f.regs.pc + 4 } ∧ u.mem = s.mem ∧
    (∀ x b, a ≤ x → bs[x - a]? = some b → m'.byte x = b.1) ∧
    (∀ x, ¬ (a ≤ x ∧ x < a + bs.length) → m'.byte x = m.byte x) ∧
    (∀ g, (∃ x b, a ≤ x ∧ x / 8 = g ∧ bs[x - a]? = some b ∧ b.2 = true) → m'.isBad g = true) ∧
    (∀ g, (∀ x b, a ≤ x → x / 8 = g → bs[x - a]? = some b → b.2 = false) →
      m'.isBad g = if a ≤ 8 * g ∧ 8 * g + 8 ≤ a + bs.length then false else m.isBad g)

/-- R349, R352, R153: a store of handler RAM in class 15, scalar or vector, is performed at issue where no scoreboard entry
meets it: the bytes stored and the marks of their granules change, every other is as before, and the firing is no longer replayable. -/
def Sys2Proof.Claims.PostedStore : Prop :=
  (∀ e ∈ ramStores, ∀ d a o s t f, Executes s t f → Here f.regs [a, d] [] → f.regs.drossS a = false →
    InRam s f (ea (f.regs.val a) o e.2) e.2 → NoEntry s f (ea (f.regs.val a) o e.2) e.2 →
    ∃ u, exec (e.1 d a o 15) s = .next u ∧ Posts s u t f (ea (f.regs.val a) o e.2).toNat
      ((List.range e.2).map (fun i => (byteAt (f.regs.val d).toNat i, f.regs.drossS d)))) ∧
  (∀ d a o s t f, Executes s t f → Here f.regs [a] [d] → f.regs.drossS a = false →
    InRam s f (ea (f.regs.val a) o 64) 64 → NoEntry s f (ea (f.regs.val a) o 64) 64 →
    ∃ u, exec (.vs d a o 15) s = .next u ∧ Posts s u t f (ea (f.regs.val a) o 64).toNat
      ((List.range 64).map (fun j => ((f.regs.rdV d).val.extractLsb' (8 * j) 8, (f.regs.rdV d).dross.getLsbD j))))

/-- R346, R349, R350, R352, R153: the stores of handler RAM, committed and posted, scalar and vector.
Readings and choices of the model: notes/assumptions/1.md. -/
def Obligations.HandlerRamStores : Prop := BufferedStores ∧ PostedStore

/-- R347, R177, R289, R331: an address register with dross raises DROSSUSE, and a handler-RAM span outside the allocation
raises BOUNDS with the address modulo 2^64 as its value, marked as a write where a store raises it. -/
def Sys2Proof.Claims.HandlerRamTraps : Prop :=
  (∀ e ∈ ramLoads, ∀ d a o k s t f, Executes s t f → Here f.regs [a] [] →
    (f.regs.drossS a = true → exec (e.1 d a o k) s = .next (s.raise t f 7 (wordVal (e.1 d a o k)))) ∧
    (f.regs.drossS a = false → ¬ InRam s f (ea (f.regs.val a) o e.2.1) e.2.1 →
      exec (e.1 d a o k) s = .next (s.raise t f 4 (BitVec.ofInt 64 (ea (f.regs.val a) o e.2.1))))) ∧
  (∀ e ∈ ramStores, ∀ d a o k s t f, Executes s t f → Here f.regs [a, d] [] →
    (f.regs.drossS a = true → exec (e.1 d a o k) s = .next (s.raise t f 7 (wordVal (e.1 d a o k)))) ∧
    (f.regs.drossS a = false → ¬ InRam s f (ea (f.regs.val a) o e.2) e.2 →
      exec (e.1 d a o k) s = .next (s.raiseC t f { f.cause 4 (BitVec.ofInt 64 (ea (f.regs.val a) o e.2)) with wr := true }))) ∧
  (∀ d a o k s t f, Executes s t f → Here f.regs [a] [d] →
    (f.regs.drossS a = true → exec (.vl d a o k) s = .next (s.raise t f 7 (wordVal (.vl d a o k))) ∧
      exec (.vs d a o k) s = .next (s.raise t f 7 (wordVal (.vs d a o k)))) ∧
    (f.regs.drossS a = false → ¬ InRam s f (ea (f.regs.val a) o 64) 64 →
      exec (.vl d a o k) s = .next (s.raise t f 4 (BitVec.ofInt 64 (ea (f.regs.val a) o 64))) ∧
      exec (.vs d a o k) s = .next (s.raiseC t f { f.cause 4 (BitVec.ofInt 64 (ea (f.regs.val a) o 64)) with wr := true })))

/-- R330, R331, R338, R339, R343, R347: where branches, jumps, CSR accesses and accesses of handler RAM trap. -/
def Obligations.ScalarTraps : Prop := DrossUseTraps ∧ CsrTraps ∧ HandlerRamTraps

/-- R346, R348, R211: a global load that translates is sent on its way, a granule at a time, in the class of its CLS
field; the destination waits for it, and no byte of memory and no other register changes. -/
def Obligations.GlobalLoads : Prop :=
  (∀ e ∈ globalLoads, ∀ d a o k s t f ps s1, Executes s t f → Here f.regs [a] [] → f.regs.drossS a = false →
    Translates s f (ea (f.regs.val a) o e.2.1) e.2.1 false ps s1 →
    ∃ u f' as, exec (e.1 d a o k) s = .next u ∧ (u.tile t).firing = some f' ∧ u.mem = s.mem ∧
      u.inflight = s1.inflight ++ as ∧ as.map (·.va) = ps.map (·.va) ∧
      (∀ x ∈ as, x.cls = k.toNat ∧ x.src = .firing f.job f.aid ∧ x.reads = true) ∧
      (d ≠ 0 → (f'.regs.rd d).pend = as.map (·.id)) ∧ f'.regs.pc = f.regs.pc + 4 ∧
      (∀ n, n = 0 ∨ n ≠ d → f'.regs.rd n = f.regs.rd n) ∧ f'.regs.v = f.regs.v ∧ f'.regs.p = f.regs.p) ∧
  (∀ d a o k s t f ps s1, Executes s t f → Here f.regs [a] [] → f.regs.drossS a = false →
    Translates s f (ea (f.regs.val a) o 64) 64 false ps s1 →
    ∃ u f' as, exec (.vlg d a o k) s = .next u ∧ (u.tile t).firing = some f' ∧ u.mem = s.mem ∧
      u.inflight = s1.inflight ++ as ∧ as.map (·.va) = ps.map (·.va) ∧
      (∀ x ∈ as, x.cls = k.toNat ∧ x.src = .firing f.job f.aid ∧ x.reads = true) ∧
      (f'.regs.rdV d).pend = as.map (·.id) ∧ f'.regs.pc = f.regs.pc + 4 ∧
      (∀ n ≠ d, f'.regs.rdV n = f.regs.rdV n) ∧ f'.regs.s = f.regs.s ∧ f'.regs.p = f.regs.p)

/-- R346, R349: a global store that translates. In class 0 to 14, with no 65th entry, it is held in the commit buffer:
nothing travels and memory is as before. In class 15 it is sent on its way at once, a granule at a time, and the firing
is no longer replayable. vsg to no kick register is such a store too. -/
def Obligations.GlobalStores : Prop :=
  (∀ e ∈ globalStores, ∀ d a o (k : BitVec 4) s t f ps s1, Executes s t f → Here f.regs [a, d] [] →
    f.regs.drossS a = false → Translates s f (ea (f.regs.val a) o e.2) e.2 true ps s1 → f.entries + 2 ≤ 64 →
    let bs := (List.range e.2).map (fun i => (byteAt (f.regs.val d).toNat i, f.regs.drossS d))
    ∃ u f', exec (e.1 d a o k) s = .next u ∧ (u.tile t).firing = some f' ∧ u.mem = s.mem ∧
      f'.regs = { f.regs with pc := f.regs.pc + 4 } ∧ Buffered f f' .glob (ea (f.regs.val a) o e.2).toNat bs ∧
      (k ≠ 15 → u.inflight = s1.inflight ∧ f'.replay = f.replay) ∧
      (k = 15 → f'.replay = false ∧ ∃ as, u.inflight = s1.inflight ++ as ∧ as.map (·.va) = ps.map (·.va) ∧
        ∀ x ∈ as, x.cls = 15 ∧ x.src = .firing f.job f.aid ∧ x.writes = true)) ∧
  (∀ d a o (k : BitVec 4) s t f ps s1, Executes s t f → Here f.regs [a] [d] → f.regs.drossS a = false →
    Translates s f (ea (f.regs.val a) o 64) 64 true ps s1 → f.entries + 2 ≤ 64 → (∀ p ∈ ps, ∀ off, p.tgt ≠ .reg off) →
    let bs := (List.range 64).map (fun j => ((f.regs.rdV d).val.extractLsb' (8 * j) 8, (f.regs.rdV d).dross.getLsbD j))
    ∃ u f', exec (.vsg d a o k) s = .next u ∧ (u.tile t).firing = some f' ∧ u.mem = s.mem ∧
      f'.regs = { f.regs with pc := f.regs.pc + 4 } ∧ Buffered f f' .glob (ea (f.regs.val a) o 64).toNat bs ∧
      (k ≠ 15 → u.inflight = s1.inflight ∧ f'.replay = f.replay) ∧
      (k = 15 → f'.replay = false ∧ ∃ as, u.inflight = s1.inflight ++ as ∧ as.map (·.va) = ps.map (·.va)))

/-- R356: recv, recvv, peek and peekv in an ordinary firing read a token that the rates let the firing read; recv and
recvv advance the read index. A null reads as a clean zero. No token is consumed. -/
def Sys2Proof.Claims.ReceiveResults : Prop :=
  ∀ d (n : BitVec 6) s t f c, Executes s t f → f.kind = .ordinary → (s.actor f.job f.aid).cRate n.toNat = some c →
    let w := (s.graph f.job).wIn (s.actor f.job f.aid) n.toNat
    let tok := fun k => (s.graph f.job).token (s.actor f.job f.aid) n.toNat k
    let k := Tab.get 0 f.ridx n.toNat
    (k < c → w ≤ 8 → exec (.recv d n) s = .next (past s t
      { noted f n.toNat (tok k) with ridx := Tab.put 0 f.ridx n.toNat (k + 1) }
      (f.regs.wr d (BitVec.ofNat 64 (tokenNum (tok k) w)) (tokenX (tok k))))) ∧
    (k < c → exec (.recvv d n) s = .next (past s t
      { noted f n.toNat (tok k) with ridx := Tab.put 0 f.ridx n.toNat (k + 1) }
      (f.regs.wrV d (BitVec.ofNat 512 (tokenNum (tok k) w)) (if tokenX (tok k) then BitVec.ofNat 64 (2 ^ w - 1) else 0)))) ∧
    (∀ a, Here f.regs [a] [] → f.regs.drossS a = false → (f.regs.val a).toNat < c →
      let k := (f.regs.val a).toNat
      (w ≤ 8 → exec (.peek d a n) s = .next (past s t (noted f n.toNat (tok k))
        (f.regs.wr d (BitVec.ofNat 64 (tokenNum (tok k) w)) (tokenX (tok k))))) ∧
      exec (.peekv d a n) s = .next (past s t (noted f n.toNat (tok k))
        (f.regs.wrV d (BitVec.ofNat 512 (tokenNum (tok k) w)) (if tokenX (tok k) then BitVec.ofNat 64 (2 ^ w - 1) else 0))))

/-- R357: the sends of an ordinary firing that the rates let it make. A token keeps the low bytes of its register, with
the register's dross; a masked send releases over the mask of s[d][15:0], the others over all classes; sendn sends
nulls, one where a is s0. -/
def Obligations.SendResults : Prop :=
  ∀ (n : BitVec 6) s t f p, Executes s t f → f.kind = .ordinary → (s.actor f.job f.aid).pRate n.toNat = some p →
    let w := (s.graph f.job).wOut (s.actor f.job f.aid) n.toNat
    let one := Tab.get 0 f.sent n.toNat < p
    let scalar := fun a : BitVec 5 =>
      ({ data := BitVec.ofNat 512 ((f.regs.val a).toNat % 2 ^ (8 * w)), dross := f.regs.drossS a } : Token)
    let vector := fun a : BitVec 5 =>
      ({ data := BitVec.ofNat 512 ((f.regs.rdV a).val.toNat % 2 ^ (8 * w)),
         dross := decide ((f.regs.rdV a).dross.toNat % 2 ^ w ≠ 0) } : Token)
    (∀ a, Here f.regs [a] [] → one → w ≤ 8 → ∃ u, exec (.send a n) s = .next u ∧ Sends s u t f n.toNat 0xFFFF [scalar a]) ∧
    (∀ a, Here f.regs [] [a] → one → ∃ u, exec (.sendv a n) s = .next u ∧ Sends s u t f n.toNat 0xFFFF [vector a]) ∧
    (∀ d a, Here f.regs [a, d] [] → f.regs.drossS d = false → one → w ≤ 8 →
      ∃ u, exec (.sendm d a n) s = .next u ∧ Sends s u t f n.toNat ((f.regs.val d).toNat % 65536) [scalar a]) ∧
    (∀ d a, Here f.regs [d] [a] → f.regs.drossS d = false → one →
      ∃ u, exec (.sendmv d a n) s = .next u ∧ Sends s u t f n.toNat ((f.regs.val d).toNat % 65536) [vector a]) ∧
    (∀ a, Here f.regs [a] [] → f.regs.drossS a = false →
      let k := if a = 0 then 1 else (f.regs.val a).toNat
      Tab.get 0 f.sent n.toNat + k ≤ p →
      ∃ u, exec (.sendn a n) s = .next u ∧ Sends s u t f n.toNat 0xFFFF (List.replicate k { null := true }))

/-- R358: the status words of chcnt and chfree, field by field. -/
def Sys2Proof.Claims.ChannelStatus : Prop :=
  ∀ d (n : BitVec 6) s t f, Executes s t f → f.kind = .ordinary →
    (∀ c, (s.actor f.job f.aid).cRate n.toNat = some c → ∃ v : W64,
      exec (.chcnt d n) s = .next (past s t f (f.regs.wr d v false)) ∧
      v.toNat % 256 = c % 256 ∧ v.toNat / 256 % 256 = Tab.get 0 f.ridx n.toNat % 256 ∧
      v.getLsbD 16 = Tab.get false f.lnull n.toNat ∧ v.getLsbD 17 = Tab.get false f.ldross n.toNat ∧
      v.toNat < 2 ^ 18) ∧
    (∀ p, (s.actor f.job f.aid).pRate n.toNat = some p → ∃ v : W64,
      exec (.chfree d n) s = .next (past s t f (f.regs.wr d v false)) ∧
      v.toNat % 256 = p % 256 ∧ v.toNat / 256 = Tab.get 0 f.sent n.toNat % 256)

/-- R356, R358: what recv, recvv, peek, peekv, chcnt and chfree give. -/
def Obligations.ChannelReads : Prop := ReceiveResults ∧ ChannelStatus

/-- R355 to R357: in a completion firing or a fault firing every channel instruction raises RATE with value 128, bound or
not; in an ordinary firing an unbound endpoint raises ILLOPND, a recv, recvv, peek or peekv past c(N) raises RATE with value N, and a
send, sendv, sendm, sendmv or sendn past p(N) raises RATE with value 64 + N. The scalar forms are stated for tokens of at most 8 bytes,
and those with an index, a count or a mask register for a clean one. -/
def Obligations.ChannelTraps : Prop :=
  ∀ d a (n : BitVec 6) s t f, Executes s t f → Here f.regs [a, d] [a] →
    (f.kind ≠ .ordinary → ∀ i ∈ [Instr.recv d n, .recvv d n, .peek d a n, .peekv d a n, .send a n, .sendv a n, .sendn a n,
        .sendm d a n, .sendmv d a n, .chcnt d n, .chfree d n], exec i s = .next (s.raise t f 5 128)) ∧
    (f.kind = .ordinary → (s.actor f.job f.aid).cRate n.toNat = none →
      ∀ i ∈ [Instr.recv d n, .recvv d n, .peek d a n, .peekv d a n, .chcnt d n], exec i s = .next (s.raise t f 3 (wordVal i))) ∧
    (f.kind = .ordinary → (s.actor f.job f.aid).pRate n.toNat = none →
      ∀ i ∈ [Instr.send a n, .sendv a n, .sendn a n, .sendm d a n, .sendmv d a n, .chfree d n],
        exec i s = .next (s.raise t f 3 (wordVal i))) ∧
    (∀ c, f.kind = .ordinary → (s.actor f.job f.aid).cRate n.toNat = some c → c ≤ Tab.get 0 f.ridx n.toNat →
      exec (.recvv d n) s = .next (s.raise t f 5 (BitVec.ofNat 64 n.toNat)) ∧
      ((s.graph f.job).wIn (s.actor f.job f.aid) n.toNat ≤ 8 →
        exec (.recv d n) s = .next (s.raise t f 5 (BitVec.ofNat 64 n.toNat)))) ∧
    (∀ c, f.kind = .ordinary → (s.actor f.job f.aid).cRate n.toNat = some c → f.regs.drossS a = false → c ≤ (f.regs.val a).toNat →
      exec (.peekv d a n) s = .next (s.raise t f 5 (BitVec.ofNat 64 n.toNat)) ∧
      ((s.graph f.job).wIn (s.actor f.job f.aid) n.toNat ≤ 8 →
        exec (.peek d a n) s = .next (s.raise t f 5 (BitVec.ofNat 64 n.toNat)))) ∧
    (∀ p, f.kind = .ordinary → (s.actor f.job f.aid).pRate n.toNat = some p →
      let past := BitVec.ofNat 64 (64 + n.toNat)
      (p ≤ Tab.get 0 f.sent n.toNat →
        exec (.sendv a n) s = .next (s.raise t f 5 past) ∧
        (f.regs.drossS d = false → exec (.sendmv d a n) s = .next (s.raise t f 5 past)) ∧
        ((s.graph f.job).wOut (s.actor f.job f.aid) n.toNat ≤ 8 → exec (.send a n) s = .next (s.raise t f 5 past) ∧
          (f.regs.drossS d = false → exec (.sendm d a n) s = .next (s.raise t f 5 past)))) ∧
      (f.regs.drossS a = false → p < Tab.get 0 f.sent n.toNat + (if a = 0 then 1 else (f.regs.val a).toNat) →
        exec (.sendn a n) s = .next (s.raise t f 5 past)))

/-- R410, R411: an atomic on a clean, aligned address that translates. With d = s0 it is deferred: it takes an entry of
the commit buffer, memory and the accesses on their way are as before. With another d it is sent at once, s[d] waits for
it and the firing is no longer replayable. -/
def Obligations.AtomicIssue : Prop :=
  ∀ e ∈ atomicRows, ∀ d a b k s t f ps s1, Executes s t f → Here f.regs [a, b, d] [] → f.regs.drossS a = false →
    (f.regs.val a).toNat % 8 = 0 → Translates s f (f.regs.val a).toNat 8 true ps s1 →
    (d = 0 → f.entries + 1 ≤ 64 → ∃ u f', exec (e.1 d a b k) s = .next u ∧ (u.tile t).firing = some f' ∧
      u.mem = s.mem ∧ u.inflight = s1.inflight ∧ f'.regs = { f.regs with pc := f.regs.pc + 4 } ∧ f'.replay = f.replay ∧
      ∃ tgt x after, f'.cbuf = f.cbuf ++ [.atomic (f.regs.val a).toNat k.toNat tgt e.2.1 (f.regs.val b) x after]) ∧
    (d ≠ 0 → ∃ u f' y, exec (e.1 d a b k) s = .next u ∧ (u.tile t).firing = some f' ∧ u.mem = s.mem ∧
      u.inflight = s1.inflight ++ [y] ∧ y.va = (f.regs.val a).toNat ∧ y.cls = k.toNat ∧
      y.kind = .atomic e.2.1 (f.regs.val b) (f.regs.val d) (f.regs.drossS b || (e.2.1 = .cas && f.regs.drossS d)) 8 ∧
      (f'.regs.rd d).pend = [y.id] ∧ f'.replay = false ∧ f'.cbuf = f.cbuf ∧
      (∀ n ≠ d, f'.regs.rd n = f.regs.rd n) ∧ f'.regs.pc = f.regs.pc + 4)

/-- R410, R412: what an atomic does to the doubleword at its address, and what it returns: the old doubleword, clean. A
poisoned granule is left as it is and returns zeros with dross. Every other byte of memory reads as before.
Readings and choices of the model: notes/assumptions/1.md. -/
def Obligations.AtomicResults : Prop :=
  ∀ e ∈ atomicRows, ∀ (m : Memory) a (x y : W64) (dross : Bool), a % 8 = 0 →
    let r := m.atomic a e.2.1 8 x y dross
    (∀ z, ¬ (a ≤ z ∧ z < a + 8) → r.1.read z = m.read z) ∧
    (m.isBad (a / 8) = true → r.1 = m ∧ r.2 = List.replicate 8 (0, true)) ∧
    (m.isBad (a / 8) = false → BitVec.ofNat 64 (number r.2) = dword m a ∧ (∀ b ∈ r.2, b.2 = false) ∧
      r.1.isBad (a / 8) = dross ∧ (dross = false → dword r.1 a = e.2.2 (dword m a) x y))

/-- R413, R218: a fence with an empty mask does nothing; one of tile, alloy or graph scope completes at once and notes,
for later accesses, those of its classes that the firing has on their way; nothing else changes. At package or domain
scope it waits while a posted store or an atomic of the firing is on its way. -/
def Sys2Proof.Claims.FenceIssue : Prop :=
  ∀ (sc : BitVec 5) (m : BitVec 16) s t f, Executes s t f → sc.toNat < 5 →
    (m = 0 → exec (.fence sc m) s = .next (past s t f f.regs)) ∧
    (m ≠ 0 → sc.toNat < 3 → ∃ ids, exec (.fence sc m) s = .next (past s t
        { f with fenced := f.fenced ++ [(m.toNat, ids)], cbuf := f.cbuf ++ [.fence m.toNat false] } f.regs) ∧
      ids = (s.inflight.filter (fun a => a.src = .firing f.job f.aid && decide (f.first ≤ a.id) && m.toNat.testBit a.cls)).map (·.id)) ∧
    (m ≠ 0 → 3 ≤ sc.toNat → (s.own f).any Access.writes = true → exec (.fence sc m) s = .next s) ∧
    (m ≠ 0 → sc.toNat = 3 → (s.own f).any Access.writes = false → ∃ f', exec (.fence sc m) s = .next (withFiring s t f') ∧
      f'.regs = { f.regs with pc := f.regs.pc + 4 }) ∧
    (m ≠ 0 → sc.toNat = 4 → (s.own f).any Access.writes = false → ∃ u f', exec (.fence sc m) s = .next u ∧
      (u.tile t).firing = some f' ∧ u.mem = s.mem ∧ f'.regs = { f.regs with pc := f.regs.pc + 4 })

/-- R415, R168: bar in an ordinary firing, at a barrier that the alloy declares and with no access of the actor on its
way, arrives and waits; where the generation is complete it passes and the generation count goes up. -/
def Sys2Proof.Claims.BarrierArrival : Prop :=
  ∀ (n : BitVec 5) s t f, Executes s t f → f.kind = .ordinary →
    let al := Tab.get {} (s.graph f.job).alloys (s.actor f.job f.aid).alloy
    (n.toNat < al.barriers → f.phase = .running → s.flying f.job f.aid = [] →
      Tab.get 0 al.gens n.toNat ≤ Tab.get 0 f.gens n.toNat →
      exec (.bar n) s = .next (withFiring s t { f with phase := .bar n.toNat false })) ∧
    (n.toNat < al.barriers → f.phase = .bar n.toNat false → exec (.bar n) s = .next s) ∧
    (n.toNat < al.barriers → f.phase = .bar n.toNat true → exec (.bar n) s = .next (past s t
      { f with phase := .running, gens := Tab.put 0 f.gens n.toNat (Tab.get 0 f.gens n.toNat + 1) } f.regs)) ∧
    (al.barriers ≤ n.toNat → exec (.bar n) s = .next (s.raise t f 3 (wordVal (.bar n))))

/-- R416: subs and unsubs of a tag below 2^16 join the firing's pending changes; a register with a higher bit set raises
ILLOPND. -/
def Sys2Proof.Claims.Subscriptions : Prop :=
  ∀ a s t f, Executes s t f → Here f.regs [a] [] → f.regs.drossS a = false →
    let x := (f.regs.val a).toNat
    (x < 65536 → s.matchTable t { f with tags := f.tags ++ [(x, true)] } ≤ 16 →
      exec (.subs a) s = .next (past s t { f with tags := f.tags ++ [(x, true)] } f.regs)) ∧
    (x < 65536 → exec (.unsubs a) s = .next (past s t { f with tags := f.tags ++ [(x, false)] } f.regs)) ∧
    (65536 ≤ x → exec (.subs a) s = .next (s.raise t f 3 (wordVal (.subs a))) ∧
      exec (.unsubs a) s = .next (s.raise t f 3 (wordVal (.unsubs a))))

/-- R413, R415, R416: fence, bar, subs and unsubs. -/
def Obligations.SyncInstructions : Prop := FenceIssue ∧ BarrierArrival ∧ Subscriptions

/-! The lane array (R360 to R389). -/

namespace Sys2Proof.Claims

open Machine

/-- Firing `f` executes, its lane array runs (R418) and is in a mode (R362). -/
def LaneRuns (s : State) (t : Nat) (f : Firing) (mode : LaneSet → Bool) : Prop :=
  Executes s t f ∧ f.drained = false ∧ mode f.lane = true

/-- Value `i` of a vector for values of `w` bytes (R361). -/
def value (v : V512) (w i : Nat) : Nat := v.toNat / 2 ^ (8 * w * i) % 2 ^ (8 * w)

/-- Predicate bit of byte lane `j`; an instruction without a predicate enables every lane (R310). -/
def laneBit (r : Regs) (p : Option (BitVec 3)) (j : Nat) : Bool := (p.map (fun k => (r.rdP k.toNat).getLsbD j)).getD true

/-- Whether value `i` is enabled for a SIMD instruction (R361, R362). -/
def on (f : Firing) (p : Option (BitVec 3)) (i : Nat) : Bool :=
  laneBit f.regs p (f.lane.w * i) && !(decide (60 ≤ f.lane.w * i) && decide (f.lane.mode 15 = 3))

/-- Every enabled value has a MAIN of a class (R363). -/
def InClass (f : Firing) (p : Option (BitVec 3)) (cls : Nat → Bool) : Prop :=
  ∀ i < f.lane.n, on f p i = true → cls (f.lane.main (i * f.lane.w / 4)) = true

/-- Whether a lane of value `i` of a register carries dross. -/
def valueX (r : VReg) (w i : Nat) : Bool := (List.range w).any (fun j => r.dross.getLsbD (w * i + j))

/-- A vector register `new` that holds, for each value of `w` bytes with a result, that result and its dross in every
lane of the value, and elsewhere the lanes of `old` (R364). -/
def Holds (w : Nat) (old new : VReg) (res : Nat → Option (Nat × Bool)) : Prop :=
  ∀ i < 64 / w, match res i with
    | some r => value new.val w i = r.1 % 2 ^ (8 * w) ∧ ∀ j < w, new.dross.getLsbD (w * i + j) = r.2
    | none => value new.val w i = value old.val w i ∧ ∀ j < w, new.dross.getLsbD (w * i + j) = old.dross.getLsbD (w * i + j)

/-- Instruction `i` completes: the firing is `g` with `v[d]` written as `res` says, and nothing else changes. -/
def VectorResult (i : Instr) (s : State) (t : Nat) (f g : Firing) (d : BitVec 5) (w : Nat) (res : Nat → Option (Nat × Bool)) : Prop :=
  ∃ v x, exec i s = .next (past s t g (f.regs.wrV d v x)) ∧ Holds w (f.regs.rdV d) { val := v, dross := x } res

/-- The signed reading of a value of `w` bytes. -/
def signed (w x : Nat) : Int := if 2 ^ (8 * w - 1) ≤ x then (x : Int) - 2 ^ (8 * w) else x

/-- A pattern of `w` bytes. -/
def wrap (w : Nat) (z : Int) : Nat := (z % 2 ^ (8 * w)).toNat

/-- fit of R367: the pattern, and whether it was clamped. -/
def fit (w : Nat) (sat : Bool) (z : Int) : Nat × Bool :=
  let c := clamp (-2 ^ (8 * w - 1)) (2 ^ (8 * w - 1) - 1) z
  if sat then (wrap w c, decide (c ≠ z)) else (wrap w z, false)

/-- The instructions of VINT with two sources (R367): whether they need the integer class, and the pattern of a value
with whether it overflows, from SAT and the patterns of the sources. -/
def vintRows : List ((BitVec 5 → BitVec 5 → BitVec 5 → Option (BitVec 3) → Instr) × Bool × (Nat → Bool → Nat → Nat → Nat × Bool)) :=
  [(.vadd, true, fun w c x y => fit w c (signed w x + signed w y)),
   (.vsub, true, fun w c x y => fit w c (signed w x - signed w y)),
   (.vmul, true, fun w c x y => fit w c (signed w x * signed w y)),
   (.vmulh, true, fun w _ x y => (wrap w (signed w x * signed w y / 2 ^ (8 * w)), false)),
   (.vmulhu, true, fun w _ x y => (x * y / 2 ^ (8 * w), false)),
   (.vand, false, fun _ _ x y => (x &&& y, false)), (.vor, false, fun _ _ x y => (x ||| y, false)),
   (.vxor, false, fun _ _ x y => (x ^^^ y, false)), (.vandn, false, fun w _ x y => (x &&& (2 ^ (8 * w) - 1 - y), false)),
   (.vsll, false, fun w _ x y => (x * 2 ^ (y % (8 * w)) % 2 ^ (8 * w), false)),
   (.vsrl, false, fun w _ x y => (x / 2 ^ (y % (8 * w)), false)),
   (.vsra, false, fun w _ x y => (wrap w (signed w x / 2 ^ (y % (8 * w))), false)),
   (.vmin, true, fun w _ x y => (wrap w (min (signed w x) (signed w y)), false)),
   (.vmax, true, fun w _ x y => (wrap w (max (signed w x) (signed w y)), false)),
   (.vminu, true, fun _ _ x y => (min x y, false)), (.vmaxu, true, fun _ _ x y => (max x y, false))]

/-- The instructions of VINT with one source (R367, R368). -/
def vintOneRows : List ((BitVec 5 → BitVec 5 → Option (BitVec 3) → Instr) × Bool × (Nat → Bool → Nat → Nat × Bool)) :=
  [(.vnot, false, fun w _ x => (2 ^ (8 * w) - 1 - x, false)),
   (.vabs, true, fun w c x => fit w c (max (signed w x) (-signed w x))),
   (.vneg, true, fun w c x => fit w c (-signed w x))]

/-- The comparisons of VINT (R367). -/
def vintCompares : List ((BitVec 5 → BitVec 5 → BitVec 5 → Option (BitVec 3) → Instr) × Bool × (Nat → Nat → Nat → Bool)) :=
  [(.vceq, false, fun _ x y => decide (x = y)), (.vclt, true, fun w x y => decide (signed w x < signed w y)),
   (.vcltu, true, fun _ x y => decide (x < y)), (.vcle, true, fun w x y => decide (signed w x ≤ signed w y)),
   (.vcleu, true, fun _ x y => decide (x ≤ y))]

/-- A predicate register with all bits of some values written and the others as they were (R364). -/
def HoldsP (w : Nat) (old new : W64) (res : Nat → Option Bool) : Prop :=
  ∀ i < 64 / w, ∀ j < w, new.getLsbD (w * i + j) = (res i).getD (old.getLsbD (w * i + j))

/-- The parameters of value `i` of a SIMD instruction (R361). -/
def eltAt (f : Firing) (i h : Nat) : Elt :=
  let e := i * f.lane.w / 4
  { fmt := f.lane.main e, rnd := f.lane.rnd e, sat := f.lane.sat e, h := h, w := f.lane.w }

/-- The instructions of VFP on v[a] and v[b] whose result is rounded (R369): whether v[d] is a source too, and the exact value
rounded once into MAIN. -/
def vfpRounded : List ((BitVec 5 → BitVec 5 → BitVec 5 → Option (BitVec 3) → Instr) × Bool × (Elt → XV → XV → XV → Conv)) :=
  [(.vfadd, false, fun e x y _ => e.out (sumX e.rnd [x, y])), (.vfsub, false, fun e x y _ => e.out (sumX e.rnd [x, y.flip])),
   (.vfmul, false, fun e x y _ => e.out (mulX x y)), (.vfdiv, false, fun e x y _ => e.ff.div e.rnd e.sat e.h x y),
   (.vfma, true, fun e x y z => e.out (fusedX e.rnd false x y z)), (.vfms, true, fun e x y z => e.out (fusedX e.rnd false x y z.flip)),
   (.vfnma, true, fun e x y z => e.out (fusedX e.rnd true x y z))]

/-- The rounded result of value `i` of a SIMD instruction of float class, with half-word `h`. -/
def roundedAt (f : Firing) (op : Elt → XV → XV → XV → Conv) (d a b : BitVec 5) (i h : Nat) : Conv :=
  let e := eltAt f i h
  let x := fun r : BitVec 5 => e.ff.decode (value (f.regs.rdV r).val f.lane.w i)
  op e (x a) (x b) (x d)

/-- Whether an instruction over all sixteen elements draws (R280, R365): RND 4 in an element, enabled or not. -/
def draws (f : Firing) : Bool := (List.range 16).any (fun e => decide (f.lane.rnd e = 4))

/-- Half-word `i` of the draws of a firing at its gctr (R280, R365); zero where the instruction does not draw. -/
def halfAt (s : State) (f : Firing) (d : Bool) (i : Nat) : Nat :=
  if d then halfWord (s.gritAt f (f.gctr + BitVec.ofNat 64 (i / 8))) (i % 8) else 0

/-- A firing after a lane instruction that draws `n` positions, or none, and raises flags (R259, R365): only gctr,
fflags and the origin of dross may differ. -/
def After (f g : Firing) (d : Bool) (n : Nat) (fl : BitVec 5) : Prop :=
  g = { f with gctr := f.gctr + BitVec.ofNat 64 (if d then (n + 7) / 8 else 0), fflags := f.fflags ||| fl, origin := g.origin }

/-- The flags of a list of results. -/
def flagsOf (l : List Conv) : BitVec 5 := l.foldl (fun a c => a ||| c.flags) 0

/-- The reductions (R376): class, and the result of the enabled values in order. -/
def reductions : List ((BitVec 5 → BitVec 5 → Option (BitVec 3) → Instr) × Bool × (Nat → List Nat → W64)) :=
  [(.vradd, true, fun w l => BitVec.ofInt 64 (l.map (signed w)).sum),
   (.vrmin, true, fun w l => BitVec.ofInt 64 ((l.map (signed w)).foldr min (2 ^ (8 * w - 1) - 1))),
   (.vrmax, true, fun w l => BitVec.ofInt 64 ((l.map (signed w)).foldr max (-2 ^ (8 * w - 1)))),
   (.vrminu, true, fun w l => BitVec.ofNat 64 (l.foldr min (2 ^ (8 * w) - 1))),
   (.vrmaxu, true, fun _ l => BitVec.ofNat 64 (l.foldr max 0)),
   (.vrand, false, fun w l => BitVec.ofNat 64 (l.foldr (· &&& ·) (2 ^ (8 * w) - 1))),
   (.vror, false, fun _ l => BitVec.ofNat 64 (l.foldr (· ||| ·) 0)),
   (.vrxor, false, fun _ l => BitVec.ofNat 64 (l.foldr (· ^^^ ·) 0))]

/-- The values that a SIMD instruction acts on, in order (R361). -/
def enabled (f : Firing) (p : Option (BitVec 3)) : List Nat := (List.range f.lane.n).filter (on f p)

/-- The instructions of VPRED on two predicates (R379). -/
def predTwo : List ((BitVec 5 → BitVec 5 → BitVec 5 → Instr) × (W64 → W64 → W64)) :=
  [(.pand, fun x y => x &&& y), (.por, fun x y => x ||| y), (.pxor, fun x y => x ^^^ y), (.pandn, fun x y => x &&& ~~~y)]

/-- The ordinary instructions of VMOVE that take a byte for each lane (R380): the source lane with its dross. -/
def lane (r : VReg) (j : Nat) : Byte × Bool := (r.val.extractLsb' (8 * j) 8, r.dross.getLsbD j)

end Sys2Proof.Claims

/-- R367, R368, R364, R361: VINT computes each enabled value on its own, exactly, wrapped or clamped by SAT; the lanes
of a value take the dross of its sources, disabled values keep their bits, and a clamp raises overflow. -/
def Obligations.IntegerLanes : Prop :=
  (∀ e ∈ vintRows, ∀ d a b p s t f, LaneRuns s t f LaneSet.simd → Here f.regs [] [d, a, b] →
    (e.2.1 = true → InClass f p isIntFmt) →
    let w := f.lane.w
    let r := fun i => e.2.2 w (f.lane.sat (i * w / 4)) (value (f.regs.rdV a).val w i) (value (f.regs.rdV b).val w i)
    let clamped := (enabled f p).any (fun i => (r i).2)
    VectorResult (e.1 d a b p) s t f { f with fflags := f.fflags ||| (if clamped then 4 else 0) } d w
      (fun i => if on f p i then some ((r i).1, valueX (f.regs.rdV a) w i || valueX (f.regs.rdV b) w i) else none)) ∧
  (∀ e ∈ vintOneRows, ∀ d a p s t f, LaneRuns s t f LaneSet.simd → Here f.regs [] [d, a] →
    (e.2.1 = true → InClass f p isIntFmt) →
    let w := f.lane.w
    let r := fun i => e.2.2 w (f.lane.sat (i * w / 4)) (value (f.regs.rdV a).val w i)
    let clamped := (enabled f p).any (fun i => (r i).2)
    VectorResult (e.1 d a p) s t f { f with fflags := f.fflags ||| (if clamped then 4 else 0) } d w
      (fun i => if on f p i then some ((r i).1, valueX (f.regs.rdV a) w i) else none)) ∧
  (∀ d a b p s t f, LaneRuns s t f LaneSet.simd → Here f.regs [] [d, a, b] →
    let w := f.lane.w
    let src := fun i => f.regs.rdV (if on f p i then a else b)
    VectorResult (.vsel d a b p) s t f f d w (fun i => some (value (src i).val w i, valueX (src i) w i)))

/-- R367, R370, R364: the comparisons write all bits of each enabled value of the predicate and keep the others; no flag
is raised, and a NaN makes every comparison of values false. -/
def Obligations.LaneCompares : Prop :=
  (∀ e ∈ vintCompares, ∀ d a b p s t f, LaneRuns s t f LaneSet.simd → Here f.regs [] [a, b] →
    (e.2.1 = true → InClass f p isIntFmt) →
    let w := f.lane.w
    (∀ i ∈ enabled f p, valueX (f.regs.rdV a) w i = false ∧ valueX (f.regs.rdV b) w i = false) →
    ∃ q, exec (e.1 d a b p) s = .next (past s t f (f.regs.wrP d.toNat q)) ∧
      HoldsP w (f.regs.rdP d.toNat) q (fun i => if on f p i then
        some (e.2.2 w (value (f.regs.rdV a).val w i) (value (f.regs.rdV b).val w i)) else none)) ∧
  (∀ d a b p s t f, LaneRuns s t f LaneSet.simd → Here f.regs [] [a, b] → InClass f p isFloatFmt →
    let w := f.lane.w
    let x := fun (r : BitVec 5) i => (eltAt f i 0).ff.decode (value (f.regs.rdV r).val w i)
    (∀ i ∈ enabled f p, valueX (f.regs.rdV a) w i = false ∧ valueX (f.regs.rdV b) w i = false) →
    ∀ e ∈ [((Instr.vfceq d a b p), (fun x y => eqX x y)), (.vfclt d a b p, fun x y => ltX x y),
        (.vfcle d a b p, fun x y => ltX x y || eqX x y)],
      ∃ q, exec e.1 s = .next (past s t f (f.regs.wrP d.toNat q)) ∧
        HoldsP w (f.regs.rdP d.toNat) q (fun i => if on f p i then some (e.2 (x a i) (x b i)) else none))

/-- R369, R364, R365: the rounded instructions of VFP compute each enabled value exactly from its operands and round it
once under RND, SAT and the half-word of its position; they OR their flags into fflags, draw only where RND 4 is set, and
a value takes the dross of its sources. -/
def Sys2Proof.Claims.FloatLanes : Prop :=
  (∀ e ∈ vfpRounded, ∀ d a b p s t f, LaneRuns s t f LaneSet.simd → Here f.regs [] [d, a, b] → InClass f p isFloatFmt →
    let w := f.lane.w
    let r := fun i => roundedAt f e.2.2 d a b i (halfAt s f (draws f) i)
    ∃ g, After f g (draws f) f.lane.n (flagsOf ((enabled f p).map r)) ∧
      VectorResult (e.1 d a b p) s t f g d w (fun i => if on f p i then
        some ((r i).code, valueX (f.regs.rdV a) w i || valueX (f.regs.rdV b) w i ||
          (e.2.1 && valueX (f.regs.rdV d) w i) || (r i).arises) else none)) ∧
  (∀ d a p s t f, LaneRuns s t f LaneSet.simd → Here f.regs [] [d, a] → InClass f p isFloatFmt →
    let w := f.lane.w
    let r := fun i => roundedAt f (fun e x _ _ => e.ff.sqrt e.rnd e.sat e.h x) d a a i (halfAt s f (draws f) i)
    ∃ g, After f g (draws f) f.lane.n (flagsOf ((enabled f p).map r)) ∧
      VectorResult (.vfsqrt d a p) s t f g d w (fun i => if on f p i then
        some ((r i).code, valueX (f.regs.rdV a) w i || (r i).arises) else none))

/-- R370: vfmin, vfmax, vfabs, vfneg and vfclass do not round, draw or raise a flag. vfabs clears the sign and vfneg
inverts it, but for a NaN, which becomes the canonical NaN; vfclass writes the class code. Here each MAIN has the width
of a value, as R361 has it in every valid configuration set. -/
def Sys2Proof.Claims.FloatLanesUnrounded : Prop :=
  ∀ d a b p s t f, LaneRuns s t f LaneSet.simd → Here f.regs [] [d, a, b] → InClass f p isFloatFmt →
    let w := f.lane.w
    let ff := fun i => (eltAt f i 0).ff
    (∀ i ∈ enabled f p, 1 + (ff i).ebits + (ff i).mbits = 8 * w) →
    let x := fun i => value (f.regs.rdV a).val w i
    let y := fun i => value (f.regs.rdV b).val w i
    let two := fun i c => if on f p i then some (c, valueX (f.regs.rdV a) w i || valueX (f.regs.rdV b) w i) else none
    let one := fun i c => if on f p i then some (c, valueX (f.regs.rdV a) w i) else none
    let top := fun i => 2 ^ ((ff i).ebits + (ff i).mbits)
    let nan := fun i => (ff i).decode (x i) = .nan
    VectorResult (.vfmin d a b p) s t f f d w (fun i => two i ((ff i).minmax false (x i) (y i))) ∧
    VectorResult (.vfmax d a b p) s t f f d w (fun i => two i ((ff i).minmax true (x i) (y i))) ∧
    VectorResult (.vfabs d a p) s t f f d w (fun i => one i (if nan i then (ff i).nan.getD 0 else x i % top i)) ∧
    VectorResult (.vfneg d a p) s t f f d w (fun i => one i (if nan i then (ff i).nan.getD 0 else (x i + top i) % (2 * top i))) ∧
    VectorResult (.vfclass d a p) s t f f d w (fun i => one i ((ff i).classOf (x i)))

/-- R369, R370: the group VFP.
Readings and choices of the model: notes/assumptions/17.md. -/
def Obligations.FloatResults : Prop := FloatLanes ∧ FloatLanesUnrounded

/-- R376: the reductions over the enabled values of v[a] are exact, raise no flag and never draw; the result carries the
dross of any enabled value, and with no value enabled it is the identity. Their words are 0x8C00_0000 with FUNC 0 to 7. -/
def Obligations.Reductions : Prop :=
  (∀ e ∈ reductions.zipIdx, ∀ d a, (encode (e.1.1 d a none)).map BitVec.toNat =
    some (0x8C000000 + d.toNat * 2 ^ 21 + a.toNat * 2 ^ 16 + e.2)) ∧
  ∀ e ∈ reductions, ∀ d a p s t f, LaneRuns s t f LaneSet.simd → Here f.regs [] [a] → (e.2.1 = true → InClass f p isIntFmt) →
    let w := f.lane.w
    exec (e.1 d a p) s = .next (past s t f (f.regs.wr d
      (e.2.2 w ((enabled f p).map (value (f.regs.rdV a).val w))) ((enabled f p).any (valueX (f.regs.rdV a) w))))

/-- R379: the predicate instructions write only their destination, raise no flag and need no mode; pmovs of a register with
dross raises DROSSUSE. Their words are 0x9000_0000 with FUNC 0 to 10 and no predicate. -/
def Obligations.Predicates : Prop :=
  (∀ (d a b n : BitVec 5), d.toNat < 8 → a.toNat < 8 → b.toNat < 8 →
    let word := fun (x y z f : Nat) => some (0x90000000 + x * 2 ^ 21 + y * 2 ^ 16 + z * 2 ^ 11 + f)
    let w := fun (i : Instr) => (encode i).map BitVec.toNat
    (∀ e ∈ (List.map Prod.fst predTwo).zipIdx, w (e.1 d a b) = word d.toNat a.toNat b.toNat e.2) ∧
    w (.pnot d a) = word d.toNat a.toNat 0 4 ∧ w (.pset d) = word d.toNat 0 0 5 ∧ w (.pclr d) = word d.toNat 0 0 6 ∧
    w (.pmovs d n) = word d.toNat n.toNat 0 7 ∧ w (.pmovd n a) = word n.toNat a.toNat 0 8 ∧
    w (.pfirst n a) = word n.toNat a.toNat 0 9 ∧ w (.pcnt n a) = word n.toNat a.toNat 0 10) ∧
  ∀ s t f, Executes s t f →
    (∀ d a, Here f.regs [a] [] → f.regs.drossS a = true → exec (.pmovs d a) s = .next (s.raise t f 7 (wordVal (.pmovs d a)))) ∧
    (∀ e ∈ predTwo, ∀ d a b, exec (e.1 d a b) s = .next (past s t f (f.regs.wrP d.toNat (e.2 (f.regs.rdP a.toNat) (f.regs.rdP b.toNat))))) ∧
    (∀ d a, exec (.pnot d a) s = .next (past s t f (f.regs.wrP d.toNat (~~~ f.regs.rdP a.toNat)))) ∧
    (∀ d, exec (.pset d) s = .next (past s t f (f.regs.wrP d.toNat (BitVec.allOnes 64)))) ∧
    (∀ d, exec (.pclr d) s = .next (past s t f (f.regs.wrP d.toNat 0))) ∧
    (∀ d a, Here f.regs [a] [] → f.regs.drossS a = false →
      exec (.pmovs d a) s = .next (past s t f (f.regs.wrP d.toNat (f.regs.val a)))) ∧
    (∀ d a, exec (.pmovd d a) s = .next (past s t f (f.regs.wr d (f.regs.rdP a.toNat) false))) ∧
    (∀ d a, exec (.pfirst d a) s = .next (past s t f (f.regs.wr d
      (BitVec.ofNat 64 ((List.range 64).findIdx (fun i => (f.regs.rdP a.toNat).getLsbD i))) false))) ∧
    (∀ d a, exec (.pcnt d a) s = .next (past s t f (f.regs.wr d
      (BitVec.ofNat 64 ((List.range 64).countP (fun i => (f.regs.rdP a.toNat).getLsbD i))) false)))

/-- R380: the moves of lanes and values. A disabled lane keeps its bits and its dross, and a lane carries the dross of
the byte that it receives. -/
def Sys2Proof.Claims.LaneMoves : Prop :=
  (∀ d a p s t f, LaneRuns s t f LaneSet.simd → Here f.regs [] [d, a] →
    VectorResult (.vmov d a p) s t f f d 1 (fun j =>
      if laneBit f.regs p j && !(decide (60 ≤ j) && decide (f.lane.mode 15 = 3)) then
        some ((lane (f.regs.rdV a) j).1.toNat, (lane (f.regs.rdV a) j).2) else none)) ∧
  (∀ d a p s t f, LaneRuns s t f LaneSet.simd → Here f.regs [a] [d] →
    VectorResult (.vbcast d a p) s t f f d f.lane.w (fun i =>
      if on f p i then some ((f.regs.val a).toNat, f.regs.drossS a) else none)) ∧
  (∀ d a b s t f, LaneRuns s t f LaneSet.simd → Here f.regs [a, b] [d] → f.regs.drossS b = false →
    (f.regs.val b).toNat < f.lane.n →
    VectorResult (.vins d a b) s t f f d f.lane.w (fun i =>
      if i = (f.regs.val b).toNat ∧ on f none i then some ((f.regs.val a).toNat, f.regs.drossS a) else none)) ∧
  (∀ d a b s t f, LaneRuns s t f LaneSet.simd → Here f.regs [b] [a] → f.regs.drossS b = false →
    (f.regs.val b).toNat < f.lane.n →
    exec (.vext d a b) s = .next (past s t f (f.regs.wr d
      (BitVec.ofNat 64 (value (f.regs.rdV a).val f.lane.w (f.regs.val b).toNat))
      (valueX (f.regs.rdV a) f.lane.w (f.regs.val b).toNat)))) ∧
  (∀ d a b p s t f, Executes s t f → f.drained = false → Here f.regs [] [d, a, b] →
    VectorResult (.vperm d a b p) s t f f d 1 (fun j => if laneBit f.regs p j then
      let k := lane (f.regs.rdV b) j
      let x := lane (f.regs.rdV a) (k.1.toNat % 64)
      some (x.1.toNat, x.2 || k.2) else none)) ∧
  (∀ d a b p s t f, Executes s t f → f.drained = false → Here f.regs [b] [d, a] → f.regs.drossS b = false →
    VectorResult (.vrot d a b p) s t f f d 1 (fun i => if laneBit f.regs p i then
      let j := (i + 64 - (f.regs.val b).toNat % 64) % 64
      some ((lane (f.regs.rdV a) j).1.toNat, (lane (f.regs.rdV a) j).2) else none))

/-- R381: vzip packs the codes of the lanes of v[a] with EXP and POS of s[b] into a 32-byte plane token, and vunzip gives
the codes back, with dross where the token breaks R255 or where its EXP or k is not that of s[b]. -/
def Sys2Proof.Claims.PlaneTokens : Prop :=
  ∀ d a b s t f, Executes s t f → f.drained = false → Here f.regs [b] [a] → f.regs.drossS b = false →
    let x := f.regs.val b
    let v := f.regs.rdV a
    (∃ u m, exec (.vzip d a b) s = .next (past s t f (f.regs.wrV d u m)) ∧
      (∀ j < 64, u.toNat / 2 ^ (3 * j) % 8 = if (lane v j).1.toNat < 8 then (lane v j).1.toNat else 4) ∧
      (lane { val := u } 24).1.toNat = x.toNat % 256 ∧ (lane { val := u } 25).1.toNat = x.toNat / 256 % 256 ∧
      (∀ j < 64, 26 ≤ j → (lane { val := u } j).1 = 0) ∧
      (∀ j < 64, m.getLsbD j = (decide (j < 32) && decide (v.dross ≠ 0)))) ∧
    (∃ u m g, exec (.vunzip d a b) s = .next (past s t g (f.regs.wrV d u m)) ∧ g = { f with origin := g.origin } ∧
      (∀ j < 64, (lane { val := u } j).1.toNat = v.val.toNat / 2 ^ (3 * j) % 8) ∧
      (∀ j < 64, m.getLsbD j = ((List.range 32).any (fun i => v.dross.getLsbD i) ||
        decide ((lane v 25).1.toNat / 16 % 8 ≠ 0) || (List.range 6).any (fun i => decide ((lane v (26 + i)).1 ≠ 0)) ||
        decide ((lane v 25).1.toNat % 16 = 0) || decide (8 < (lane v 25).1.toNat % 16) ||
        decide ((lane v 25).1.toNat % 16 ≠ x.toNat / 256 % 16) || decide ((lane v 24).1.toNat ≠ x.toNat % 256))))

/-- R380, R381: the group VMOVE. -/
def Obligations.MoveResults : Prop := LaneMoves ∧ PlaneTokens

/-- The lane instructions with the modes that they have (R362) and the scalar and vector registers that they wait for
(R348). -/
def Sys2Proof.Claims.laneForms (d a b : BitVec 5) (p : Option (BitVec 3)) :
    List ((LaneSet → Bool) × List (BitVec 5) × List (BitVec 5) × List Instr) :=
  let e := fun g : BitVec 5 => ((sdGroup g).map (·.2)).toList
  [(LaneSet.simd, [], [d, a, b], vintRows.map (fun r => r.1 d a b p) ++ vfpRounded.map (fun r => r.1 d a b p) ++
      [.vsel d a b p, .vfmin d a b p, .vfmax d a b p]),
   (LaneSet.simd, [], [d, a], vintOneRows.map (fun r => r.1 d a p) ++ [.vfsqrt d a p, .vfabs d a p, .vfneg d a p, .vfclass d a p,
      .vcvta d a b p, .vcvtm d a b p, .vmov d a p]),
   (LaneSet.simd, [], [a, b], vintCompares.map (fun r => r.1 d a b p) ++ [.vfceq d a b p, .vfclt d a b p, .vfcle d a b p]),
   (LaneSet.simd, [b], [d, a], [.vcvts d a b p]), (LaneSet.simd, [], [d, a, a + 1], [.vmxe d a b]),
   (LaneSet.simd, [], [d, d + 1, a], [.vmxd d a b]), (LaneSet.simd, [], a :: sdRegs d, [.vsde d a]),
   (LaneSet.simd, e a, d :: sdRegs a, [.vsdd d a]),
   (LaneSet.simd, [], [a], reductions.map (fun r => r.1 d a p) ++ [.wadd d a p, .vsmpc d a p]),
   (LaneSet.simd, [], [d], [.wrd d a p]), (LaneSet.simd, [a], [d], [.vbcast d a p]), (LaneSet.simd, [a, b], [d], [.vins d a b]),
   (LaneSet.simd, [b], [a], [.vext d a b, .vsmpk d a b p, .vsmpn d a b p]),
   (LaneSet.online, e a ++ e b, sdRegs d ++ sdRegs a ++ sdRegs b, [.vsdadd d a b, .vsdsub d a b, .vsdmul d a b]),
   (LaneSet.online, e a, sdRegs d ++ sdRegs a, [.vsdcut d a b]),
   (LaneSet.online, e a ++ e b, sdRegs a ++ sdRegs b, [.vsdcmp d a b]), (LaneSet.stream, [a], [], [.vsgo a]),
   (LaneSet.join, [], [], [.vjoin d a b, .vjoinu d a b]),
   (fun _ => true, [], [], [.wclr d p, .wcpy d a b, .vswt, .grit d, .gritv d]), (fun _ => true, [a], [], [.gritc d a]),
   (fun _ => true, [], [d, a, b], [.vperm d a b p]), (fun _ => true, [b], [d, a], [.vrot d a b p]),
   (fun _ => true, [b], [a], [.vzip d a b, .vunzip d a b])]

/-- R362: the four modes, by the modes of the sixteen elements. -/
def Sys2Proof.Claims.ModesAre : Prop :=
  ∀ l : LaneSet,
    (LaneSet.simd l = true ↔ (∀ n < 15, l.mode n = 0) ∧ (l.mode 15 = 0 ∨ l.mode 15 = 3)) ∧
    (LaneSet.online l = true ↔ ∀ n < 16, l.mode n = 2) ∧
    (LaneSet.stream l = true ↔ (∃ n < 16, l.mode n = 1) ∧
      ∀ n < 16, l.mode n = 1 ∨ l.mode n = 0 ∨ (n = 15 ∧ l.mode n = 3)) ∧
    (LaneSet.join l = true ↔ l.mode 15 = 3)

/-- R362, R363, R418, R364: every lane instruction raises ILLOPND, with the word as the value, on a drained array and in a
mode that it does not have; one of a class raises it too where an enabled value has a MAIN outside that class. A
comparison of an enabled value that carries dross raises DROSSUSE.
Readings and choices of the model: notes/assumptions/17.md. -/
def Obligations.LaneModeTraps : Prop :=
  ModesAre ∧
  (∀ d a b p, ∀ e ∈ laneForms d a b p, ∀ i ∈ e.2.2.2, ∀ s t f, Executes s t f → Here f.regs e.2.1 e.2.2.1 →
    (f.drained = true ∨ e.1 f.lane = false) → exec i s = .next (s.raise t f 3 (wordVal i))) ∧
  (∀ d a b p s t f, LaneRuns s t f LaneSet.simd → Here f.regs [] [d, a, b] →
    (¬ InClass f p isIntFmt →
      ∀ i ∈ (vintRows.filter (·.2.1)).map (fun r => r.1 d a b p) ++ (vintOneRows.filter (·.2.1)).map (fun r => r.1 d a p) ++
          (vintCompares.filter (·.2.1)).map (fun r => r.1 d a b p) ++ (reductions.filter (·.2.1)).map (fun r => r.1 d a p),
        exec i s = .next (s.raise t f 3 (wordVal i))) ∧
    (¬ InClass f p isFloatFmt →
      ∀ i ∈ vfpRounded.map (fun r => r.1 d a b p) ++ [Instr.vfsqrt d a p, .vfmin d a b p, .vfmax d a b p, .vfabs d a p, .vfneg d a p,
          .vfclass d a p, .vfceq d a b p, .vfclt d a b p, .vfcle d a b p, .wadd d a p],
        exec i s = .next (s.raise t f 3 (wordVal i))) ∧
    ((∃ i ∈ enabled f p, valueX (f.regs.rdV a) f.lane.w i = true ∨ valueX (f.regs.rdV b) f.lane.w i = true) →
      (∀ e ∈ vintCompares, (e.2.1 = true → InClass f p isIntFmt) →
        exec (e.1 d a b p) s = .next (s.raise t f 7 (wordVal (e.1 d a b p)))) ∧
      (InClass f p isFloatFmt → ∀ i ∈ [Instr.vfceq d a b p, .vfclt d a b p, .vfcle d a b p],
        exec i s = .next (s.raise t f 7 (wordVal i)))))

/-! Conversions, blocks, SD8 groups, ingots, grit, sampling and joins (R371 to R389). -/

namespace Sys2Proof.Claims

open Machine

/-- Field `i` of a vector for values of `b` bits, four bits included (R371). -/
def field (v : V512) (b i : Nat) : Nat := v.toNat / 2 ^ (b * i) % 2 ^ b

/-- The dross of field `i`: any lane of it; a 4-bit value has that of its lane (R371). -/
def fieldX (r : VReg) (b i : Nat) : Bool := if b < 8 then r.dross.getLsbD (i / 2) else valueX r (b / 8) i

/-- A vector register that holds the given results in slots of `b` bits and elsewhere what `old` holds. A lane of which
one nibble is written ORs its old dross (R371). -/
def HoldsSlots (b : Nat) (old new : VReg) (res : Nat → Option (Nat × Bool)) : Prop :=
  (∀ j < 512 / b, field new.val b j = match res j with
    | some r => r.1 % 2 ^ b
    | none => field old.val b j) ∧
  ∀ k < 64, new.dross.getLsbD k =
    (if b < 8 then match res (2 * k), res (2 * k + 1) with
      | some x, some y => x.2 || y.2
      | some x, none => x.2 || old.dross.getLsbD k
      | none, some y => y.2 || old.dross.getLsbD k
      | none, none => old.dross.getLsbD k
    else match res (k / (b / 8)) with
      | some x => x.2
      | none => old.dross.getLsbD k)

/-- The source value of slot `j` of part `q`, for widths in bits (R371). -/
def slotSource (sb db q j : Nat) : Option Nat :=
  if sb ≤ db then some (q * (512 / db) + j)
  else if q * (512 / sb) ≤ j ∧ j < (q + 1) * (512 / sb) then some (j - q * (512 / sb)) else none

/-- Whether a format is an integer format (R252). -/
def isInt (fmt : Nat) : Bool := [0x0, 0x1, 0x2, 0xA].contains fmt

/-- Part `q` is in its range (R371). -/
def PartOk (sb db q : Nat) : Prop := if sb ≤ db then q < (512 / sb) / (512 / db) else q < (512 / db) / (512 / sb)

/-- The ALT codes have one width and are neither SD8 nor microscaled (R372). -/
def PlainAlt (l : LaneSet) : Prop :=
  ∀ e < 16, fmtBits (l.alt e) = fmtBits (l.alt 0) ∧ l.alt e ∈ [0, 1, 2, 3, 4, 5, 6, 7, 9, 0xA]

/-- Lanes 60 to 63 are held by the stream-join unit (R362). -/
def joinLane (f : Firing) (j : Nat) : Bool := decide (60 ≤ j) && decide (f.lane.mode 15 = 3)

/-- Value `i` of a register in its MAIN format; one that counts as disabled is a zero (R362). -/
def live (f : Firing) (r : VReg) (i : Nat) : XV :=
  if joinLane f (f.lane.w * i) then .fin false 0 0 else decodeFmt (f.lane.main (i * f.lane.w / 4)) (value r.val f.lane.w i)

/-- The dross of value `i` of a register; one that counts as disabled is clean (R362). -/
def liveX (f : Firing) (r : VReg) (i : Nat) : Bool := !joinLane f (f.lane.w * i) && valueX r f.lane.w i

/-- Instruction `i` converts part `q` of v[a] into v[d] (R371, R372): source values of `sb` bits in the formats `sf` of
their elements, slots of `db` bits in the formats `df` of theirs; `op` converts one pattern under RND, SAT and the
half-word of its place. A slot with an integer target draws nothing (R265). -/
def Converts (i : Instr) (s : State) (t : Nat) (f : Firing) (d a : BitVec 5) (q : Nat) (p : Option (BitVec 3)) (sb db : Nat)
    (sf df : Nat → Nat) (op : Nat → Nat → Nat → Bool → Nat → Nat → Conv) : Prop :=
  let el := fun j => j * db / 32
  let dr := (List.range (512 / db)).any (fun j => (slotSource sb db q j).isSome && decide (f.lane.rnd (el j) = 4) &&
    !isInt (df (el j)))
  let c := fun k j => op (sf (k * sb / 32)) (df (el j)) (f.lane.rnd (el j)) (f.lane.sat (el j))
    (halfAt s f dr (if sb ≤ db then j else k)) (field (f.regs.rdV a).val sb k)
  let src := fun j => (slotSource sb db q j).bind (fun k =>
    if laneBit f.regs p (k * sb / 8) && !joinLane f (k * sb / 8) && !joinLane f (j * db / 8) then some k else none)
  ∃ g v x, After f g dr (min (512 / sb) (512 / db)) (flagsOf ((List.range (512 / db)).filterMap (fun j => (src j).map (c · j)))) ∧
    exec i s = .next (past s t g (f.regs.wrV d v x)) ∧
    HoldsSlots db (f.regs.rdV d) { val := v, dross := x }
      (fun j => (src j).map (fun k => ((c k j).code, fieldX (f.regs.rdV a) sb k || (c k j).arises)))

/-- A block instruction of block `q` whose sequence of MAIN values begins at register `r` is legal (R373). -/
def BlockOk (l : LaneSet) (q : Nat) (r : BitVec 5) : Prop :=
  (∀ e < 16, l.alt e = l.alt 0) ∧ l.alt 0 ∈ [0xB, 0xC, 0xD] ∧
    (l.w = 4 ∧ q = 0 ∧ r.toNat ≤ 30 ∨ l.w = 2 ∧ q = 0 ∨ l.w = 1 ∧ q ≤ 1)

/-- Register and value at position `k` of block `q` of a sequence that begins at register `r` (R373). -/
def blockPos (l : LaneSet) (r : BitVec 5) (q k : Nat) : BitVec 5 × Nat :=
  (r + BitVec.ofNat 5 ((32 * q + k) / l.n), (32 * q + k) % l.n)

/-- The place of the scale of a block: lane 16 for MXFP4, else lane 32 (R373). -/
def scaleLane (alt : Nat) : Nat := if alt = 0xC then 16 else 32

/-- Lane `j` of the register form of a block (R373). -/
def blockLane (alt scale : Nat) (code : Nat → Nat) (j : Nat) : Nat :=
  if j = scaleLane alt then scale
  else if scaleLane alt < j then 0
  else if alt = 0xC then code (2 * j) % 16 + 16 * (code (2 * j + 1) % 16) else code j % 256

/-- A digit of SD8, from its code (R254); an illegal code counts as 0. -/
def digit (c : Nat) : Int := [0, 1, 2, 0, 0, 0, -2, -1].getD c 0

/-- The scalar register of the group whose first vector register is `g` (R374). -/
def expReg (g : BitVec 5) : BitVec 5 := BitVec.ofNat 5 (24 + g.toNat / 8)

/-- The number of value `j` of a group: its digits, the most significant in plane 1 (R254, R374). -/
def groupNum (r : Regs) (g : BitVec 5) (j : Nat) : Int :=
  ((List.range 8).map (fun k => digit (lane (r.rdV (g + BitVec.ofNat 5 k)) j).1.toNat * 4 ^ (7 - k))).sum

/-- The exponent of a group (R374). -/
def groupExp (r : Regs) (g : BitVec 5) : Int := ((r.val (expReg g)).setWidth 8).toInt

/-- The dross of value `j` of a group (R374). -/
def groupX (r : Regs) (g : BitVec 5) (j : Nat) : Bool :=
  r.drossS (expReg g) || (List.range 8).any (fun k => (lane (r.rdV (g + BitVec.ofNat 5 k)) j).2 ||
    decide ((lane (r.rdV (g + BitVec.ofNat 5 k)) j).1.toNat ∉ [0, 1, 2, 6, 7]))

/-- The exact value of a group at `j` (R254). -/
def groupVal (r : Regs) (g : BitVec 5) (j : Nat) : XV := sdValue (groupExp r g) (groupNum r g j)

/-- The scalar and the vector registers of groups wait for no access. -/
def GroupsHere (r : Regs) (gs : List (BitVec 5)) : Prop :=
  ∀ g ∈ gs, Here r [expReg g] ((List.range 8).map (fun k => g + BitVec.ofNat 5 k))

/-- Registers `r'` are those of `r` with group `g` written: an exponent, 64 numbers in legal codes, and dross on every
plane (R374). -/
def GroupWritten (r r' : Regs) (g : BitVec 5) (e : Int) (n : Nat → Int) (x : Nat → Bool) : Prop :=
  r'.rd (expReg g) = { val := BitVec.ofInt 64 e } ∧
  (∀ j < 64, groupNum r' g j = n j ∧ ∀ k < 8, (lane (r'.rdV (g + BitVec.ofNat 5 k)) j).2 = x j ∧
    (lane (r'.rdV (g + BitVec.ofNat 5 k)) j).1.toNat ∈ [0, 1, 2, 6, 7]) ∧
  (∀ m ≠ expReg g, r'.rd m = r.rd m) ∧ (∀ m, (∀ k < 8, m ≠ g + BitVec.ofNat 5 k) → r'.rdV m = r.rdV m) ∧
  r'.p = r.p ∧ r'.pc = r.pc + 4

/-- Instruction `i` completes: it encodes 64 exact values with dross into group `d` (R268), and ORs in their flags.
Nothing else changes but the origin of dross. -/
def EncodesGroup (i : Instr) (s : State) (t : Nat) (f : Firing) (d : BitVec 5) (vs : List XV) (x : Nat → Bool) : Prop :=
  let res := fun j => (sdEncode vs).2.getD j { num := 0 }
  ∃ f', exec i s = .next (withFiring s t f') ∧
    GroupWritten f.regs f'.regs d (sdEncode vs).1 (fun j => (res j).num) (fun j => (res j).arises || x j) ∧
    f' = { f with regs := f'.regs, icount := f.icount + 1, origin := f'.origin,
                  fflags := f.fflags ||| ((List.range 64).map (fun j => (res j).flags)).foldl (· ||| ·) 0 }

/-- An ingot register of a firing (R184). -/
def ingotOf (f : Firing) (n : BitVec 5) : Tab Ingot := if n = 0 then f.w0 else f.w1

/-- The coordinate of a token of a join. -/
def coord (y : Token) : Nat := y.data.toNat % 2 ^ 32

/-- The output of a join for a coordinate and the entries of the two inputs there (R385). -/
def joined (c : Nat) (x y : Option Token) : Token :=
  let v := fun o : Option Token => (o.map (fun z => z.data.toNat / 2 ^ 32 % 2 ^ 32)).getD 0
  { data := BitVec.ofNat 512 (c + v x * 2 ^ 32 + v y * 2 ^ 64), dross := x.any (·.dross) || y.any (·.dross) }

/-- The firing after an instruction that writes an ingot register. -/
def IngotWritten (f g : Firing) (n : BitVec 5) (res : Nat → Ingot) : Prop :=
  (∀ e < 16, Tab.get {} (ingotOf g n) e = res e) ∧
    (if n = 0 then g = { f with w0 := g.w0 } else g = { f with w1 := g.w1 })

end Sys2Proof.Claims

/-- R371, R372, R263, R264: vcvta, vcvtm and vcvts on legal ALT codes and a part in its range.
Readings and choices of the model: notes/assumptions/17.md, 20.md, 59.md, 62.md. -/
def Obligations.Conversions : Prop :=
  ∀ d a p s t f, LaneRuns s t f LaneSet.simd → Here f.regs [] [d, a] → PlainAlt f.lane →
    let mb := 8 * f.lane.w
    let ab := fmtBits (f.lane.alt 0)
    (∀ q : BitVec 5, PartOk mb ab q.toNat → Converts (.vcvta d a q p) s t f d a q.toNat p mb ab f.lane.main f.lane.alt convert) ∧
    (∀ q : BitVec 5, PartOk ab mb q.toNat → Converts (.vcvtm d a q p) s t f d a q.toNat p ab mb f.lane.alt f.lane.main convert) ∧
    (∀ b, Here f.regs [b] [] → f.regs.drossS b = false → ab ≤ mb →
      let q := (f.regs.val b).toNat / 2 ^ 32
      let scale := fp32.decode ((f.regs.val b).toNat % 2 ^ 32)
      q < 4 → PartOk mb ab q →
      Converts (.vcvts d a b p) s t f d a q p mb ab f.lane.main f.lane.alt
        (fun sf df rnd sat h c => scaledNarrow df rnd sat h (decodeFmt sf c) scale))

/-- R373, R267, R253, R362: vmxe encodes 32 MAIN values into the register form of a block, one in a lane of the
stream-join unit as a clean zero, and vmxd rounds the 32 values of a block once into MAIN; dross of any source is on every
output lane of the block.
Readings and choices of the model: notes/assumptions/17.md. -/
def Obligations.MicroscaledBlocks : Prop :=
  ∀ (d a q : BitVec 5) s t f, LaneRuns s t f LaneSet.simd →
    let l := f.lane
    (Here f.regs [] [d, a, a + 1] → BlockOk l q.toNat a →
      let pos := (List.range 32).map (blockPos l a q.toNat)
      let el := fun k => (blockPos l a q.toNat k).2 * l.w / 4
      let xs := pos.map (fun x => live f (f.regs.rdV x.1) x.2)
      let r := mxEncode (l.alt 0) (fun k => l.rnd (el k)) (halfAt s f (draws f)) xs
      let out := pos.any (fun x => liveX f (f.regs.rdV x.1) x.2) || r.2.2
      ∃ g v x, After f g (draws f) 32 ((r.2.1.map (·.2)).foldl (· ||| ·) 0) ∧
        exec (.vmxe d a q) s = .next (past s t g (f.regs.wrV d v x)) ∧
        Holds 1 (f.regs.rdV d) { val := v, dross := x } (fun j => if joinLane f j then none else
          some (blockLane (l.alt 0) r.1 (fun k => (r.2.1.getD k (0, 0)).1) j, out && decide (j ≤ scaleLane (l.alt 0))))) ∧
    (Here f.regs [] [d, d + 1, a] → BlockOk l q.toNat d →
      let dr := (List.range 32).any (fun k => let e := (blockPos l d q.toNat k).2 * l.w / 4
        decide (l.rnd e = 4) && !isInt (l.main e))
      let src := f.regs.rdV a
      let eb := if l.alt 0 = 0xC then 4 else 8
      let top := scaleLane (l.alt 0)
      let dec := fun k => mxDecode (l.alt 0) (lane src top).1.toNat (field src.val eb k)
      let c := fun k => let e := (blockPos l d q.toNat k).2 * l.w / 4
        intoFmt (l.main e) (l.rnd e) (l.sat e) (halfAt s f dr k) (dec k).1
      let res := fun (r : BitVec 5) i => if joinLane f (l.w * i) then none else
        ((List.range 32).find? (fun k => blockPos l d q.toNat k = (r, i))).map (fun k =>
          ((c k).code, fieldX src eb k || (lane src top).2 || (dec k).2 || (c k).arises))
      let live := (List.range 32).filter (fun k => !joinLane f (l.w * (blockPos l d q.toNat k).2))
      ∃ g r, After f g dr 32 (flagsOf (live.map c)) ∧ exec (.vmxd d a q) s = .next (past s t g r) ∧
        Holds l.w (f.regs.rdV d) (r.rdV d) (res d) ∧
        (l.w = 4 → Holds l.w (f.regs.rdV (d + 1)) (r.rdV (d + 1)) (res (d + 1))) ∧
        (∀ m, m ≠ d → m ≠ d + 1 ∨ l.w ≠ 4 → r.rdV m = f.regs.rdV m) ∧ r.s = f.regs.s ∧ r.p = f.regs.p ∧ r.pc = f.regs.pc)

/-- R374, R375, R382, R268: the instructions that write an SD8 group encode exact values: vsde those of v[a] and zeros
after them and in the lanes of the stream-join unit (R362), vsdadd, vsdsub and vsdmul the exact sum, difference and product; vsdcut keeps planes 1 to m, with the dross of
each value on every plane, that of an illegal code in a dropped plane too (R254). -/
def Sys2Proof.Claims.GroupResults : Prop :=
  (∀ d a s t f, LaneRuns s t f LaneSet.simd → GroupsHere f.regs [d] → Here f.regs [] [a] → d.toNat % 8 = 0 →
    let l := f.lane
    EncodesGroup (.vsde d a) s t f d ((List.range 64).map (fun i =>
        if i < l.n then live f (f.regs.rdV a) i else .fin false 0 0))
      (fun i => decide (i < l.n) && liveX f (f.regs.rdV a) i)) ∧
  (∀ d a b s t f, LaneRuns s t f LaneSet.online → GroupsHere f.regs [d, a, b] → d.toNat % 8 = 0 → a.toNat % 8 = 0 → b.toNat % 8 = 0 →
    ∀ e ∈ [(Instr.vsdadd d a b, fun x y => (sumX 0 [x, y]).1), (.vsdsub d a b, fun x y => (sumX 0 [x, y.flip]).1),
        (.vsdmul d a b, fun x y => (mulX x y).1)],
      EncodesGroup e.1 s t f d ((List.range 64).map (fun j => e.2 (groupVal f.regs a j) (groupVal f.regs b j)))
        (fun j => groupX f.regs a j || groupX f.regs b j)) ∧
  (∀ (d a m : BitVec 5) s t f, LaneRuns s t f LaneSet.online → GroupsHere f.regs [d, a] → d.toNat % 8 = 0 → a.toNat % 8 = 0 →
    1 ≤ m.toNat → m.toNat ≤ 8 →
    ∃ g r, exec (.vsdcut d a m) s = .next (past s t g r) ∧ g = { f with origin := g.origin } ∧
      (∀ k < 8, (r.rdV (d + BitVec.ofNat 5 k)).val = (if k < m.toNat then (f.regs.rdV (a + BitVec.ofNat 5 k)).val else 0) ∧
        ∀ j < 64, (r.rdV (d + BitVec.ofNat 5 k)).dross.getLsbD j = groupX f.regs a j) ∧
      r.rd (expReg d) = { val := BitVec.ofInt 64 (groupExp f.regs a) } ∧ (∀ n ≠ expReg d, r.rd n = f.regs.rd n) ∧
      (∀ n, (∀ k < 8, n ≠ d + BitVec.ofNat 5 k) → r.rdV n = f.regs.rdV n) ∧ r.p = f.regs.p ∧ r.pc = f.regs.pc)

/-- R375, R382, R364: vsdd rounds each value of a group once into MAIN; vsdcmp writes A < B for each of 64 clean pairs,
and raises DROSSUSE where a value carries dross. -/
def Sys2Proof.Claims.GroupReads : Prop :=
  (∀ d a s t f, LaneRuns s t f LaneSet.simd → GroupsHere f.regs [a] → Here f.regs [] [d] → a.toNat % 8 = 0 →
    let l := f.lane
    let dr := (List.range 16).any (fun e => decide (l.rnd e = 4) && !isInt (l.main e))
    let c := fun i => let e := i * l.w / 4
      intoFmt (l.main e) (l.rnd e) (l.sat e) (halfAt s f dr i) (groupVal f.regs a i)
    ∃ g v x, After f g dr l.n (flagsOf (((List.range l.n).filter (fun i => !joinLane f (l.w * i))).map c)) ∧
      exec (.vsdd d a) s = .next (past s t g (f.regs.wrV d v x)) ∧
      Holds l.w (f.regs.rdV d) { val := v, dross := x } (fun i => if joinLane f (l.w * i) then none else
        some ((c i).code, groupX f.regs a i || (c i).arises))) ∧
  (∀ d a b s t f, LaneRuns s t f LaneSet.online → GroupsHere f.regs [a, b] → a.toNat % 8 = 0 → b.toNat % 8 = 0 →
    ((∀ j < 64, groupX f.regs a j = false ∧ groupX f.regs b j = false) →
      ∃ q, exec (.vsdcmp d a b) s = .next (past s t f (f.regs.wrP d.toNat q)) ∧
        ∀ j < 64, q.getLsbD j = ltX (groupVal f.regs a j) (groupVal f.regs b j)) ∧
    ((∃ j < 64, groupX f.regs a j = true ∨ groupX f.regs b j = true) →
      exec (.vsdcmp d a b) s = .next (s.raise t f 7 (wordVal (.vsdcmp d a b)))))

/-- R374, R375, R382: the instructions on SD8 groups.
Readings and choices of the model: notes/assumptions/17.md (which roundings draw, disabled values), 21.md. -/
def Obligations.GroupInstructions : Prop := GroupResults ∧ GroupReads

/-- R377, R378, R272 to R274: wadd adds each enabled value exactly into the lane of its element, wrd reads lanes out as
FP32 with one rounding, wclr sets enabled lanes to zero, wcpy copies or folds. No flag but wrd's, no draw but wrd's.
Readings and choices of the model: notes/assumptions/17.md (the draws of wrd over all sixteen elements). -/
def Obligations.IngotResults : Prop :=
  (∀ (d a : BitVec 5) p s t f, LaneRuns s t f LaneSet.simd → Here f.regs [] [a] → InClass f p isFloatFmt →
    let l := f.lane
    let x := fun i => decodeFmt (l.main (i * l.w / 4)) (value (f.regs.rdV a).val l.w i)
    let mine := fun n => (enabled f p).filter (fun i => decide (i * l.w / 4 = n))
    ∃ g, exec (.wadd d a p) s = .next (past s t g f.regs) ∧ IngotWritten f g d (fun n =>
      let o := Tab.get {} (ingotOf f d) n
      { sum := o.sum + BitVec.ofInt 310 (((mine n).filter (fun i => (x i).isFin)).map (fun i => (x i).units (-149))).sum,
        pinf := o.pinf || (mine n).any (fun i => decide (x i = .inf false)),
        ninf := o.ninf || (mine n).any (fun i => decide (x i = .inf true)),
        nan := o.nan || (mine n).any (fun i => decide (x i = .nan)),
        dross := o.dross || (mine n).any (valueX (f.regs.rdV a) l.w) })) ∧
  (∀ (d a : BitVec 5) p s t f, LaneRuns s t f LaneSet.simd → Here f.regs [] [d] →
    let l := f.lane
    let o := fun n => Tab.get {} (ingotOf f a) n
    let c : Nat → Conv := fun n =>
      if (o n).nan then { code := 0x7FC00000 } else if (o n).pinf && (o n).ninf then { code := 0x7FC00000, flags := flNV }
      else fp32.ofXV (l.rnd n) (l.sat n) (halfAt s f (draws f) n)
        (if (o n).pinf then .inf false else if (o n).ninf then .inf true
         else .fin (decide ((o n).sum.toInt < 0)) (o n).sum.toInt.natAbs (-149))
    let en := fun n => laneBit f.regs p (4 * n) && !joinLane f (4 * n)
    ∃ g v x, After f g (draws f) 16 (flagsOf (((List.range 16).filter en).map c)) ∧
      exec (.wrd d a p) s = .next (past s t g (f.regs.wrV d v x)) ∧
      Holds 4 (f.regs.rdV d) { val := v, dross := x } (fun n => if en n then some ((c n).code, (o n).dross) else none)) ∧
  (∀ (d : BitVec 5) p s t f, Executes s t f → f.drained = false → ∃ g, exec (.wclr d p) s = .next (past s t g f.regs) ∧
    IngotWritten f g d (fun n => if laneBit f.regs p (4 * n) then {} else Tab.get {} (ingotOf f d) n)) ∧
  (∀ (d a : BitVec 5) s t f, Executes s t f → f.drained = false →
    let o := fun n => Tab.get {} (ingotOf f a) n
    (∃ g, exec (.wcpy d a 0) s = .next (past s t g f.regs) ∧ IngotWritten f g d o) ∧
    (∃ g, exec (.wcpy d a 1) s = .next (past s t g f.regs) ∧ IngotWritten f g d (fun n => if n = 0 then
      { sum := ((List.range 16).map (fun k => (o k).sum)).sum, pinf := (List.range 16).any (fun k => (o k).pinf),
        ninf := (List.range 16).any (fun k => (o k).ninf), nan := (List.range 16).any (fun k => (o k).nan),
        dross := (List.range 16).any (fun k => (o k).dross) } else {})) ∧
    (∀ m : BitVec 5, 2 ≤ m.toNat → exec (.wcpy d a m) s = .next (s.raise t f 3 (wordVal (.wcpy d a m)))))

/-- R386, R279: grit and gritv take draws at gctr and advance it by 1 and 4; gritc takes the draw at the counter of a
register, with its dross, and leaves gctr. -/
def Sys2Proof.Claims.GritDraws : Prop :=
  ∀ d a s t f, Executes s t f → f.drained = false →
    let g := s.graph f.job
    let draw := fun c : W64 => grit g.key g.instId (BitVec.ofNat 32 f.aid) c
    exec (.grit d) s = .next (past s t { f with gctr := f.gctr + 1 } (f.regs.wr d ((draw f.gctr).setWidth 64) false)) ∧
    (∃ v, exec (.gritv d) s = .next (past s t { f with gctr := f.gctr + 4 } (f.regs.wrV d v 0)) ∧
      ∀ m < 4, v.extractLsb' (128 * m) 128 = draw (f.gctr + BitVec.ofNat 64 m)) ∧
    (Here f.regs [a] [] → exec (.gritc d a) s = .next (past s t f (f.regs.wr d ((draw (f.regs.val a)).setWidth 64) (f.regs.drossS a))))

/-- R387 to R389: vsmpc, vsmpk and vsmpn always complete on a clean parameter and draw for all n positions. The result
is all ones or the index of an enabled value that is neither NaN nor −∞; where a value is +∞, such a value. It is all
ones where no value can be chosen, and for vsmpk with k = 0; one finite candidate is chosen whatever the draw, by vsmpc
and by vsmpk with k > 0. The result carries the dross of any enabled value. -/
def Sys2Proof.Claims.Sampling : Prop :=
  ∀ d a b p s t f, LaneRuns s t f LaneSet.simd → Here f.regs [b] [a] → f.regs.drossS b = false →
    let l := f.lane
    let x := fun i => decodeFmt (l.main (i * l.w / 4)) (value (f.regs.rdV a).val l.w i)
    let able := (enabled f p).filter (fun i => decide (x i ≠ .nan) && decide (x i ≠ .inf true))
    ∀ i ∈ [Instr.vsmpc d a p, .vsmpk d a b p, .vsmpn d a b p], ∃ r : W64,
      exec i s = .next (past s t { f with gctr := f.gctr + BitVec.ofNat 64 ((l.n + 7) / 8) }
        (f.regs.wr d r ((enabled f p).any (valueX (f.regs.rdV a) l.w)))) ∧
      (r = BitVec.allOnes 64 ∨ r.toNat ∈ able) ∧
      ((∃ k ∈ able, x k = .inf false) → r = BitVec.allOnes 64 ∨ x r.toNat = .inf false) ∧
      (able = [] → r = BitVec.allOnes 64) ∧
      (i = .vsmpk d a b p → f.regs.val b = 0 → r = BitVec.allOnes 64) ∧
      (∀ k, able = [k] → (i = .vsmpc d a p ∨ i = .vsmpk d a b p ∧ f.regs.val b ≠ 0) → r = BitVec.ofNat 64 k)

/-- R386 to R389: draws and sampling.
Readings and choices of the model: notes/assumptions/22.md, 53.md. -/
def Obligations.GritInstructions : Prop := GritDraws ∧ Sampling

/-- R385, R191: a join of two inputs whose unread tokens fit sends one token for each output and then nulls, as many as
the tokens that it reads; both inputs are read to their ends. Of inputs in ascending order the match form gives one
output, in ascending order, for each coordinate of both, and the union form one for each coordinate of either.
Readings and choices of the model: notes/assumptions/26.md, 27.md. -/
def Obligations.JoinResults : Prop :=
  ∀ (d a b : BitVec 5) s t f ca cb p, LaneRuns s t f LaneSet.join → f.kind = .ordinary →
    let g := s.graph f.job
    let x := s.actor f.job f.aid
    let ra := Tab.get 0 f.ridx a.toNat
    let rb := Tab.get 0 f.ridx b.toNat
    let ins := fun (n : BitVec 5) lo hi => ((List.range (hi - lo)).map (fun k => g.token x n.toNat (lo + k))).filter (fun y => !y.null)
    x.cRate a.toNat = some ca → x.cRate b.toNat = some cb → x.pRate d.toNat = some p →
    g.wIn x a.toNat = 8 → g.wIn x b.toNat = 8 → g.wOut x d.toNat = 16 →
    (Tab.get 0 f.sent d.toNat + ((ca - ra) + (cb - rb)) ≤ p →
      ∀ i ∈ [Instr.vjoin d a b, .vjoinu d a b], ∃ u f', ∃ toks : List Token, exec i s = .next u ∧ (u.tile t).firing = some f' ∧ u.mem = s.mem ∧
        toks.length = (ca - ra) + (cb - rb) ∧
        (∃ ids, f'.out = f.out ++ toks.map (fun y => ({ ep := d.toNat, tok := y, mask := 0xFFFF, ids := ids } : OutTok))) ∧
        Tab.get 0 f'.sent d.toNat = Tab.get 0 f.sent d.toNat + toks.length ∧
        Tab.get 0 f'.ridx a.toNat = ca ∧ Tab.get 0 f'.ridx b.toNat = cb ∧
        f'.regs = { f.regs with pc := f.regs.pc + 4 } ∧
        (∀ k < toks.length, ∀ y, toks[k]? = some y → y.null = true → ∀ j z, k ≤ j → toks[j]? = some z → z.null = true) ∧
        ((ins a ra ca).Pairwise (fun y z => coord y < coord z) → (ins b rb cb).Pairwise (fun y z => coord y < coord z) →
          (toks.filter (fun y => !y.null)).Pairwise (fun y z => coord y < coord z) ∧
          ∀ c y, (y ∈ toks ∧ y.null = false ∧ coord y = c) ↔
            let fst := (ins a ra ca).find? (fun z => decide (coord z = c))
            let snd := (ins b rb cb).find? (fun z => decide (coord z = c))
            (if i = .vjoin d a b then fst.isSome ∧ snd.isSome else fst.isSome ∨ snd.isSome) ∧ y = joined c fst snd)) ∧
    (p < Tab.get 0 f.sent d.toNat + ((ca - ra) + (cb - rb)) →
      exec (.vjoin d a b) s = .next (s.raise t f 5 (BitVec.ofNat 64 (64 + d.toNat))) ∧
      exec (.vjoinu d a b) s = .next (s.raise t f 5 (BitVec.ofNat 64 (64 + d.toNat))))

/-! Stream runs, the matrix unit, tile copies and configuration (R383, R384, R391 to R402, R417 to R422). -/

namespace Sys2Proof.Claims

open Machine

/-- The graph of a firing has no entry on the scoreboard, and the firing no matrix work (R194, R392). -/
def Quiet (s : State) (f : Firing) : Prop := f.mwork = [] ∧ (s.graph f.job).sb = []

/-- The state with the actor of a firing replaced. -/
def withActor (s : State) (f : Firing) (a : Actor) : State :=
  { s with graphs := Tab.set s.graphs f.job { s.graph f.job with actors := Tab.set (s.graph f.job).actors f.aid a } }

/-- Memory `m'` is `m` with bytes written from `lo` on: a granule of which a written byte carries dross is poisoned, one
that is wholly written clean is not, and any other keeps its mark (R352, R402). -/
def Stored (m m' : Memory) (lo : Nat) (bs : List (Byte × Bool)) : Prop :=
  (∀ i < bs.length, m'.byte (lo + i) = (bs.getD i (0, false)).1) ∧
  (∀ a, ¬ (lo ≤ a ∧ a < lo + bs.length) → m'.byte a = m.byte a) ∧
  ∀ g, m'.isBad g = if (List.range bs.length).any (fun i => decide ((lo + i) / 8 = g) && (bs.getD i (0, false)).2) then true
    else if lo ≤ 8 * g ∧ 8 * g + 8 ≤ lo + bs.length then false else m.isBad g

/-- A firing past a word that has written its actor's tile memories: only its undo log and its replayable mark differ
(R154). -/
def Logged (f f' : Firing) : Prop :=
  f' = { f with regs := { f.regs with pc := f.regs.pc + 4 }, icount := f.icount + 1, undo := f'.undo, replay := f'.replay }

/-- Instruction `i` writes bytes into the tile store of the firing's actor and changes nothing else. -/
def WritesTile (i : Instr) (s : State) (t : Nat) (f : Firing) (lo : Nat) (bs : List (Byte × Bool)) : Prop :=
  ∃ m f', exec i s = .next (withFiring (withActor s f { s.actor f.job f.aid with tstore := m }) t f') ∧
    Logged f f' ∧ Stored (s.actor f.job f.aid).tstore m lo bs

/-- The tile-store address of a byte offset: row in bits 18:6, word in bits 5:0 (R401). -/
def TileAddr (x : W64) (lo : Nat) : Prop := x.toNat < 2 ^ 19 ∧ lo = 256 * (x.toNat / 64) + 4 * (x.toNat % 64)

/-- The tokens of a row whose context has an A format (R438, R181). -/
def rowTokens (afmt : Nat) : Nat := (8 * fmtBits afmt + (if afmt ∈ [0xB, 0xC, 0xD] then 2 else 0) + 63) / 64

/-- A row descriptor (R396). -/
def RowDesc (x : W64) (base n : Nat) : Prop := x.toNat = base * 2 ^ 16 + n ∧ base < 64 ∧ n ≤ 8192

end Sys2Proof.Claims

/-- R383, R384: vsgo takes its endpoints' tokens and places at issue and starts a run of K firings of the elements in
MODE 1; it waits for an unfinished run; its checks raise DROSSUSE, ILLOPND and RATE, in that order, RATE with the lowest
inbound endpoint at fault (notes/assumptions/25.md: the order is the model's). vswt passes where no run is left, and else waits.
Readings and choices of the model: notes/assumptions/7.md, 25.md, 26.md. -/
def Obligations.StreamRuns : Prop :=
  (∀ a s t f, LaneRuns s t f LaneSet.stream → Here f.regs [a] [] →
    let l := f.lane
    let g := s.graph f.job
    let x := s.actor f.job f.aid
    let k := (f.regs.val a).toNat
    let fits := k < 65536 ∧ l.insUsed.Nodup ∧ l.outsUsed.Nodup ∧ (∀ n ∈ l.insUsed, g.wIn x n = 4) ∧ ∀ n ∈ l.outsUsed, g.wOut x n = 4
    ((∃ r, f.run = some r ∧ r.finished l = false) → exec (.vsgo a) s = .next s) ∧
    ((∀ r, f.run = some r → r.finished l = true) →
      (f.regs.drossS a = true → exec (.vsgo a) s = .next (s.raise t f 7 (wordVal (.vsgo a)))) ∧
      (f.regs.drossS a = false → ¬ fits → exec (.vsgo a) s = .next (s.raise t f 3 (wordVal (.vsgo a)))) ∧
      (f.regs.drossS a = false → fits → f.kind = .ordinary → (∀ n ∈ l.runners, opClass (l.opFp n) (l.opFunc n) (l.main n) = true) →
        (∀ n ∈ l.insUsed, n < 64 ∧ ∃ c, x.cRate n = some c) →
        (∀ n ∈ l.insUsed, ∀ c, x.cRate n = some c → c < Tab.get 0 f.ridx n + k →
          (∀ m < n, m ∈ l.insUsed → ∀ c', x.cRate m = some c' → Tab.get 0 f.ridx m + k ≤ c') →
          exec (.vsgo a) s = .next (s.raise t f 5 (BitVec.ofNat 64 n))) ∧
        ((∀ n ∈ l.insUsed, ∀ c, x.cRate n = some c → Tab.get 0 f.ridx n + k ≤ c) →
          (∀ n ∈ l.outsUsed, ∃ p, x.pRate n = some p ∧ Tab.get 0 f.sent n + k ≤ p) →
          ∃ f' r toks, exec (.vsgo a) s = .next (withFiring s t f') ∧ f'.run = some r ∧ r.k = k ∧ r.fired = [] ∧
            (∀ n, Tab.get 0 f'.ridx n = Tab.get 0 f.ridx n + if n ∈ l.insUsed then k else 0) ∧
            (∀ n, Tab.get 0 f'.sent n = Tab.get 0 f.sent n + if n ∈ l.outsUsed then k else 0) ∧
            f'.out = f.out ++ toks ∧ (∀ n, (toks.filter (fun o : OutTok => decide (o.ep = n))).length = if n ∈ l.outsUsed then k else 0) ∧
            f'.gctr = f.gctr + (if l.runners.any (fun n => decide (l.rnd n = 4)) then BitVec.ofNat 64 (2 * k) else 0) ∧
            f' = { f with regs := { f.regs with pc := f.regs.pc + 4 }, icount := f.icount + 1, run := f'.run, ridx := f'.ridx,
                          sent := f'.sent, out := f'.out, gctr := f'.gctr })))) ∧
  (∀ s t f, Executes s t f → f.drained = false →
    (f.run = none → exec .vswt s = .next (past s t { f with phase := .running } f.regs)) ∧
    (f.run ≠ none → exec .vswt s = .next (withFiring s t { f with phase := .vswt })))

/-- R395, R394: sclaim of a handle that is held does nothing; it claims a free physical slot, cleared, and waits where
the tile has none; srel of a held handle is pending, of another it
does nothing; mctx binds a claimed slot of the context's format; an undeclared handle and a
context that the actor has not raise ILLOPND. -/
def Sys2Proof.Claims.SlotsAndContexts : Prop :=
  ∀ (h c : BitVec 5) s t f, Executes s t f →
    let a := s.actor f.job f.aid
    (∀ y, Tab.find a.slots h.toNat = some y →
      (y.claimed = true → exec (.sclaim h) s = .next (past s t f f.regs)) ∧
      (y.claimed = false → s.freeSlots t = 0 → exec (.sclaim h) s = .next (withFiring s t { f with phase := .claim h.toNat })) ∧
      (y.claimed = false → s.freeSlots t ≠ 0 → ∃ x, exec (.sclaim h) s = .next (past (withActor s f x) t
          { f with claims := f.claims ++ [h.toNat], phase := .running } f.regs) ∧
        Tab.find x.slots h.toNat = some { y with claimed := true, mem := {} } ∧
        (∀ k ≠ h.toNat, Tab.find x.slots k = Tab.find a.slots k) ∧ x = { a with slots := x.slots }) ∧
      exec (.srel h) s = .next (past s t { f with rels := if y.claimed then f.rels ++ [h.toNat] else f.rels } f.regs) ∧
      (∀ m, Tab.find a.ctxs c.toNat = some m → y.claimed = true → y.fmt = m.bfmt →
        exec (.mctx c h) s = .next (past s t { f with bbind := Tab.set f.bbind c.toNat h.toNat } f.regs)) ∧
      (∀ m, Tab.find a.ctxs c.toNat = some m → y.claimed = false ∨ y.fmt ≠ m.bfmt →
        exec (.mctx c h) s = .next (s.raise t f 3 (wordVal (.mctx c h))))) ∧
    (Tab.find a.slots h.toNat = none → exec (.sclaim h) s = .next (s.raise t f 3 (wordVal (.sclaim h))) ∧
      exec (.srel h) s = .next (s.raise t f 3 (wordVal (.srel h)))) ∧
    (Tab.find a.ctxs c.toNat = none → exec (.mctx c h) s = .next (s.raise t f 3 (wordVal (.mctx c h))) ∧
      exec (.mzero c) s = .next (s.raise t f 3 (wordVal (.mzero c))))

/-- R396, R397, R438, R392: mrow, mrowc and mrep start a row stream of n rows into a context whose slot is bound, behind
the context's work; mrowc takes its tokens at issue. Rows past the actor's raise BOUNDS, tokens past the rate RATE, and an
mrep whose row length is not that of the first context ILLOPND. -/
def Sys2Proof.Claims.RowStreams : Prop :=
  ∀ (c a b : BitVec 5) s t f m h base n, Executes s t f → Here f.regs [a, b] [] → f.regs.drossS a = false → f.regs.drossS b = false →
    let x := s.actor f.job f.aid
    Tab.find x.ctxs c.toNat = some m → Tab.find f.bbind c.toNat = some h → RowDesc (f.regs.val b) base n → f.mwork = [] →
    (let r := (f.regs.val a).toNat
     (r + n ≤ x.rows → n ≠ 0 → exec (.mrow c a b) s = .next (past s t
        { f with mwork := [.rows c.toNat h (.tstore r) base n f.regs.pc f.icount] } f.regs)) ∧
     (r + n ≤ x.rows → n = 0 → exec (.mrow c a b) s = .next (past s t f f.regs)) ∧
     (x.rows < r + n → exec (.mrow c a b) s = .next (s.raise t f 4 (BitVec.ofNat 64 (max r x.rows))))) ∧
    (∀ (e : BitVec 5) rate, f.kind = .ordinary → x.cRate e.toNat = some rate → (s.graph f.job).wIn x e.toNat = 64 →
      let i := Tab.get 0 f.ridx e.toNat
      let k := n * rowTokens m.afmt
      (i + k ≤ rate → n ≠ 0 → exec (.mrowc c e b) s = .next (past s t
        { f with ridx := Tab.put 0 f.ridx e.toNat (i + k),
                 mwork := [.rows c.toNat h (.chan e.toNat i) base n f.regs.pc f.icount] } f.regs)) ∧
      (rate < i + k → exec (.mrowc c e b) s = .next (s.raise t f 5 (BitVec.ofNat 64 e.toNat)))) ∧
    (∀ (r : BitVec 5) nd e rest, Tab.find x.nodes r.toNat = some nd → x.ctxs = e :: rest → n ≠ 0 →
      (rowLen e.2.afmt = rowLen m.afmt → exec (.mrep c r b) s = .next (past s t
        { f with mwork := [.rows c.toNat h (.node r.toNat) base n f.regs.pc f.icount] } f.regs)) ∧
      (rowLen e.2.afmt ≠ rowLen m.afmt → exec (.mrep c r b) s = .next (s.raise t f 3 (wordVal (.mrep c r b)))))

/-- R394 to R397: slots, contexts and row streams.
Readings and choices of the model: notes/assumptions/26.md. -/
def Obligations.MatrixIssue : Prop := SlotsAndContexts ∧ RowStreams

/-- R394, R398, R399: with no matrix work before them and no scoreboard entry, mzero clears the accumulators of its
context, mdrain writes n rows of converted accumulators into the tile store, at columns from 0 on, and mwait merges the
contexts' flags into fflags and clears them; mwait does not pass while a row stream is left. -/
def Obligations.MatrixResults : Prop :=
  (∀ (c : BitVec 5) s t f m, Executes s t f → Quiet s f → c.toNat < 4 → Tab.find (s.actor f.job f.aid).ctxs c.toNat = some m →
    ∃ x f', exec (.mzero c) s = .next (withFiring (withActor s f x) t f') ∧
      Tab.find x.ctxs c.toNat = some { m with acc := [] } ∧
      (∀ k ≠ c.toNat, Tab.find x.ctxs k = Tab.find (s.actor f.job f.aid).ctxs k) ∧
      x = { s.actor f.job f.aid with ctxs := x.ctxs } ∧
      f' = { f with regs := { f.regs with pc := f.regs.pc + 4 }, icount := f.icount + 1, ckpt := f'.ckpt }) ∧
  (∀ (c a b : BitVec 5) s t f m sat fmt n base, Executes s t f → Here f.regs [a, b] [] → f.regs.drossS a = false → f.regs.drossS b = false →
    let x := s.actor f.job f.aid
    let r := (f.regs.val a).toNat
    Quiet s f → c.toNat < 4 → Tab.find x.ctxs c.toNat = some m →
    (f.regs.val b).toNat = (if sat then 2 ^ 20 else 0) + fmt * 2 ^ 16 + n * 2 ^ 8 + base → n ≤ 64 → base < 64 →
    (if m.int then fmt ∈ [0, 1, 2] else fmt ∈ [3, 4, 5, 6, 7]) →
    (r + n ≤ x.rows → ∃ y f', exec (.mdrain c a b) s = .next (withFiring (withActor s f y) t f') ∧ f'.mwork = [] ∧
      f'.regs = { f.regs with pc := f.regs.pc + 4 } ∧ y = { x with tstore := y.tstore, ctxs := y.ctxs } ∧
      f' = { f with regs := f'.regs, icount := f.icount + 1, undo := f'.undo, replay := f'.replay, ckpt := f'.ckpt, drossOut := f'.drossOut } ∧
      (let w := fmtBits fmt / 8
       let acc := fun i j => Tab.get {} m.acc (64 * ((base + i) % 64) + j)
       (∀ i < n, ∀ j < 64, ∀ k < w, y.tstore.byte (256 * (r + i) + w * j + k) = byteAt (drainValue m fmt sat (acc i j)).1 k) ∧
       (∀ z, (∀ i < n, ¬ (256 * (r + i) ≤ z ∧ z < 256 * (r + i) + 64 * w)) → y.tstore.byte z = x.tstore.byte z) ∧
       ∀ k ≠ c.toNat, Tab.find y.ctxs k = Tab.find x.ctxs k)) ∧
    (x.rows < r + n → exec (.mdrain c a b) s = .next (s.raise t f 4 (BitVec.ofNat 64 (max r x.rows))))) ∧
  (∀ s t f, Executes s t f →
    let a := s.actor f.job f.aid
    (f.mwork = [] → exec .mwait s = .next (past (withActor s f { a with ctxs := a.ctxs.map (fun e => (e.1, { e.2 with flags := 0 })) }) t
      { f with fflags := f.fflags ||| (a.ctxs.map (fun e => e.2.flags)).foldr (· ||| ·) 0 } f.regs)) ∧
    (f.mwork ≠ [] → (∀ w ∈ f.mwork, ∃ c h src base n pc is, w = .rows c h src base n pc is) →
      exec .mwait s = .next (withFiring s t f)))

/-- R401, R402, R352: with no matrix work of the firing and no scoreboard entry, tsld, tsst, tsmv, tsslot, slotts, hrts
and tshr copy their bytes with the dross of each; every other byte of the tile store, of the slot and of handler RAM is
as before, and global memory is not touched. A tile-store span outside the rows raises BOUNDS.
Readings and choices of the model: notes/assumptions/31.md. -/
def Obligations.TileCopies : Prop :=
  ∀ (d a b h : BitVec 5) s t f, Executes s t f → Here f.regs [d, a, b] [d] → Quiet s f →
    f.regs.drossS a = false → f.regs.drossS b = false →
    let x := s.actor f.job f.aid
    (∀ lo, TileAddr (f.regs.val a) lo → (f.regs.val a).toNat % 16 = 0 →
      (lo + 64 ≤ 256 * x.rows →
        (∃ v m, exec (.tsld d a) s = .next (past s t f (f.regs.wrV d v m)) ∧
          ∀ j < 64, lane { val := v, dross := m } j = x.tstore.read (lo + j)) ∧
        WritesTile (.tsst d a) s t f lo ((List.range 64).map (lane (f.regs.rdV d)))) ∧
      (256 * x.rows < lo + 64 → exec (.tsld d a) s = .next (s.raise t f 4 (f.regs.val a)) ∧
        exec (.tsst d a) s = .next (s.raise t f 4 (f.regs.val a)))) ∧
    (f.regs.drossS d = false →
      let dst := (f.regs.val d).toNat
      let src := (f.regs.val a).toNat
      let n := (f.regs.val b).toNat
      (n ≤ 8192 → src + n ≤ x.rows → dst + n ≤ x.rows →
        WritesTile (.tsmv d a b) s t f (256 * dst) (x.tstore.reads (256 * src) (256 * n))) ∧
      (∀ lo, TileAddr (f.regs.val d) lo → n % 4 = 0 → n ≤ 4096 → n ≠ 0 → src + n ≤ x.ramLen → lo + n ≤ 256 * x.rows →
        WritesTile (.hrts d a b) s t f lo ((List.range n).map (fun i => ramByte s f (src + i)))) ∧
      (∀ lo, TileAddr (f.regs.val a) lo → n % 4 = 0 → n ≤ 4096 → n ≠ 0 → dst + n ≤ x.ramLen → lo + n ≤ 256 * x.rows →
        f.entries + n / 64 + 2 ≤ 64 →
        ∃ u f', exec (.tshr d a b) s = .next u ∧ OnlyBuffer s u t f f' ∧ f'.replay = f.replay ∧
          Buffered f f' .hram dst (x.tstore.reads lo n))) ∧
    (∀ y, Tab.find x.slots h.toNat = some y → y.claimed = true → (f.regs.val a).toNat + 64 ≤ x.rows →
      let at0 := 256 * (f.regs.val a).toNat
      WritesTile (.slotts h a) s t f at0 (y.mem.reads 0 16384) ∧
      ∃ z m f', exec (.tsslot h a) s = .next (withFiring (withActor s f z) t f') ∧ Logged f f' ∧
        Tab.find z.slots h.toNat = some { y with mem := m } ∧ Stored y.mem m 0 (x.tstore.reads at0 16384) ∧
        (∀ k ≠ h.toNat, Tab.find z.slots k = Tab.find x.slots k) ∧ z = { x with slots := z.slots })

/-- R417 to R420: cfgdrn drains the lane array and starts a staging set; cfgld loads one third of it from 64 clean bytes
of handler RAM; cfgrun makes a valid staging set the firing's, and an invalid one raises CONFIG; cfgset writes the word
of a context that has no work, whatever the dross of its register, and the repeat nodes take the row tokens of the first context (R438); an
invalid word raises CONFIG. On a running array cfgld and cfgrun raise ILLOPND. -/
def Sys2Proof.Claims.Reconfiguration : Prop :=
  (∀ s t f, Executes s t f →
    (f.drained = true → exec .cfgdrn s = .next (past s t f f.regs)) ∧
    (f.drained = false → f.run = none → exec .cfgdrn s = .next (past s t { f with phase := .running, drained := true, staging := f.lane } f.regs)) ∧
    (f.drained = false → exec .cfgrun s = .next (s.raise t f 3 (wordVal .cfgrun))) ∧
    (f.drained = true → f.staging.valid (s.actor f.job f.aid) = true →
      exec .cfgrun s = .next (past s t { f with lane := f.staging, drained := false } f.regs)) ∧
    (f.drained = true → f.staging.valid (s.actor f.job f.aid) = false → exec .cfgrun s = .next (s.raiseConfig f))) ∧
  (∀ (k a : BitVec 5) s t f, Executes s t f → Here f.regs [a] [] →
    (f.drained = false → exec (.cfgld k a) s = .next (s.raise t f 3 (wordVal (.cfgld k a)))) ∧
    (f.drained = true → k.toNat ≤ 2 → f.regs.drossS a = false → InRam s f (f.regs.val a).toNat 64 → (s.graph f.job).sb = [] →
      let bs := (List.range 64).map (fun i => ramByte s f ((f.regs.val a).toNat + i))
      (∀ b ∈ bs, b.2 = false) →
      ∃ l : LaneSet, exec (.cfgld k a) s = .next (past s t { f with staging := l } f.regs) ∧
        (∀ n < 16, l.word n = if k = 0 then BitVec.ofNat 32 (number ((bs.drop (4 * n)).take 4)) else f.staging.word n) ∧
        (∀ n < 16, l.opWord n = if k = 1 then BitVec.ofNat 32 (number ((bs.drop (4 * n)).take 4)) else f.staging.opWord n) ∧
        (∀ n < 16, l.swi n = if k = 2 then BitVec.ofNat 16 (number ((bs.drop (4 * n)).take 2)) else f.staging.swi n) ∧
        (∀ n < 16, l.swo n = if k = 2 then BitVec.ofNat 16 (number ((bs.drop (4 * n + 2)).take 2)) else f.staging.swo n))) ∧
  (∀ (c a : BitVec 5) s t f m, Executes s t f → Here f.regs [a] [] →
    Tab.find (s.actor f.job f.aid).ctxs c.toNat = some m → (∀ w ∈ f.mwork, w.ctx ≠ c.toNat) →
    let w : W32 := (f.regs.val a).setWidth 32
    (ctxWordOk w = true → ∃ x, exec (.cfgset c a) s = .next (past (withActor s f x) t f f.regs) ∧
      Tab.find x.ctxs c.toNat = some { m with word := w } ∧
      (∀ k ≠ c.toNat, Tab.find x.ctxs k = Tab.find (s.actor f.job f.aid).ctxs k) ∧ x = { s.actor f.job f.aid with ctxs := x.ctxs, nodes := x.nodes } ∧
      (∀ e rest, x.ctxs = e :: rest → x.nodes = (s.actor f.job f.aid).nodes.map (fun k => (k.1, { k.2 with toks := rowTokens e.2.afmt })))) ∧
    (ctxWordOk w = false → exec (.cfgset c a) s = .next (s.raiseConfig f)))

/-- R421, R422, R105: a launch from a legal descriptor of 64 clean bytes reserves a place in the pool, gives 0 and is
held for the commit; at depth 24 it marks the job and gives 2, and with a full pool it gives 1 and counts the refusal. -/
def Sys2Proof.Claims.Launches : Prop :=
  ∀ (d a b : BitVec 5) s t f l, Executes s t f → Here f.regs [a, b] [] → f.regs.drossS a = false → f.regs.drossS b = false →
    (f.regs.val a).toNat % 8 = 0 → InRam s f (f.regs.val a).toNat 64 → (s.graph f.job).sb = [] →
    let bs := (List.range 64).map (fun i => ramByte s f ((f.regs.val a).toNat + i))
    (∀ x ∈ bs, x.2 = false) → descriptor (bs.map (·.1)) (f.regs.val b) = some l →
    let depth := (s.job f.job).depth
    let k := s.kiln
    (24 ≤ depth → exec (.launch d a b) s = .next (past { s with jobs := Tab.set s.jobs f.job { s.job f.job with marked := true } } t f
      (f.regs.wr d 2 false))) ∧
    (depth < 24 → 8192 ≤ k.poolCnt → exec (.launch d a b) s = .next (past
      { s with kiln := { k with refused := min 65535 (k.refused + 1) } } t f (f.regs.wr d 1 false))) ∧
    (depth < 24 → k.poolCnt < 8192 → exec (.launch d a b) s = .next (past
      { s with kiln := { k with poolCnt := k.poolCnt + 1, poolHwm := max k.poolHwm (k.poolCnt + 1) } } t
      { f with launches := f.launches ++ [l] } (f.regs.wr d 0 false)))

/-- R417 to R422: the groups CFG and LNCH.
Readings and choices of the model: notes/assumptions/33.md. -/
def Obligations.ConfigurationAndLaunch : Prop := Reconfiguration ∧ Launches

/-! Silt, burst microcode, the group CTL, commit and traps (R155 to R163, R283 to R292, R342, R403 to R409, R423). -/

namespace Sys2Proof.Claims

open Machine

/-- The state in which the copy of a port tile's engine is `c`. -/
def withCopy (s : State) (p : Nat) (c : Copy) : State :=
  { s with ports := Tab.set s.ports p { s.port p with eng := { (s.port p).eng with copy := some c } } }

/-- A copy executes microcode and no read into its burst buffer is on its way (R408). -/
def Bursts (s : State) (p : Nat) (c : Copy) : Prop :=
  Copies s p c ∧ ∀ a ∈ s.inflight, a.src.ofEngine p = true → ∀ lo, a.dest ≠ .burst lo

/-- A burst control word (R407). -/
def BurstWord (x : W64) (sp n : Nat) : Prop := x.toNat = sp * 2 ^ 16 + n ∧ sp < 4 ∧ n ≤ 4096

/-- The memory of a local space and its length: 1 the tile store, 2 handler RAM (R407). -/
def spaceOf (a : Actor) (sp : Nat) : Memory × Nat := if sp = 1 then (a.tstore, 256 * a.rows) else (a.hram, a.ramLen)

/-- The actor with the memory of a local space replaced. -/
def putSpace (a : Actor) (sp : Nat) (m : Memory) : Actor := if sp = 1 then { a with tstore := m } else { a with hram := m }

/-- An ordinary firing that has nothing to wait for at its commit (R155): its matrix and lane work is done, no access of
its own is on its way, what its commit buffer holds are stores of handler RAM that no scoreboard entry holds (R194), and
its endpoints have their tokens. -/
def Settled (s : State) (f : Firing) : Prop :=
  s.hasGraph f.job = true ∧ f.kind = .ordinary ∧ f.mwork = [] ∧ f.run = none ∧ f.eff6 = [] ∧ f.launches = [] ∧
    (∀ x ∈ f.cbuf, ∃ a cls grp tgt bs after, x = .store .hram a cls grp tgt bs after) ∧ (s.graph f.job).sb = [] ∧
    f.nomem = none ∧ f.mark = none ∧ s.own f = [] ∧ (s.actor f.job f.aid).nodes = [] ∧
    ∀ e ∈ (s.actor f.job f.aid).outs, Tab.get 0 f.sent e.1 = e.2

/-- Handler RAM once the stores of a commit buffer are performed, the oldest first (R155 step 3). -/
def performed (m : Memory) (l : List CItem) : Memory :=
  l.foldl (fun m x => match x with
    | .store .hram a _ _ _ bs _ => m.store a bs
    | _ => m) m

/-- What the commit of a settled firing leaves (R155): its stores are performed, its values are the actor's, and the firing
is over. -/
def Committed (s u : State) (t : Nat) (f : Firing) : Prop :=
  let a := s.actor f.job f.aid
  let x := u.actor f.job f.aid
  (u.tile t).firing = none ∧ u.mem = s.mem ∧ u.inflight = s.inflight ∧
    x.gctr = f.gctr ∧ x.fflags = f.fflags ||| (a.ctxs.map (fun e => e.2.flags)).foldr (· ||| ·) 0 ∧ x.lane = f.lane ∧
    x.w0 = f.w0 ∧ x.w1 = f.w1 ∧ x.hram = performed a.hram f.cbuf ∧ x.tstore = a.tstore

/-- The cause that an instruction of a firing raises (R283, R289). -/
def causeAt (f : Firing) (code : Nat) (v : W64) : Cause :=
  { code := code, tval := v, tpc := (f.regs.pc % 65536).toNat, aid := f.aid }

end Sys2Proof.Claims

/-- R403 to R406: sarm, sdis, sbind and sunbind over a template of the actor's own, and skick, join the effects of the
commit; another selector raises ILLOPND. swait passes once no copy that it names is outstanding, and notes those that it has waited for (R160).
Readings and choices of the model: notes/assumptions/34.md. -/
def Obligations.SiltInstructions : Prop :=
  ∀ (a d : BitVec 5) s t f, Executes s t f → Here f.regs [a] [d] → f.regs.drossS a = false →
    let g := s.graph f.job
    let x := f.regs.val a
    let adds := fun (i : Instr) (e : Eff6) => exec i s = .next (past s t { f with eff6 := f.eff6 ++ [e] } f.regs)
    (∀ p n y, x.toNat = n * 2 ^ 8 + p → p < 256 → n < 64 → g.template? p n = some y → y.aid = f.aid →
      adds (.sarm a) (.arm p n true) ∧ adds (.sdis a) (.arm p n false) ∧ adds (.sunbind a) (.bind p n false) ∧
      (y.declCh.isSome ∨ y.declQ.isSome → adds (.sbind a) (.bind p n true)) ∧
      (y.declCh = none → y.declQ = none → exec (.sbind a) s = .next (s.raise t f 3 (wordVal (.sbind a))))) ∧
    (2 ^ 14 ≤ x.toNat ∨ (∀ y, g.template? (x.toNat % 256) (x.toNat / 256 % 64) = some y → y.aid ≠ f.aid) →
      ∀ i ∈ [Instr.sarm a, .sdis a, .sbind a, .sunbind a], exec i s = .next (s.raise t f 3 (wordVal i))) ∧
    (x.toNat < 256 → (∃ y ∈ g.templates, y.port = x.toNat) → f.entries < 64 →
      (∀ y, s.loaded? x.toNat (krTemplate (f.regs.rdV d).val) = some y → y.1 = f.job ∧ y.2.aid = f.aid) →
      adds (.skick d a) (.kick x.toNat (f.regs.rdV d).val (decide ((f.regs.rdV d).dross ≠ 0)))) ∧
    (256 ≤ x.toNat ∨ (∀ y ∈ g.templates, y.port ≠ x.toNat % 256) → exec (.skick d a) s = .next (s.raise t f 3 (wordVal (.skick d a)))) ∧
    ((∀ c ∈ (s.actor f.job f.aid).comps, c.cxid = x → c.done = true ∨ c.bound = true) →
      exec (.swait a) s = .next (past s t { f with
        phase := .running,
        waited := f.waited ++ ((s.actor f.job f.aid).comps.filter (fun c => c.cxid = x && !c.bound)).map (·.uid) } f.regs)) ∧
    ((∃ c ∈ (s.actor f.job f.aid).comps, c.cxid = x ∧ c.done = false ∧ c.bound = false) →
      exec (.swait a) s = .next (withFiring s t { f with phase := .swait x }))

/-- R407 to R409, R352, R166: brd and bwr between the burst buffer and a local space, bwr to a broadcast, and bfill, whatever
the dross of its data; each bwr ends a segment. A byte of a source with dross marks its target granule.
Readings and choices of the model: notes/assumptions/9.md. -/
def Obligations.LocalBursts : Prop :=
  ∀ (d a b : BitVec 5) s p c sp n, Bursts s p c →
    let r := (s.port p).eng.regs
    Here r [d, a, b] [] → r.drossS d = false → r.drossS b = false → BurstWord (r.val b) sp n → n ≠ 0 →
    let x := s.actor c.job c.aid
    let lo := (r.val d).toNat
    let src := (r.val a).toNat
    (r.drossS a = false → lo + n ≤ 4096 → sp = 1 ∨ sp = 2 → src + n ≤ (spaceOf x sp).2 → src + n ≤ 2 ^ 64 →
      let bs := (spaceOf x sp).1.reads src n
      ∃ m, exec (.brd d a b) s = .next (pastE (withCopy s p { c with buf := m, dross := c.dross || bs.any (·.2) }) p r) ∧
        Stored c.buf m lo bs) ∧
    (r.drossS a = false → src + n ≤ 4096 → sp = 1 ∨ sp = 2 → lo + n ≤ (spaceOf x sp).2 → lo + n ≤ 2 ^ 64 →
      ∃ m, exec (.bwr d a b) s = .next (pastE (withCopy
          { s with graphs := Tab.set s.graphs c.job { s.graph c.job with actors := Tab.set (s.graph c.job).actors c.aid (putSpace x sp m) } }
          p { c with seg := c.seg + 1 }) p r) ∧
        Stored (spaceOf x sp).1 m lo (c.buf.reads src n)) ∧
    (r.drossS a = false → src + n ≤ 4096 → sp = 3 → lo + n ≤ 2 ^ 64 → ∃ u, exec (.bwr d a b) s = .next u ∧ u.mem = s.mem ∧
      (u.port p).eng.copy = some { c with seg := c.seg + 1 } ∧ (u.port p).eng.regs = { r with pc := r.pc + 4 } ∧
      (∀ k ∈ c.subs, let y := s.actor c.job k
        Stored y.tstore (u.actor c.job k).tstore lo ((c.buf.reads src n).take (256 * y.rows - lo))) ∧
      ∀ k ∉ c.subs, u.actor c.job k = s.actor c.job k) ∧
    (lo + n ≤ 4096 → sp = 0 → ∃ m, exec (.bfill d a b) s = .next (pastE (withCopy s p { c with buf := m }) p r) ∧
      Stored c.buf m lo ((List.range n).map (fun i => (byteAt (r.val a).toNat (i % 8), false))))

/-- R408, R231: a global brd or bwr whose granules are translated sends one access for each granule in the class of the
template; no byte of memory changes, and a bwr ends a segment. mbrel of the copy's identity waits for every access of the
copy and then ends it, its completion released with the copy's status. -/
def Obligations.GlobalBursts : Prop :=
  (∀ (d a b : BitVec 5) s p c n ps s1, Bursts s p c →
    let r := (s.port p).eng.regs
    let cls := (((s.graph c.job).template? p c.tmpl).getD {}).cls
    Here r [d, a, b] [] → r.drossS d = false → r.drossS a = false → r.drossS b = false → BurstWord (r.val b) 0 n → n ≠ 0 → c.ticket = none →
    let go := fun (ea : Nat) (write : Bool) => ea + n ≤ 2 ^ 64 ∧ canonicalSpan ea n = true ∧
      State.translateAll (s.pasidOf c.job) c.failed write (.engine p) (pieces (n + 1) ea n) s = ((ps, none), s1)
    ((r.val d).toNat + n ≤ 4096 → go (r.val a).toNat false → ∃ u as, exec (.brd d a b) s = .next u ∧ u.mem = s1.mem ∧
      u.inflight = s1.inflight ++ as ∧ as.map (·.va) = ps.map (·.va) ∧ (∀ y ∈ as, y.src = .engine p c.uid c.job c.aid ∧ y.reads = true ∧
        y.dest = .burst ((r.val d).toNat + (y.va - (r.val a).toNat))) ∧ (s1.graphs = s.graphs → ∀ y ∈ as, y.cls = cls) ∧
      (u.port p).eng.regs = { (s.port p).eng.regs with pc := r.pc + 4 }) ∧
    ((r.val a).toNat + n ≤ 4096 → go (r.val d).toNat true → ∃ u as, exec (.bwr d a b) s = .next u ∧ u.mem = s1.mem ∧
      u.inflight = s1.inflight ++ as ∧ as.map (·.va) = ps.map (·.va) ∧ (∀ y ∈ as, y.src = .engine p c.uid c.job c.aid ∧ y.writes = true) ∧
      (s1.graphs = s.graphs → ∀ y ∈ as, y.cls = cls) ∧
      (∃ c', (u.port p).eng.copy = some c' ∧ c'.seg = c.seg + 1) ∧ (u.port p).eng.regs = { (s.port p).eng.regs with pc := r.pc + 4 })) ∧
  (∀ (a : BitVec 5) s p c, Bursts s p c →
    let r := (s.port p).eng.regs
    Here r [a] [] → r.drossS a = false →
    ((∃ x ∈ s.inflight, x.src.ofCopy p c.uid = true) → r.val a = c.cxid → exec (.mbrel a) s = .next s) ∧
    ((∀ x ∈ s.inflight, x.src.ofCopy p c.uid = false) → r.val a = c.cxid → ∃ u, exec (.mbrel a) s = .next u ∧ u.mem = s.mem ∧
      (u.port p).eng.copy = none ∧ (s.hasGraph c.job = true → ∀ x ∈ (u.actor c.job c.aid).comps, x.uid = c.uid →
        x.released = true ∧ x.cxst = if c.dross then 1 else 0)))

/-- The words that R316 lets microcode execute: majors 0x01 to 0x11, nop, L, LZ, LG, LGZ, SG, vlg, vsg, ATOM, fence and
BURST. -/
def Sys2Proof.Claims.MicrocodeWord (w : W32) : Prop :=
  let major := w.toNat / 2 ^ 26
  1 ≤ major ∧ major ≤ 0x11 ∨ w = 0x48000000 ∨ major ∈ [0x14, 0x15, 0x17, 0x18, 0x19, 0x1C, 0x1D, 0x2B] ∨
    major = 0x1A ∧ 2 ≤ w.toNat / 16 % 4

/-- R315, R316, R408, R199: every instruction outside the subset of microcode, and every illegal word, ends the copy with MCODE,
whose value is the microcode offset; so do the bounds errors: a load past the parameters, a burst past byte 4095 of the buffer or past
address 2^64 − 1, a bad control word, SPACE 3 in brd and bfill, and an mbrel of another copy. A local burst outside the
allocation ends it with BOUNDS. A burst instruction in a firing raises ILLINSTR.
Readings and choices of the model: notes/assumptions/14.md, 32.md. -/
def Obligations.MicrocodeErrors : Prop :=
  (∀ s p c, Copies s p c →
    let stop := s.breakCopy p c 147 (BitVec.ofInt 64 (s.port p).eng.regs.pc)
    (∀ i w, encode i = some w → ¬ MicrocodeWord w → exec i s = .next stop) ∧
    (∀ w, exec (.illegalInstruction w) s = .next stop) ∧
    (∀ e ∈ ramLoads, ∀ d a o k, Here (s.port p).eng.regs [a] [] → (s.port p).eng.regs.drossS a = false →
      (let x := ea ((s.port p).eng.regs.val a) o e.2.1
       x < 0 ∨ 0x2040 < x + e.2.1) → exec (e.1 d a o k) s = .next stop)) ∧
  (∀ (d a b : BitVec 5) s p c, Bursts s p c →
    let r := (s.port p).eng.regs
    Here r [d, a, b] [] → r.drossS d = false → r.drossS a = false → r.drossS b = false →
    let stop := s.breakCopy p c 147 (BitVec.ofInt 64 r.pc)
    let x := (r.val d).toNat
    let y := (r.val a).toNat
    (2 ^ 18 ≤ (r.val b).toNat ∨ 4096 < (r.val b).toNat % 2 ^ 16 →
      exec (.brd d a b) s = .next stop ∧ exec (.bwr d a b) s = .next stop ∧ exec (.bfill d a b) s = .next stop) ∧
    (∀ n, BurstWord (r.val b) 3 n → exec (.brd d a b) s = .next stop ∧ exec (.bfill d a b) s = .next stop) ∧
    (∀ sp n, BurstWord (r.val b) sp n → n ≠ 0 →
      (4096 < x + n → exec (.brd d a b) s = .next stop ∧ exec (.bfill d a b) s = .next stop) ∧
      (4096 < y + n → exec (.bwr d a b) s = .next stop) ∧
      (2 ^ 64 < y + n → exec (.brd d a b) s = .next stop) ∧ (2 ^ 64 < x + n → exec (.bwr d a b) s = .next stop) ∧
      (sp = 1 ∨ sp = 2 →
        (x + n ≤ 4096 → y + n ≤ 2 ^ 64 → (spaceOf (s.actor c.job c.aid) sp).2 < y + n →
          exec (.brd d a b) s = .next (s.breakCopy p c 4 (BitVec.ofNat 64 y))) ∧
        (y + n ≤ 4096 → x + n ≤ 2 ^ 64 → (spaceOf (s.actor c.job c.aid) sp).2 < x + n →
          exec (.bwr d a b) s = .next (s.breakCopy p c 4 (BitVec.ofNat 64 x) true)))) ∧
    (r.val a ≠ c.cxid → exec (.mbrel a) s = .next stop)) ∧
  (∀ (d a b : BitVec 5) s t f, Executes s t f → Here f.regs [d, a, b] [] →
    ∀ i ∈ [Instr.brd d a b, .bwr d a b, .bfill d a b, .mbrel a], exec i s = .next (s.raise t f 1 (wordVal i)))

/-- R155, R342, R163: commit and aend complete in every firing that executes. Where it is an ordinary firing that has
nothing left to wait for they run to their end: its stores are performed, its values become the actor's, its tokens leave
and arrive, and after aend the actor has ended. -/
def Sys2Proof.Claims.CommitResults : Prop :=
  (∀ s t f, Executes s t f → (∃ u, exec .commit s = .next u) ∧ ∃ u, exec .aend s = .next u) ∧
  ∀ s t f, Executes s t f → Settled s f →
    let g := s.graph f.job
    let a := s.actor f.job f.aid
    (∃ u, exec .commit s = .next u ∧ Committed s u t f ∧
      (∀ e ∈ a.ins, (a.ins.map (fun y => Tab.get 0 a.inCh y.1)).Nodup →
        ((u.graph f.job).chan (Tab.get 0 a.inCh e.1)).buf = (g.chan (Tab.get 0 a.inCh e.1)).buf.drop e.2) ∧
      (∀ o k, f.out = [o] → g.outChans a o.ep = [k] → ((u.graph f.job).chan k).transit = (g.chan k).transit ++
        [{ o.tok with data := BitVec.ofNat 512 (o.tok.data.toNat % 2 ^ (8 * (g.chan k).width)) }])) ∧
    (a.deliveries = [] → ∃ u, exec .aend s = .next u ∧ Committed s u t f ∧ (u.actor f.job f.aid).ended = true ∧
      (∀ c ∈ (u.graph f.job).chans, c.2.dst.aid? = some f.aid → c.2.buf = [] ∧ c.2.transit = []) ∧
      ((u.actor f.job f.aid).comps.all (fun c => !c.done) = true →
        ∀ c ∈ (u.graph f.job).chans, c.1 ∈ a.outCh.flatMap (·.2) → c.2.ending = true))

/-- R155, R212: a commit waits, in the step that it has reached, for the firing's matrix work, for its lane run, and before
step 3 for the loads and atomics that it has issued: no store of its commit buffer has been performed then. A rate that is
not met raises RATE with 64 + N at step 2. -/
def Sys2Proof.Claims.CommitWaits : Prop :=
  ∀ s t f, Executes s t f →
    (f.mwork ≠ [] → (∀ w ∈ f.mwork, ∃ c h src base n pc is, w = .rows c h src base n pc is) →
      exec .commit s = .next (withFiring s t { f with icount := f.icount + 1, phase := .commit 1 false })) ∧
    (∀ r, f.mwork = [] → f.run = some r → r.finished f.lane = false →
      exec .aend s = .next (withFiring s t { f with icount := f.icount + 1, phase := .commit 1 true })) ∧
    (f.mwork = [] → f.run = none → f.kind = .ordinary → f.mark = none →
      (∀ e ∈ (s.actor f.job f.aid).outs, Tab.get 0 f.sent e.1 = e.2) →
      (∃ a ∈ s.own f, (∃ n, a.kind = .load n) ∨ ∃ op x y b n, a.kind = .atomic op x y b n) →
      ∃ u g, exec .commit s = .next u ∧ (u.tile t).firing = some g ∧ g.phase = .commit 3 false ∧ g.cbuf = f.cbuf ∧ g.out = f.out ∧
        u.mem = s.mem ∧ u.inflight = s.inflight ∧ (u.actor f.job f.aid).hram = (s.actor f.job f.aid).hram ∧
        (u.graph f.job).chans = (s.graph f.job).chans) ∧
    (∀ e, f.mwork = [] → f.run = none → f.kind = .ordinary →
      (s.actor f.job f.aid).outs = [e] → Tab.get 0 f.sent e.1 ≠ e.2 → (s.actor f.job f.aid).ctxs = [] →
      ∃ u, exec .commit s = .next u ∧
        (f.replay = true → f.nomem = none → s.unperformed f = [] → ∃ c, (u.tile t).causes = (s.tile t).causes ++ [(f.job, c)] ∧ c.code = 5 ∧
          c.tval = BitVec.ofNat 64 (64 + e.1) ∧ (u.tile t).firing = none))

/-- R155, R163, R342: commit and aend.
Readings and choices of the model: notes/assumptions/8.md. -/
def Obligations.CommitInstructions : Prop := CommitResults ∧ CommitWaits

/-- R159, R160, R342, R423, R292, R315: yield leaves no trace of a replayable ordinary firing but that the actor sleeps,
and in a non-replayable or a completion
firing raises RATE with 128; trap raises SWTRAP with its register, whatever its dross; ldepth gives the depth; a
reserved word raises COMPAT and any other non-instruction ILLINSTR. -/
def Obligations.ControlInstructions : Prop :=
  ∀ s t f, Executes s t f →
    (f.kind = .ordinary → f.replay = true → f.nomem = none → s.unperformed f = [] → f.undo = [] → f.ckpt = [] → f.words0 = [] → f.claims = [] →
      ∃ u, exec .yield s = .next u ∧ (u.tile t).firing = none ∧ u.mem = s.mem ∧ (u.actor f.job f.aid).asleep = true ∧
        (u.graph f.job).chans = (s.graph f.job).chans ∧ (u.actor f.job f.aid).gctr = (s.actor f.job f.aid).gctr ∧
        (u.actor f.job f.aid).hram = (s.actor f.job f.aid).hram ∧ (u.actor f.job f.aid).tstore = (s.actor f.job f.aid).tstore) ∧
    (f.kind = .ordinary → f.replay = false → exec .yield s = .next (s.raise t f 5 128)) ∧
    (∀ x y, f.kind = .completion x y → exec .yield s = .next (s.raise t f 5 128)) ∧
    (∀ a, Here f.regs [a] [] → exec (.trap a) s = .next (s.raise t f 8 (f.regs.val a))) ∧
    (∀ d, exec (.ldepth d) s = .next (past s t f (f.regs.wr d (BitVec.ofNat 64 (s.job f.job).depth) false))) ∧
    (∀ m x, exec (.compat m x) s = .next (s.raise t f 2 (wordVal (.compat m x)))) ∧
    (∀ w, exec (.illegalInstruction w) s = .next (s.raise t f 1 (w.setWidth 64)))

/-- R331, R156, R284, R287, R288, R206: a cause in a replayable ordinary firing ends the firing without a trace and waits for the
next boundary of the tile; in a non-replayable one it aborts the graph with the cause's record, and in a fault firing with
FAULTACTOR. A load of the firing that is on its way to no memory has raised NOMEM already, and that is the cause (R348).
Readings and choices of the model: notes/assumptions/12.md. -/
def Obligations.TrapEntry : Prop :=
  ∀ (s : State) t f code v, s.lateFoul f = none →
    (f.kind = .ordinary → f.replay = true → f.nomem = none → s.unperformed f = [] →
      ((s.raise t f code v).tile t).firing = none ∧
      ((s.raise t f code v).tile t).causes = (s.tile t).causes ++ [(f.job, causeAt f code v)] ∧
      (s.raise t f code v).mem = s.mem ∧ ((s.raise t f code v).graph f.job).chans = (s.graph f.job).chans) ∧
    (f.kind = .ordinary → f.replay = false → f.nomem = none → s.unperformed f = [] → s.hasGraph f.job = true →
      (s.raise t f code v).hasGraph f.job = false ∧ ((s.raise t f code v).job f.job).st = .ended ∧
      s.raise t f code v = s.abortGraph f.job 3 (causeAt f code v)) ∧
    (∀ c, f.kind = .fault c → s.unperformed f = [] → s.raise t f code v = s.abortGraph f.job 3 { code := 101, tval := BitVec.ofNat 64 f.aid }) ∧
    (∀ x n pa, f.kind = .ordinary → f.replay = true → f.nomem = none → s.unperformed f = [x] → x.kind = .load n → x.tgt = .none pa →
      ∃ c, ((s.raise t f code v).tile t).causes = (s.tile t).causes ++ [(f.job, c)] ∧ c.code = 56 ∧ c.tval = BitVec.ofNat 64 pa ∧
        c.suspends = true)

/-- R286, R287, R289: a cause taken at a boundary suspends its actor and joins the fault actor's deliveries, or, without a
fault actor, aborts the graph; a seventeenth delivery aborts it with FAULTACTOR; once a quench has saved the fault actor's
node it is discarded (R288). The fault firing starts at the trap
handler with clean registers, the record stands in the trap area, and the end of the firing settles the delivery and
releases the trapped actor. -/
def Sys2Proof.Claims.Deliveries : Prop :=
  (∀ (s : State) j c, s.hasGraph j = true →
    let g := s.graph j
    let open_ := fun fa : FaultActor => g.fault = some fa ∧ (g.actor fa.aid).ended = false ∧ ∀ q, g.quench = some q → fa.aid ∉ q.saved
    (∀ fa, open_ fa → (g.actor fa.aid).deliveries.length < 16 → c.aid ≠ fa.aid →
      ((s.takeCause j c).actor j fa.aid).deliveries = (g.actor fa.aid).deliveries ++ [c] ∧
      (c.suspends = true → ((s.takeCause j c).actor j c.aid).suspended = true) ∧ (s.takeCause j c).mem = s.mem) ∧
    (g.fault = none → s.takeCause j c = s.abortGraph j 3 c) ∧
    (∀ fa, open_ fa → 16 ≤ (g.actor fa.aid).deliveries.length →
      s.takeCause j c = s.abortGraph j 3 { code := 101, tval := BitVec.ofNat 64 fa.aid }) ∧
    (∀ fa q, g.fault = some fa → (g.actor fa.aid).ended = false → g.quench = some q → fa.aid ∈ q.saved → s.takeCause j c = s)) ∧
  (∀ (s : State) t j fa c, let u := s.startFault t j fa c
    ∃ f, (u.tile t).firing = some f ∧ f.kind = .fault c ∧ f.job = j ∧ f.aid = fa.aid ∧ f.regs.pc = fa.handler ∧
      (∀ n, (f.regs.rd n).val = 0 ∧ (f.regs.rd n).dross = false) ∧ (∀ n, (f.regs.rdV n).val = 0 ∧ (f.regs.rdV n).dross = 0) ∧
      u.mem = s.mem ∧ ∀ i b, (s.trapRecord j c)[i]? = some b → (u.actor j fa.aid).hram.byte (fa.area + i) = b) ∧
  (∀ (s : State) j aid c, c.suspends = true → c.aid ≠ aid →
    ((s.settle j aid c).actor j c.aid).suspended = false ∧
    ((s.settle j aid c).actor j aid).deliveries = (s.actor j aid).deliveries.erase c)

/-- R289 to R291: a record for a host fault queue that nothing waits to enter. While EN is 0 or the ring is full it is lost; else its 32 bytes
go, as one write, to the slot that FQTAIL names, with PHASE as the pass over the ring tells: FQTAIL goes on, and its interrupt is sent
after the write. A record whose write leads to no memory is lost; one in a peer's window is in the ring only once its write is
performed, and those that follow wait for it. -/
def Sys2Proof.Claims.FaultRecords : Prop :=
  ∀ (s : State) sec (r : Rec),
    let q := s.faultQ sec
    let size := 2 ^ fld q.base 3 0
    let pa := 4096 * fld q.base 54 12 + 32 * (q.tail.toNat % size)
    let w0 := inFld (if q.tail.toNat / size % 2 = 0 then 1 else 0) 63 63 + inFld (if r.abort then 1 else 0) 62 62 +
      inFld (if r.wr then 1 else 0) 61 61 + inFld (if r.ticket.isSome then 1 else 0) 60 60 + inFld r.queue 59 48 + inFld r.aid 47 32 +
      inFld r.tpc 31 16 + inFld r.cause 8 0
    let bs := clean (leBytes 8 w0 ++ leBytes 8 r.tval.toNat ++ leBytes 8 r.jobTag.toNat ++
      leBytes 8 (inFld r.pasid 63 44 + inFld (r.ticket.getD 0) 41 32 + inFld r.index 31 0))
    let lost := s.setFaultQ sec { q with lost := min 0xFFFF (q.lost + 1) }
    let irq := if q.irqEn = true ∨ (194 ≤ r.cause ∧ r.cause ≤ 197) then [Out.msix 0 0 q.vec] else []
    q.wait = [] →
    (q.en = false ∨ (q.tail - q.head).toNat = size → s.pushRecord sec r = lost) ∧
    (q.en = true → (q.tail - q.head).toNat ≠ size →
      (∀ a, s.target pa = .loc a → s.inExpander a = none → s.pushRecord sec r =
        ({ s with mem := s.mem.write a bs, out := s.out ++ irq } : State).setFaultQ sec { q with tail := q.tail + 1 }) ∧
      (∀ l a, s.target pa = .host l a → s.pushRecord sec r =
        ({ s with out := s.out ++ [.hostWrite l a bs] ++ irq } : State).setFaultQ sec { q with tail := q.tail + 1 }) ∧
      (∀ a, s.target pa = .none a ∨ s.target pa = .reg a → s.pushRecord sec r = lost) ∧
      (∀ p a, s.target pa = .peer p a → (s.peer p).st ≠ .active → s.pushRecord sec r = lost) ∧
      (∀ p a, s.target pa = .peer p a → (s.peer p).st = .active →
        let u := s.pushRecord sec r
        (u.faultQ sec).wait = [r] ∧ (u.faultQ sec).tail = q.tail ∧ u.out = s.out ∧ u.mem = s.mem ∧
          ∃ x, u.inflight = s.inflight ++ [x] ∧ x.tgt = .peer p a ∧ x.kind = .store bs))

/-- R297, R300: a record of a block counts on the bank that holds its like, or takes the lowest free bank, or that of the oldest record of
strictly lower rank, or is dropped and counted; an uncorrected record, and each 256th corrected one, asks for an assay. -/
def Sys2Proof.Claims.BankRecords : Prop :=
  (∀ (b : Block) (r : Bank),
    let u := b.addBank r
    let same := fun e : Nat × Bank => decide (e.2.rank = r.rank ∧ e.2.unit = r.unit ∧ e.2.addr = r.addr)
    u.stamp = b.stamp + 1 ∧
    (∀ k x, b.banks.find? same = some (k, x) → (∃ y, Tab.find u.banks k = some y ∧ y.count = min 0xFFFF (x.count + 1) ∧
        y.addr = x.addr ∧ y.synd = x.synd ∧ y.cause = x.cause ∧ y.aid = x.aid ∧ y.stamp = x.stamp) ∧
      u.ovf = b.ovf ∧ ∀ i ≠ k, Tab.find u.banks i = Tab.find b.banks i) ∧
    (b.banks.find? same = none →
      (∀ i < 4, Tab.find b.banks i = none → (∀ j < i, Tab.find b.banks j ≠ none) →
        Tab.find u.banks i = some { r with stamp := b.stamp } ∧ u.ovf = b.ovf ∧ ∀ j ≠ i, Tab.find u.banks j = Tab.find b.banks j) ∧
      ((∀ i < 4, Tab.find b.banks i ≠ none) →
        (∀ k x, (k, x) ∈ b.banks → x.rank < r.rank → (∀ e ∈ b.banks, e.2.rank < r.rank → e = (k, x) ∨ x.stamp < e.2.stamp) →
          Tab.find u.banks k = some { r with stamp := b.stamp } ∧ u.ovf = b.ovf ∧ ∀ j ≠ k, Tab.find u.banks j = Tab.find b.banks j) ∧
        ((∀ e ∈ b.banks, r.rank ≤ e.2.rank) → u.banks = b.banks ∧ u.ovf = min 0xFFFF (b.ovf + 1))))) ∧
  (∀ (s : State) blk rank unit cause aid addr synd,
    let u := s.addRecord blk rank unit cause aid addr synd
    (rank = 3 ∨ (rank = 1 ∧ ((s.block blk).corrected + 1) % 256 = 0) → (u.block blk).assaying = true) ∧
    (¬ (rank = 3 ∨ (rank = 1 ∧ ((s.block blk).corrected + 1) % 256 = 0)) → (u.block blk).assaying = (s.block blk).assaying) ∧
    ((u.block blk).corr = if rank = 1 then min 0xFFFF ((s.block blk).corr + 1) else (s.block blk).corr) ∧ u.mem = s.mem ∧ u.graphs = s.graphs)

/-- The delivery of causes and the records of faults and errors, as the three claims above say.
Readings and choices of the model: notes/assumptions/13.md, 63.md. -/
def Obligations.TrapDelivery : Prop := Deliveries ∧ FaultRecords ∧ BankRecords

/-! Encoding, steps, memory and reset (R4, R49, R50, R61, R308 to R316, R340). -/

namespace Sys2Proof.Claims

open Machine

/-- Words that the worked examples and tables of the spec write out, with the instructions that they name there. -/
def sampleWords : List (Nat × Instr) :=
  [(0x04E72800, .add 7 7 5), (0x0505300D, .max 8 5 6), (0x04C6001D, .sextw 6 6), (0x08E7FFFF, .addi 7 7 0xFFFF),
   (0x0CC60001, .andi 6 6 1), (0x21000040, .lui 8 0x40), (0x25080020, .slli 8 8 32), (0x24C60050, .srli 6 6 16),
   (0x28D40002, .beq 6 20 2), (0x2CC5FFFD, .bne 6 5 0xFFFD), (0x30050006, .blt 0 5 6), (0x3CD40010, .bgeu 6 20 16),
   (0x48000000, .nop), (0x48000001, .commit), (0x48000002, .yield), (0x48000003, .aend),
   (0x4C092015, .csrs 0 9 0x015), (0x4CA00014, .csrr 5 0x014), (0x50C000A0, .lw 6 0 2 0), (0x58C00070, .sd 6 0 1 0),
   (0x5CE80030, .lgd 7 8 0 0), (0x64A80431, .sgd 5 8 16 1), (0x68200000, .vl 1 0 0 0), (0x686C0030, .vsg 3 12 0 0),
   (0x6CC00400, .recv 6 1), (0x6C010405, .sendv 1 1), (0x6CC00009, .chcnt 6 0), (0x70A63802, .aadd 5 6 7 2),
   (0x74400008, .fence 2 8), (0x78000000, .bar 0), (0x80210012, .vneg 1 1 none), (0x88410000, .vcvta 2 1 0 none),
   (0x8C010008, .wadd 0 1 none), (0x8C00080B, .wcpy 0 0 1), (0x9CA20003, .vext 5 2 0), (0x9C250001, .vbcast 1 5 none),
   (0xA0203003, .mrow 1 0 6), (0xA0274007, .mdrain 1 7 8), (0xA0204805, .mrep 1 0 9), (0xA4090003, .tsslot 0 9),
   (0xA4270001, .tsst 1 7)]

/-- Tile `t` is in focus and not stopped (R123), and its firing stands at code of its actor (R340). -/
def AtCode (s : State) (t : Nat) (f : Firing) : Prop :=
  Executes s t f ∧ (s.block t).stopped = false ∧ f.regs.pc % 4 = 0 ∧ 0 ≤ f.regs.pc ∧ f.regs.pc + 4 ≤ (s.actor f.job f.aid).codeLen

/-- The four bytes of code of a firing's actor at the program counter. -/
def codeBytes (s : State) (f : Firing) : List Byte :=
  (List.range 4).map (fun i => (s.actor f.job f.aid).code.byte (f.regs.pc.toNat + i))

end Sys2Proof.Claims

/-- R308 to R314: the words that the spec's examples write out decode to the instructions that they stand for; words that
break R310 or R315 (a w field of 2, an unlisted selector, an unassigned major) decode to none. A sanity statement. -/
def Obligations.DecodeSamples : Prop :=
  (∀ e ∈ sampleWords, decodeTableWord 32 e.1 = some e.2) ∧
  (∀ w ∈ [0x8C410008, 0x78000007, 0x04000020, 0x7C000000, 0x00000000], decodeTableWord 32 w = none)

/-- R308 to R314: the word of every well-formed instruction, laid out least significant byte first, decodes to that
instruction with every operand, and leaves the bytes after it. -/
def Obligations.DecodeEncode : Prop :=
  ∀ i w, WellFormed i = true → encode i = some w → ∀ rest, decodeBytes (bytesOf w ++ rest) = .ok (i, rest)

/-- R308 to R315: a word that decodes at all is the word of the instruction that it decodes to, which is well-formed: no
reserved bit is passed over and no two instructions share a word. -/
def Obligations.EncodeDecode : Prop :=
  ∀ (w : W32) i rest, decodeBytes (bytesOf w ++ rest) = .ok (i, rest) → encode i = some w ∧ WellFormed i = true

/-- R308, R315, R340, R201, R316, R123: with no event first, a step executes the instruction whose word stands at the program
counter of the agent in focus, and a word that is none as an illegal one; a program counter outside the code raises
BOUNDS. A stopped tile executes nothing. The agenda gives the event or the agent of a step.
Readings and choices of the model: notes/assumptions/3.md. -/
def Obligations.StepRunsDecoded : Prop :=
  (∀ s t f i rest, s.agenda = [] → AtCode s t f → decodeBytes (codeBytes s f) = .ok (i, rest) → step s = exec i s) ∧
  (∀ s t f, s.agenda = [] → AtCode s t f → (∀ i rest, decodeBytes (codeBytes s f) ≠ .ok (i, rest)) →
    step s = .next (s.raise t f 1 (BitVec.ofNat 64 (number ((codeBytes s f).map (fun b => (b, false))))))) ∧
  (∀ s t f, s.agenda = [] → Executes s t f → (s.block t).stopped = false → f.regs.pc % 4 ≠ 0 ∨ f.regs.pc < 0 ∨ ((s.actor f.job f.aid).codeLen : Int) < f.regs.pc + 4 →
    step s = .next (s.raise t f 4 (BitVec.ofInt 64 f.regs.pc))) ∧
  (∀ s p c i rest, s.agenda = [] → Copies s p c →
    let e := (s.port p).eng
    s.portStopped p = false → e.regs.pc % 4 = 0 → 0 ≤ e.regs.pc → e.regs.pc + 4 ≤ 65536 →
    decodeBytes ((List.range 4).map (fun k => e.mcode.byte (e.regs.pc.toNat + k))) = .ok (i, rest) → step s = exec i s) ∧
  (∀ s i rest, s.agenda = .event i :: rest → step s = exec i { s with agenda := rest }) ∧
  (∀ s a rest, s.agenda = .run a :: rest → rest = [] → step s = step { s with agenda := [], focus := a }) ∧
  (∀ s t, s.agenda = [] → s.focus = .tile t → (s.tile t).firing = none ∨ (s.block t).stopped = true → step s = .next s)

/-- R61, R62 and the Reset columns of the register tables: the part after power-on reset. Memory lists nothing
(notes/assumptions/1.md: the model's choice); it runs nothing, has no job and no graph, and the registers that the tables
give a reset value read it.
Readings and choices of the model: notes/assumptions/1.md, 3.md, 5.md, 6.md. -/
def Obligations.ResetState : Prop :=
  let s := State.reset
  s.mem.cells = [] ∧ s.mem.bad = [] ∧ s.mem.wf = true ∧ s.jobs = [] ∧ s.graphs = [] ∧ s.inflight = [] ∧ step s = .next s ∧
    s.board.fwstate = 0 ∧ s.board.ready = false ∧ s.board.island = false ∧ s.board.rcause = 0 ∧
    (∀ r ∈ [(0x10008, 0x2), (0x10010, 0x2000002904), (0x10038, 0x5F0340C00B), (0x200C00, 0x7D0), (0x0000, 0), (0x2000, 0), (0x3000, 0)],
      s.regRead (.pf 0) r.1 = BitVec.ofNat 64 r.2)

/-- R49, R296, the canonical form of memory (notes/assumptions/1.md): whatever the state, and whatever its agenda makes
of it, a step from a state whose physical memory is in canonical form leaves one whose memory is.
Readings and choices of the model: notes/assumptions/1.md, 3.md. -/
def Obligations.MemoryCanonicalKept : Prop := Kept memOk

/-- R49, R50, R209: a clean write of global memory reads back but in a poisoned granule that it does not cover whole, which
keeps its bytes and its mark; a granule of which a write of all its bytes carries dross reads as zero with dross; every
byte of another granule, and every byte beside a clean write, reads as before.
Readings and choices of the model: notes/assumptions/1.md. -/
def Obligations.MemoryAccess : Prop :=
  (∀ (m : Memory) a (bs : List Byte) z,
    let u := m.write a (bs.map (fun b => (b, false)))
    let whole := a ≤ z / 8 * 8 ∧ z / 8 * 8 + 8 ≤ a + bs.length
    (¬ (a ≤ z ∧ z < a + bs.length) → ¬ whole → u.read z = m.read z) ∧
    (a ≤ z → z < a + bs.length → (whole ∨ m.isBad (z / 8) = false) → u.read z = (bs.getD (z - a) 0, false)) ∧
    (a ≤ z → z < a + bs.length → ¬ whole → m.isBad (z / 8) = true → u.read z = (0, true) ∧ u.byte z = m.byte z)) ∧
  (∀ (m : Memory) g (bs : List (Byte × Bool)) z, bs.length = 8 → (∃ b ∈ bs, b.2 = true) →
    (z / 8 = g → (m.write (8 * g) bs).read z = (0, true)) ∧ (z / 8 ≠ g → (m.write (8 * g) bs).read z = m.read z))

/-! Events: resets, firmware and register writes (R16, R17, R59 to R73, R82 to R87, R230, R240). -/

/-- R61, R65: a reset of the whole part clears what runs on it, and keeps the owner's fuses and the security counter. -/
def Sys2Proof.Claims.Cleared (s u : State) : Prop :=
  u.jobs = [] ∧ u.graphs = [] ∧ u.tiles = [] ∧ u.ports = [] ∧ u.queues = [] ∧ u.blocks = [] ∧ u.peers = [] ∧ u.linkPorts = [] ∧
    u.hostLinks = [] ∧ u.inflight = [] ∧ u.tickets = [] ∧ u.kiln = {} ∧ u.board.fwstate = 0 ∧ u.board.ready = false ∧
    u.board.owner = s.board.owner ∧ u.board.arCount = s.board.arCount

/-- R16, R61, R65: power-on reset, PERST, MRESET and a limit reset clear the part; all but the first keep the second tier. After each
the module holds itself in reset until its limits hold: the first limit found violated is shown, an excursion resets a running
module, and leaving reset changes nothing else. FWHALT stops the firmware alone, one that is being verified too. -/
def Sys2Proof.Claims.ModuleResets : Prop :=
  (∀ s : State, ∃ u, exec .powerOnReset s = .next u ∧ Cleared s u ∧ u.mem = {} ∧ u.board.rcause = 0 ∧
    u.board.limit = 0 ∧ u.board.held = true) ∧
  (∀ s : State, ∃ u, exec .perst s = .next u ∧ Cleared s u ∧ u.board.rcause = 1 ∧ u.board.held = true ∧
    u.mem.bad = s.mem.bad ∧ ∀ a, 0x18000000000 ≤ a → u.mem.byte a = s.mem.byte a) ∧
  (∀ (s : State) d, s.hostServes 0 = true → fld d 63 48 = 0x4D52 →
    (d.getLsbD 0 = true → ∃ u, exec (.mreset ⟨.pf 0, 8, 8, d⟩) s = .next u ∧ Cleared s u ∧ u.board.rcause = 1 ∧
      u.board.held = true ∧ u.mem.bad = s.mem.bad ∧
      ∀ a, 0x18000000000 ≤ a → u.mem.byte a = s.mem.byte a) ∧
    (d.getLsbD 0 = false → d.getLsbD 1 = true →
      exec (.fwhalt ⟨.pf 0, 8, 8, d⟩) s = .next { s with board := { s.board with fwstate := 5, fwPend := none } })) ∧
  (∀ (s : State) code, s.board.held = false → 1 ≤ code → code ≤ 4 → ∃ u, exec (.limitReset code) s = .next u ∧ Cleared s u ∧
    u.board.limit = code ∧ u.board.held = true ∧ u.board.rcause = 1 ∧ u.mem.bad = s.mem.bad ∧
    ∀ a, 0x18000000000 ≤ a → u.mem.byte a = s.mem.byte a) ∧
  (∀ (s : State) code, s.board.held = true → s.board.limit = 0 → 1 ≤ code → code ≤ 8 →
    exec (.limitReset code) s = .next { s with board := { s.board with limit := code } }) ∧
  (∀ s : State, s.board.held = true → exec .moduleLeavesReset s = .next { s with board := { s.board with held := false } })

/-- R61, R71, R108: a function reset sets RCAUSE and resets the queues of the function that have nothing to retire; QBASE and QCFG
stand. A live job of one of its queues is killed, and the queue drains and keeps its pointers until the job has retired. -/
def Sys2Proof.Claims.FunctionResets : Prop :=
  ∀ (s : State) link fn, s.hostServes link = true → fn ≤ 63 →
    (s.jobs = [] → ∃ u, exec (.functionReset link fn) s = .next u ∧
      u.board.rcause = 2 ∧ u.mem = s.mem ∧ ∀ q x, Tab.find s.queues q = some x → x.link = link → x.fn = fn → x.retire = x.head →
        (u.queue q).head = 0 ∧ (u.queue q).tail = 0 ∧ (u.queue q).retire = 0 ∧ (u.queue q).err = 0 ∧ (u.queue q).base = x.base ∧
          (u.queue q).cfg = x.cfg) ∧
    (∀ j b q x, s.jobs = [(j, b)] → b.parent = none → b.queue = q → b.st = .waiting → s.graphs = [] → s.queues = [(q, x)] →
      x.link = link → x.fn = fn → x.st = .running → x.retire ≠ x.head →
      ∃ u, exec (.functionReset link fn) s = .next u ∧ u.board.rcause = 2 ∧ u.mem = s.mem ∧ (u.job j).st = .ended ∧
        (u.job j).fail = b.fail.or (some (4, 0)) ∧ (u.queue q).st = .draining ∧ (u.queue q).head = x.head ∧
        (u.queue q).retire = x.retire)

/-- R17: a warning sets COOLFAULT and makes a COOLING notice, a cap condition lowers the cap as well, its end lifts the cap and ends
the excursion where the condition of the warning is over too, a
shutdown asks every graph to quench and then takes island power, and recovery restores the part with every block that the
assays find broken spent. -/
def Sys2Proof.Claims.CoolingEvents : Prop :=
  (∀ s : State,
    let w : State := { s with board := { s.board with coolFault := true, cooling := .warning } }
    let n : State := w.notice false 290 w.bstat
    let cap := fun x : State => { x with board := { x.board with coolFault := true, capLow := true, cooling := .cap } }
    (s.board.cooling = .ok → s.board.held = false → exec .coolingWarning s = .next n) ∧
    (s.board.cooling = .ok → s.board.held = false → exec .coolingCap s = .next (cap n)) ∧
    (s.board.cooling = .warning → exec .coolingCap s = .next (cap s)) ∧
    (s.board.cooling = .warning → exec .coolingCapClear s = .next { s with board := { s.board with cooling := .ok } }) ∧
    (s.board.cooling = .cap →
      (∃ c, (c = .ok ∨ c = .warning) ∧ exec .coolingCapClear s =
        .next { s with board := { s.board with capLow := false, cooling := c }, fresh := s.fresh + 1 }) ∧
      ∃ u, exec .coolingShutdown s = .next u ∧ u.mem = s.mem ∧
        u.board = { s.board with cooling := .shutdown, ready := false, coolFault := true } ∧
        ∀ j g, Tab.find s.graphs j = some g → g.phase ≠ .saved → (u.graph j).quench.isSome = true) ∧
    (s.board.cooling = .shutdown → s.board.island = true → (∀ g ∈ s.graphs, g.2.phase = .saved) →
      exec .coolingShutdown s = .next { s with board := { s.board with island := false } })) ∧
  (∀ (s : State) (x : Assays), s.board.cooling = .shutdown → s.board.island = false → s.board.fwstate = 2 →
    ∃ u, exec (.coolingRecovery x) s = .next u ∧ u.board.island = true ∧ u.board.cooling = .ok ∧
      u.board.capLow = false ∧ u.board.ready = (s.board.ready || s.board.upDone) ∧ ∀ b ∈ x.lasting, (u.block b).spent = true)

/-- Resets and cooling, as the three claims above say.
Readings and choices of the model: notes/assumptions/3.md, 41.md, 44.md, 46.md, 79.md. -/
def Obligations.ResetEvents : Prop := ModuleResets ∧ FunctionResets ∧ CoolingEvents

/-- A write of the mailbox by host link 0's physical function that starts command `cmd` (R66). -/
def Sys2Proof.Claims.MailWrite (s : State) (cmd : Nat) (d : W64) : Prop :=
  s.hostServes 0 = true ∧ s.board.held = false ∧ s.board.mb.busy = false ∧ d.getLsbD 0 = true ∧ fld d 23 16 = cmd

/-- The mailbox names a parameter block within its limits, and the read of it gives `b` (R66). -/
def Sys2Proof.Claims.MailBlock (s : State) (b : List Byte) : Prop :=
  s.board.mb.addr.toNat % 4096 = 0 ∧ s.board.mb.len.toNat ≤ 2 ^ 24 ∧ b.length = s.board.mb.len.toNat

/-- A secure command whose SEQ and signature are good, with payload `p` (R66). -/
def Sys2Proof.Claims.MailSigned (s : State) (b p : List Byte) : Prop :=
  ∃ o, s.board.owner = some o ∧ 2436 ≤ b.length ∧ s.board.mb.seq ≤ leNat (b.take 8) ∧
    Config.ownerVerify o (sha3 (b.take (b.length - 2420))) (asciiBytes "ALROS-MB") (b.drop (b.length - 2420)) = true ∧
    p = (b.take (b.length - 2420)).drop 16

/-- R62, R66, R19, R82, R83, R87: LOADFW reads the image in requests of at most 4096 bytes and gives it to the ROM; WORLDREQ, ENROL and SVNRAISE with a good SEQ and signature have
their effects and come to status 0; the first ENROL fuses the owner; another command is BADCMD; a block that cannot be read is
FETCHFAULT, after which FWSTATE still reads 0 (notes/assumptions/91.md: the model's choice); and the end of a command shows its status with an interrupt. -/
def Sys2Proof.Claims.MailboxCommands : Prop :=
  (∀ (s : State) d b, MailWrite s 1 d → s.board.fwstate = 0 →
    (MailBlock s b → ∃ u, exec (.loadfw ⟨.pf 0, 0x1000, 8, d⟩ (some b)) s = .next u ∧ u.board.fwstate = 1 ∧
      u.board.fwPend = some (s.checkFirmware b) ∧ u.board.mb.busy = true ∧ u.mem = s.mem ∧
      u.out = s.out ++ (List.range ((s.board.mb.len.toNat + 4095) / 4096)).map (fun k =>
        .hostRead 0 (s.board.mb.addr.toNat + 4096 * k) (min 4096 (s.board.mb.len.toNat - 4096 * k)))) ∧
    (s.board.mb.addr.toNat % 4096 = 0 → s.board.mb.len.toNat ≤ 2 ^ 24 →
      ∃ u, exec (.loadfw ⟨.pf 0, 0x1000, 8, d⟩ none) s = .next u ∧ u.board.mb.result = some 5 ∧ u.board.fwstate = 0)) ∧
  (∀ (s : State) d b p e, MailWrite s 2 d → s.board.fwstate = 2 → MailBlock s b → MailSigned s b p → 8 ≤ p.length →
    leNat ((p.drop 4).take 4) = 0 → worldEntries (leNat (p.take 4)) (p.drop 8) = some [e] →
    ∃ u, exec (.worldreq ⟨.pf 0, 0x1000, 8, d⟩ (some b)) s = .next u ∧ u.board.mb.result = some 0 ∧
      u.board.mb.seq = leNat (b.take 8) + 1 ∧
      (e.1 = 0 → u.wantsPlot e.2.1 = decide (e.2.2.1 = 1)) ∧ (e.1 = 1 → u.portSecure e.2.1 = decide (e.2.2.1 = 1)) ∧
      (e.1 = 2 → u.wantsRegion e.2.1 = e.2.2)) ∧
  (∀ (s : State) d b, MailWrite s 3 d → s.board.fwstate = 2 → MailBlock s b → s.board.owner = none →
    let p := b.drop 1312
    let k := leNat (p.take 1)
    p.length = 1320 → k ≤ 15 → leNat ((p.take 8).drop 1) = 0 →
    ∃ u, exec (.enrol ⟨.pf 0, 0x1000, 8, d⟩ (some b)) s = .next u ∧ u.board.mb.result = some 0 ∧
      u.board.owner = some (sha3 (b.take 1312)) ∧ Tab.find u.board.keys k = some (p.drop 8)) ∧
  (∀ (s : State) d b p, MailWrite s 4 d → s.board.fwstate = 2 → MailBlock s b → MailSigned s b p →
    ∃ u, exec (.svnraise ⟨.pf 0, 0x1000, 8, d⟩ (some b)) s = .next u ∧ u.board.mb.result = some 0 ∧
      u.board.arCount = max s.board.arCount s.board.svn) ∧
  (∀ (s : State) d cmd, MailWrite s cmd d → cmd = 0 ∨ 4 < cmd →
    ∃ u, exec (.mailboxBadcmd ⟨.pf 0, 0x1000, 8, d⟩) s = .next u ∧ u.board.mb.result = some 1 ∧ u.board.mb.busy = true) ∧
  (∀ (s : State) st, s.board.mb.busy = true → s.board.mb.result = some st →
    exec .mailboxDone s = .next { s with
      board := { s.board with mb := { s.board.mb with busy := false, done := true, status := st, result := none } },
      out := s.out ++ [.msix 0 0 0] })

/-- R18, R62, R82, R84, R85: firmware that passed the ROM's checks starts and sets the links' modes, one that did not leaves
FWSTATE 3 or 4; bring-up makes the part READY, its enabled queues run and its spent blocks stay spent; a measurement answers
with the nonce under the attestation key, whose certificate the identity key has signed. -/
def Sys2Proof.Claims.Firmware : Prop :=
  (∀ (s : State) modes exps st svn dg, s.board.fwstate = 1 → s.board.fwPend = some (st, svn, dg) →
    (st ≠ 0 → ∃ u, exec (.firmwareStart modes exps) s = .next u ∧ u.board.fwstate = (if st = 3 then 4 else 3) ∧
      u.board.fwPend = none ∧ u.board.mb.result = some st ∧ u.board.island = s.board.island) ∧
    (st = 0 → (∀ l < 4, (exps.filter (fun e => e.1 = l)).length ≤ 8) → modes.length = 4 → modes.headD 2 ≤ 1 → (∀ m ∈ modes, m ≤ 2) →
      ∃ u, exec (.firmwareStart modes exps) s = .next u ∧ u.board.fwstate = 2 ∧ u.board.svn = svn ∧ u.board.fwDigest = dg ∧
        u.board.island = true ∧ u.board.mb.result = some 0 ∧
        (let key := Config.mldsaPublic (Config.attestSecret Config.identitySecret dg)
         u.board.attest = some (key, Config.mldsaSign Config.identitySecret key)) ∧ ∀ n < 4, (u.hostLink n).mode = modes.getD n 0)) ∧
  (∀ (s : State) (found : Assays) worlds ports a n, s.board.fwstate = 2 → s.board.ready = false → s.board.cooling ≠ .shutdown →
    ∃ u, exec (.bringupComplete found worlds ports a n) s = .next u ∧ u.board.ready = true ∧ u.board.upDone = true ∧
      (∀ b ∈ found.lasting, (u.block b).spent = true) ∧
      (∀ q x, Tab.find s.queues q = some x → x.st = .disabled → x.en = true → (u.queue q).st = .running)) ∧
  (∀ (s : State) nonce, s.hostServes 0 = true → s.board.fwstate = 2 → nonce.length = 32 →
    ∃ m, nonce <:+ m ∧ exec (.spdmMeasurement nonce) s = .next (s.emit
      (.spdm m (Config.mldsaSign (Config.attestSecret Config.identitySecret s.board.fwDigest) m))))

/-- R86, R87: a change of a plot's world takes effect once no graph holds the plot, that of a region once no request is in
flight to it; the secure world's write of WPLOT asks for each bit that it changes, its write of WPORT takes effect at once,
and another requester's write is ignored. -/
def Sys2Proof.Claims.Worlds : Prop :=
  (∀ (s : State) p w, s.board.worldPend = [.plot p w] → s.holders p = [] →
    ∃ v : W64, v.getLsbD (p % 64) = w ∧
      (∀ i, i ≠ p % 64 → v.getLsbD i = (Tab.get 0 s.board.wplot (p / 64)).getLsbD i) ∧
      exec (.plotWorldChange p) s = .next (State.resettle { s with board := { s.board with
        wplot := Tab.put 0 s.board.wplot (p / 64) v, worldPend := [] } })) ∧
  (∀ (s : State) r a b, s.board.worldPend = [.region r a b] → (∀ x ∈ s.inflight, ∀ pa, x.tgt ≠ .loc pa) → (∀ e ∈ s.ports, e.2.reqs = []) →
    exec (.regionWorldChange r) s = .next { s with board := { s.board with
      wrega := Tab.put 0 s.board.wrega r a, wregb := Tab.put 0 s.board.wregb r b, worldPend := [] } }) ∧
  (∀ (s : State) k d, k < 4 →
    (∃ u, exec (.worldTableWrite ⟨.secure, 0x600000 + 8 * k, 8, d⟩) s = .next u ∧ u.board.wplot = s.board.wplot ∧
      ∀ i < 64, u.wantsPlot (64 * k + i) = d.getLsbD i) ∧
    exec (.worldTableWrite ⟨.secure, 0x600020 + 8 * k, 8, d⟩) s =
      .next { s with board := { s.board with wport := Tab.put 0 s.board.wport k d } } ∧
    (s.hostServes 0 = true → exec (.worldTableWrite ⟨.pf 0, 0x600000 + 8 * k, 8, d⟩) s = .next s))

/-- Firmware, its mailbox and the worlds, as the three claims above say.
Readings and choices of the model: notes/assumptions/3.md, 47.md, 48.md, 57.md, 58.md, 90.md, 91.md. -/
def Obligations.FirmwareEvents : Prop := MailboxCommands ∧ Firmware ∧ Worlds

/-- R67 to R73: the writes of a queue's registers. QTAIL moves within the ring and records error 1 past it, error 2 backwards
and error 4 from an actor without its bit; EN starts a Disabled queue of a READY part and drains a Running one; KILL ends the
jobs with status 4; RESET clears a Disabled queue; poisoned data records error 6. -/
def Sys2Proof.Claims.QueueWrites : Prop :=
  ∀ (s : State) l n d, s.hostServes l = true → n < 4096 →
    let q := s.queue n
    let t : W32 := d.setWidth 32
    let req := fun (off : Nat) => (⟨.pf l, 0x100000 + 64 * n + off, 8, d⟩ : RegReq)
    ((t - q.head).toNat ≤ q.size → (q.tail - q.head).toNat ≤ (t - q.head).toNat →
      exec (.qtailWrite (req 0x10)) s = .next (s.setQueue n { q with tail := t })) ∧
    (q.size < (t - q.head).toNat → exec (.qtailWrite (req 0x10)) s = .next (s.setQueue n (if q.err = 0 then { q with err := 1 } else q))) ∧
    ((t - q.head).toNat ≤ q.size → (t - q.head).toNat < (q.tail - q.head).toNat →
      exec (.qtailWrite (req 0x10)) s = .next (s.setQueue n (if q.err = 0 then { q with err := 2 } else q))) ∧
    (q.cfg.getLsbD 19 = false → exec (.qtailWrite ⟨.actor false, 0x100000 + 64 * n + 0x10, 8, d⟩) s =
      .next (s.setQueue n (if q.err = 0 then { q with err := 4 } else q))) ∧
    (d.getLsbD 0 = true → q.st = .disabled → s.board.ready = true → ∃ u, exec (.queueEnable (req 8)) s = .next u ∧
      (u.queue n).st = .running ∧ (u.queue n).en = true ∧ (u.queue n).base = q.base ∧ u.mem = s.mem) ∧
    (d.getLsbD 0 = false → q.st = .running → q.flr = false → ∃ u, exec (.queueDisable (req 8)) s = .next u ∧
      (u.queue n).st = (if q.retire = q.head then .disabled else .draining) ∧ (u.queue n).en = false ∧ (u.queue n).tail = q.tail) ∧
    (∀ j b, d.getLsbD 0 = true → d.getLsbD 1 = false → s.jobs = [(j, b)] → b.parent = none → b.queue = n → b.st = .waiting → s.graphs = [] →
      ∃ u, exec (.qctlKill (req 0x28)) s = .next u ∧ (u.job j).st = .ended ∧ (u.job j).fail = b.fail.or (some (4, 0)) ∧
        u.kiln.leaseFree = min ((2 ^ 32 - 1) * 1000) (s.kiln.leaseFree + b.lease)) ∧
    (d.getLsbD 0 = false → d.getLsbD 1 = true → q.st = .disabled → ∃ u, exec (.qctlReset (req 0x28)) s = .next u ∧
      (u.queue n).head = 0 ∧ (u.queue n).tail = 0 ∧ (u.queue n).retire = 0 ∧ (u.queue n).err = 0 ∧ (u.queue n).cfg = q.cfg) ∧
    (∀ v, exec (.poisonedRegisterWrite (.pf l) (0x100000 + 64 * n + 0x10) v) s =
      .next (s.setQueue n (if q.err = 0 then { q with err := 6 } else q)))

/-- R59, R110, R143, R230, R240: other register writes: an ordinary register takes the value, KLREFILL and LEASE_ADD add to
their accounts, TRSVC has what waits on a ticket walk again or fails it, and TRINVC starts a flux. -/
def Sys2Proof.Claims.OtherWrites : Prop :=
  ∀ (s : State) l d, s.hostServes l = true →
    let req := fun (off : Nat) => (⟨.pf l, off, 8, d⟩ : RegReq)
    exec (.registerWrite (req 0x701000)) s = .next { s with board := { s.board with asel := min 4351 (fld d 12 0) } } ∧
    exec (.registerWrite (req 0x10008)) s =
      .next { s with kiln := { s.kiln with halt := d.getLsbD 2, weldEn := d.getLsbD 1, preempt := d.getLsbD 0 } } ∧
    exec (.registerWrite (req 0x500000)) s = .next s ∧
    (∀ v, exec (.poisonedRegisterWrite (.pf l) 0x10008 v) s = .next s) ∧
    (∀ j n, s.quotaJob (fld d 63 52) = some j → (s.queue (fld d 63 52)).secure = false → (s.job j).account = some n →
      exec (.klrefill (req 0x10018)) s = .next (s.setJob j { s.job j with account := some (min (2 ^ 48 - 1) (n + fld d 47 0)) })) ∧
    exec (.leaseAdd (req 0x10030)) s =
      .next { s with kiln := { s.kiln with leaseFree := min ((2 ^ 32 - 1) * 1000) (s.kiln.leaseFree + 1000 * fld d 31 0) } } ∧
    (∀ t j aid k f, Tab.find s.tickets (fld d 9 0) = some t → t.world = false → t.waiters = [.firing j aid none] → s.hasGraph j = true →
      (s.actor j aid).held = [] → s.firingOf j aid = some (k, f) → f.ticket = some (fld d 9 0) →
      let u : State := { s with tickets := Tab.erase s.tickets (fld d 9 0) }
      (∀ va w pa x, d.getLsbD 16 = false → f.again = some (va, w) → u.translate (u.pasidOf j) va w (.firing j aid none) = (.ok pa, x) →
        exec (.ticketRetry (req 0x2020)) s = .next (withFiring x k { f with ticket := none, again := none })) ∧
      (d.getLsbD 16 = true → exec (.ticketFail (req 0x2020)) s =
        .next (withFiring u k { f with ticket := none, again := none, failed := f.failed ++ [t.page] }))) ∧
    (d.getLsbD 31 = true → s.flux = none → fld d 30 29 ≠ 3 → ∃ u x, exec (.fluxStart (req 0x2018)) s = .next u ∧ u.flux = some x ∧
      x.scope = fld d 30 29 ∧ x.pasid = fld d 19 0 ∧ x.va % 2 ^ x.sh = 0 ∧ x.left = List.range 256 ∧ x.ats = none ∧ u.mem = s.mem)

/-- R28, R30, R31, R33: the writes of a peer's entry and of a link port's control. -/
def Sys2Proof.Claims.LinkWrites : Prop :=
  ∀ (s : State) l d, s.hostServes l = true →
    (∀ q < 4096, let r : RegReq := ⟨.pf l, 0x210000 + 8 * q, 8, d⟩
      (fld d 1 0 = 1 → (s.peer q).st ≠ .active → ∃ u, exec (.peerActivate r) s = .next u ∧ (u.peer q).st = .active ∧
        (u.peer q).ocount = 0 ∧ (u.peer q).ibudget = max 1 (fld d 25 16) ∧ (u.peer q).obudget = max 1 (fld d 15 6) ∧
        (u.peer q).poison = d.getLsbD 3 ∧ (u.peer q).epoch = (s.peer q).epoch ∧ u.mem = s.mem) ∧
      (fld d 1 0 = 0 → (s.peer q).st = .isolated → ∃ u, exec (.peerDisable r) s = .next u ∧ (u.peer q).st = .disabled ∧
        (u.peer q).epoch = (s.peer q).epoch) ∧
      (fld d 1 0 = 0 → (s.peer q).st = .active → ∃ u, exec (.peerDisable r) s = .next u ∧ (u.peer q).st = .disabled ∧
        (u.peer q).epoch = ((s.peer q).epoch + 1) % 256 ∧ (u.peer q).ocount = 0)) ∧
    (∀ n < 48, let r : RegReq := ⟨.pf l, 0x200000 + 64 * n, 4, d⟩
      (d.getLsbD 2 = true → exec (.linkPortEnable r) s = .next (s.setLinkPort n { s.linkPort n with en := true })) ∧
      (d.getLsbD 2 = false → exec (.linkPortDisable r) s = .next (s.setLinkPort n { s.linkPort n with en := false })))

/-- Register writes, as the three claims above say.
Readings and choices of the model: notes/assumptions/3.md, 55.md, 56.md. -/
def Obligations.RegisterWrites : Prop := QueueWrites ∧ OtherWrites ∧ LinkWrites

/-! Events: jobs, quenches and moves, power (R74 to R81, R90 to R104, R119 to R141, R164, R171, R300, R301). -/

/-- R17, R71, R72, R74, R89: a turn of a fetch reads some doublewords of the record at QHEAD that it has not read, of a READY part. A
record that is whole is a new job and moves QHEAD on, and one that R74 refuses ends it with BADREC; dross halts the queue. -/
def Sys2Proof.Claims.Fetches : Prop :=
  ∀ (s : State) q dws ext bs rest s1,
    let x := s.queue q
    let new := ((if s.ringLocal q then dws else List.range 16).filter (fun i => decide (i < 16) && (Tab.find x.got i).isNone)).dedup
    let part := fun i : Nat => (bs.drop (8 * i)).take 8
    let got := new.foldl (fun t i => Tab.set t i (part i)) x.got
    let rec? := recordOf ((List.range 16).flatMap (fun i => (Tab.get [] got i).map (·.1))) (s1.queue q).secure
    x.st = .running → s.board.ready = true → x.head ≠ x.tail → (s.queueJobs q).length < 16 → new ≠ [] →
    s.readVa x.pasid x.secure (.ring q) [] (x.slot x.head) 128 ext = (.ok bs, rest, s1) →
    ((∃ i ∈ new, anyDross (part i) = true) → ∃ u, exec (.recordFetch q ⟨dws, ext⟩) s = .next u ∧ (u.queue q).st = .halted ∧
      u.jobs = s1.jobs ∧ (u.queue q).err = if (s1.queue q).err = 0 then 5 else (s1.queue q).err) ∧
    ((∀ i ∈ new, anyDross (part i) = false) → (∃ i < 16, Tab.find got i = none) →
      exec (.recordFetch q ⟨dws, ext⟩) s = .next (s1.setQueue q { s1.queue q with got := got })) ∧
    ((∀ i ∈ new, anyDross (part i) = false) → (∀ i < 16, Tab.find got i ≠ none) → ∃ u, exec (.recordFetch q ⟨dws, ext⟩) s = .next u ∧
      (u.queue q).head = (s1.queue q).head + 1 ∧ u.mem = s1.mem ∧ (u.job s1.nextId).jr = rec?.1 ∧ (u.job s1.nextId).queue = q ∧
      (u.job s1.nextId).index = (s1.queue q).head ∧ (u.job s1.nextId).parent = none ∧
      (u.job s1.nextId).account = (if rec?.1.quota = 0 then none else some rec?.1.quota) ∧
      (rec?.2 = false → (u.job s1.nextId).st = .ended ∧ (u.job s1.nextId).fail = some (1, 0)) ∧
      (rec?.2 = true → rec?.1.dep = false → (u.job s1.nextId).fail = none ∧
        (u.job s1.nextId).st = if rec?.1.nop then .ended else .fetched))

/-- R81, R82, R90: an image with a bad header ends its job with BADIMAGE; a good one that is signed leaves it Waiting with the
verified copy; one whose copy has no room leaves it Fetched, and is reported once. -/
def Sys2Proof.Claims.Verifications : Prop :=
  ∀ (s : State) j b ext h e1 s1, Tab.find s.jobs j = some b → b.st = .fetched → s.waits (.verify j) = false →
    s.readFor j (.verify j) b.jr.image.toNat (256 - b.jr.image.toNat % 256) ext = (.ok h, e1, s1) →
    let len := Machine.field (h.map (·.1)) 8 4
    (anyDross h = true ∨ len < 2752 ∨ len % 64 ≠ 0 → ∃ u, exec (.imageVerify j ext) s = .next u ∧ (u.job j).st = .ended ∧
      (u.job j).fail = (s1.job j).fail.or (some (2, 0))) ∧
    (anyDross h = false → 2752 ≤ len → len % 64 = 0 → s.copyFits len = false → b.copyWarned = false →
      ∃ u, exec (.imageVerify j ext) s = .next u ∧ u.job j = { b with copyWarned := true } ∧ u.graphs = s.graphs) ∧
    (∀ bs e2 s2 m, anyDross h = false → 2752 ≤ len → len % 64 = 0 → s.copyFits len = true →
      s.readFor j (.verify j) b.jr.image.toNat len ext = (.ok bs, e2, s2) →
      anyDross bs = false → s2.signedImage (bs.map (·.1)) = true → imageOf (bs.map (·.1)) = some m → m.secure = false →
      ∃ u, exec (.imageVerify j ext) s = .next u ∧ (u.job j).st = .waiting ∧ (u.job j).image = some m ∧ u.graphs = s2.graphs)

/-- R91 to R94: a decision makes a Waiting job that its order admits a candidate at its base priority, and places nothing
under a cap of 0; a lone candidate that can be placed is placed, and the credits of sources with candidates come out as they were. -/
def Sys2Proof.Claims.Decisions : Prop :=
  (∀ (s : State) j b, s.kiln.halt = false → s.board.fwstate ≠ 5 → s.board.ready = true → s.kiln.cap = 0 → s.jobs = [(j, b)] →
    s.graphs = [] → b.st = .waiting → b.image.isSome = true → b.parent = none → b.jr.dep = false →
    (s.variants j).any (s.placeable j) = true →
    ∃ u, exec .dispatchDecision s = .next u ∧ (u.job j).st = .candidate ∧ (u.job j).eff = s.basePrio j ∧ (u.job j).passes = 0 ∧
      u.graphs = [] ∧ u.mem = s.mem) ∧
  (∀ (s : State) j s1, s.kiln.halt = false → s.board.fwstate ≠ 5 → s.board.ready = true → s.kilnPending = false →
    let r := s.settleEarmarks.refresh
    let binds := decide (r.capNow < r.charged + r.chargeOf (r.shape j ((r.variants j).headD 0)))
    r.candidates = [j] → r.offered = [j] → (r.job j).held = none → (r.job j).eff ≤ 7 →
    State.place1 { r with kiln := { r.kiln with capBind := binds } } j = .ok s1 → s1.graphs ≠ s.graphs →
    ∃ u, exec .dispatchDecision s = .next u ∧ u.graphs = s1.graphs ∧
      ∀ q, (∃ k ∈ u.candidates, u.source k = q) → Tab.get 0 u.kiln.credits q = Tab.get 0 s1.kiln.credits q)

/-- R75, R99, R101, R167: a load whose actors are all loaded becomes Resident, its arguments first; a weld's wavefront loads the
actors of a tile that the predecessor has left, on a marker flit of its kind alone or on one whose check fails, which is counted. -/
def Sys2Proof.Claims.Loads : Prop :=
  (∀ (s : State) j ext m, (s.job j).image = some m → s.hasGraph j = true → (s.graph j).phase = .loading → s.waits (.load j) = false →
    (s.graph j).quench = none → (s.graph j).parked = [] → s.accountOf j ≠ some 0 → (∀ e ∈ (s.graph j).actors, e.2.loaded = true) →
    (s.graph j).argsDone = true ∨ ((s.job j).jr.argLen = 0 ∧ (s.graph j).streams = []) →
    ∃ u, exec (.configLoadDone j ext) s = .next u ∧ (u.graph j).phase = .resident ∧ (u.job j).st = .resident ∧
      (u.graph j).argsDone = true ∧ (u.graph j).actors = (s.graph j).actors ∧ u.mem = s.mem) ∧
  (∀ (s : State) j t p, s.hasGraph j = true → (s.graph j).phase = .loading → (s.job j).welded = some p →
    (∃ e ∈ (s.graph j).actors, e.2.tile = t ∧ e.2.loaded = false) →
    ((s.graph p).phase = .saved ∨ ∀ e ∈ (s.graph p).actors, e.2.tile ≠ t ∨ e.2.ended = true) →
    exec (.weldWavefront j ⟨t, none⟩) s = .next (s.setGraph j { s.graph j with actors := (s.graph j).actors.map (fun e =>
      if e.2.tile = t then (e.1, { e.2 with loaded := true }) else e) })) ∧
  (∀ (s : State) j t w pl u, exec (.weldWavefront j ⟨t, some (w, pl)⟩) s = .next u →
    (flitOk w = true → pl = BitVec.ofNat 512 5 ∧ fld w 31 30 = 2) ∧ (flitOk w = false → (u.block t).assaying = true))

/-- R76 to R79, R105, R164: a graph of which nothing is left ends, and with it its job; one that is stuck takes DEADLOCK; a
job that has ended retires once its effects are done, its DW15 too, which may travel to a peer: it is gone, its queue's QRETIRE moves on, and a fault passes up to its
parent. -/
def Sys2Proof.Claims.Ends : Prop :=
  (∀ (s : State) j, s.hasGraph j = true → (s.graph j).phase = .resident → s.allEnded j = true → (∀ k, (s.job k).st ≠ .earmarked) →
    ∃ u, exec (.graphEnd j) s = .next u ∧ u.hasGraph j = false ∧ (u.job j).st = .ended ∧ u.mem = s.mem ∧
      (u.job j).fail = if (s.job j).marked then (s.job j).fail.or (some (6, 0)) else (s.job j).fail) ∧
  (∀ (s : State) j, s.hasGraph j = true → (s.graph j).phase = .resident → s.stuck j = true →
    (s.graph j).quench = none →
    ((s.graph j).fault = none → exec (.deadlockDetect j) s = .next (s.abortGraph j 3 { code := 98, suspends := false })) ∧
    (∀ fa, (s.graph j).fault = some fa → ((s.graph j).actor fa.aid).ended = false → ((s.graph j).actor fa.aid).deliveries.length < 16 →
      ∃ u, exec (.deadlockDetect j) s = .next u ∧
        (u.actor j fa.aid).deliveries = (s.actor j fa.aid).deliveries ++ [{ code := 98, suspends := false }])) ∧
  (∀ (s : State) j b, Tab.find s.jobs j = some b → b.st = .ended → s.children j = [] → s.effectsDone j = true → s.ownDone j = true →
    b.jr.sigOp = 0 →
    (∀ p, b.parent = some p → p ≠ j → ∃ u, exec (.jobRetire j) s = .next u ∧ Tab.find u.jobs j = none ∧
      ∀ c, b.fail = some (3, c) → (s.job p).fail = none → (u.job p).fail = some (3, c)) ∧
    (∀ s1, b.parent = none → (∀ k ∈ s.queueJobs b.queue, j ≤ k) → b.retStage = 0 → s.writeStatus j = .done s1 → s1.job j = b →
      (s1.ownDone j = false → exec (.jobRetire j) s = .next (s1.setJob j { b with retStage := 1 })) ∧
      (s1.ownDone j = true → (s1.queue b.queue).flr = false → ∃ u, exec (.jobRetire j) s = .next u ∧ Tab.find u.jobs j = none ∧
        (s1.jobs = [(j, b)] → u.mem = s1.mem) ∧ (u.queue b.queue).retire = (s1.queue b.queue).retire + 1)))

/-- The life of a job, as the five claims above say.
Readings and choices of the model: notes/assumptions/3.md, 16.md, 18.md, 51.md, 60.md, 64.md, 65.md, 66.md, 80.md. -/
def Obligations.JobEvents : Prop := Fetches ∧ Verifications ∧ Decisions ∧ Loads ∧ Ends

/-- R104, R110, R171, R305: a node saves once the marker is in on all its links, its memories with dross where granules are found
uncorrectable, which asks for an assay and aborts nothing, and the quench completes once every node has saved and every port has drained: the graph is saved without plots, and its job is Parked, or Stalled without quota. -/
def Sys2Proof.Claims.Quenches : Prop :=
  (∀ (s : State) j n q a found, s.hasGraph j = true → (s.graph j).phase = .quenching → (s.graph j).quench = some q →
    Tab.find (s.graph j).actors n = some a → n ∉ q.saved → s.inMove a.tile = false → (s.graph j).markersIn q n = true →
    (∀ c ∈ (s.tile a.tile).causes, ¬ (c.1 = j ∧ c.2.aid = n)) → s.firingOf j n = none →
    (∀ e ∈ found, e.aid = n ∧ (e.mem = 1 ∨ e.mem = 2 ∨ e.mem = 3 ∨ e.mem = 4 ∨ e.mem = 5 ∨ e.mem = 8)) →
    ∃ u, exec (.quenchMarker j ⟨n, found, none⟩) s = .next u ∧ (u.graph j).quench = some { q with saved := q.saved ++ [n] } ∧
      (u.actor j n).deliveries = [] ∧ (u.actor j n).suspended = false ∧ (u.actor j n).asleep = false ∧ u.jobs = s.jobs ∧ u.mem = s.mem ∧
      (found = [] → (u.actor j n).hram = a.hram ∧ (u.actor j n).tstore = a.tstore) ∧
      (∀ off, s.owner a.tile n = some (j, a) →
        (found = [⟨1, n, off⟩] → (u.actor j n).hram = a.hram.setBad (off / 8) true ∧ (u.actor j n).tstore = a.tstore) ∧
        (found = [⟨2, n, off⟩] → (u.actor j n).tstore = a.tstore.setBad (off / 8) true ∧ (u.actor j n).hram = a.hram)) ∧
      (found ≠ [] → (u.block a.tile).assaying = true)) ∧
  (∀ (s : State) j, s.quenched j = true → (∀ k, (s.job k).st ≠ .earmarked) →
    ∃ u, exec (.quenchComplete j) s = .next u ∧ (u.graph j).phase = .saved ∧ (u.graph j).used = [] ∧ (u.graph j).quench = none ∧
      (u.job j).st = (if s.accountOf j = some 0 then .stalled else .parked) ∧
      (u.graph j).actors = (s.graph j).actors ∧
      ((∀ e ∈ (s.graph j).streams, e.2.got = []) → (u.graph j).chans = (s.graph j).chans) ∧
      ((s.job j).saveUnits = [] → u.mem = s.mem))

/-- R54, R132, R133: once a move's tiles hold no firing its state is copied, or the move is given up and the target assayed;
then the actors stand on the target under a new generation; a marker that arrives releases the slot that was left, and the
relocation entries of which nothing is outstanding are gone. -/
def Sys2Proof.Claims.Moves : Prop :=
  (∀ (s : State) t m, (s.tile t).move = some m → m.step = 1 → (s.tile t).firing = none → (m.swap = true → (s.tile m.dst).firing = none) →
    exec (.moveStateCopy t) s = .next (s.setTile t { s.tile t with move := some { m with step := 4 } }) ∧
    exec (.moveAbandon t) s = .next ((s.setTile t { s.tile t with move := none }).setBlock m.dst { s.block m.dst with assaying := true })) ∧
  (∀ (s : State) t m j aid a, (s.tile t).move = some m → m.step = 4 → m.swap = false → m.dst ≠ t → s.ports = [] →
    s.residents t = [(j, aid, a)] →
    ∃ u, exec (.moveRetarget t) s = .next u ∧ (u.actor j aid).tile = m.dst ∧ (u.actor j aid).tgen = (s.actor j aid).tgen + 1 ∧
      (u.actor j aid).hram = (s.actor j aid).hram ∧ (u.tile t).move = none ∧ (u.tile m.dst).firing = (s.tile t).firing ∧ u.mem = s.mem ∧
      (m.forAssay = false → m.rebal = false → u.kiln.rots = min 0xFFFF (s.kiln.rots + 1))) ∧
  (∀ (s : State) p n, n < (s.port p).markers.length →
    ∃ u, exec (.relocationMarker p ⟨n, none⟩) s = .next u ∧ u.mem = s.mem ∧ u.graphs = s.graphs ∧
      (u.port p).markers = (s.port p).markers.eraseIdx n ∧ (∀ e ∈ (u.port p).reloc, e ∈ (s.port p).reloc) ∧
      ∀ e ∈ (s.port p).reloc, e.2.copies = [] → e.2.tags = [] → e ∉ (u.port p).reloc)

/-- Quenches and moves, as the two claims above say.
Readings and choices of the model: notes/assumptions/3.md, 35.md, 38.md, 39.md. -/
def Obligations.QuenchAndMoveEvents : Prop := Quenches ∧ Moves

/-- R123, R135 to R137: energy that a job is charged with goes to its lease above step 44 and to its account otherwise, and to neither
while the account is empty or the quenches that it has caused go on; a temperature of 110 °C stops a
block with a THERMAL notice, one below 100 °C starts it at step 0, and the thermal step goes down at the threshold and up
more than 5 °C below it. -/
def Sys2Proof.Claims.EnergyAndHeat : Prop :=
  (∀ (s : State) b j uj idle,
    (idle = true ∧ b < 4096 ∧ (s.lowest b).any (fun x => decide (x.1 = j)) = true) ∨
      (idle = false ∧ b < 4096 ∧ (s.residents b).any (fun x => decide (x.1 = j ∧ x.2.2.slot = (s.tile b).last)) = true) ∨
      (idle = false ∧ 4096 ≤ b ∧ ((s.port (b - 4096)).eng.copy.any (fun c => decide (c.job = j)) = true ∨
        (∃ c ∈ (s.port (b - 4096)).eng.ending, c.job = j) ∨ ∃ q ∈ (s.port (b - 4096)).reqs, q.2.job = j)) →
    let r := s.root j
    let above := b < 4096 ∧ 44 < s.commonStep b
    ((s.job r).account = some 0 ∨ s.stalling r = true → exec (.energyCharge b j ⟨uj, idle⟩) s = .next s) ∧
    (above → (s.job r).account ≠ some 0 → s.stalling r = false →
      exec (.energyCharge b j ⟨uj, idle⟩) s = .next (s.setJob r { s.job r with lease := (s.job r).lease - uj })) ∧
    (¬ above → (s.job r).account = none → exec (.energyCharge b j ⟨uj, idle⟩) s = .next s) ∧
    (∀ n, ¬ above → (s.job r).account = some n → s.stalling r = false → uj < n →
      exec (.energyCharge b j ⟨uj, idle⟩) s = .next (s.setJob r { s.job r with account := some (n - uj) })) ∧
    (∀ n, ¬ above → (s.job r).account = some n → n ≤ uj → s.graphs = [(j, s.graph j)] → (s.graph j).phase = .resident →
      (s.graph j).quench = none → 0 < n → ∃ u, exec (.energyCharge b j ⟨uj, idle⟩) s = .next u ∧ (u.job r).account = some 0 ∧
        (u.graph j).phase = .quenching)) ∧
  (∀ (s : State) b c,
    let x := s.block b
    (110 ≤ c → x.stopped = false → exec (.thermalRead b c) s =
      .next ((s.setBlock b { x with temp := c, stopped := true }).blockNotice b 241)) ∧
    (c < 100 → x.stopped = true → exec (.thermalRead b c) s = .next (s.setBlock b { x with temp := c, stopped := false, tstep := 0 })) ∧
    ((c < 110 ∧ x.stopped = false) ∨ (100 ≤ c ∧ x.stopped = true) → exec (.thermalRead b c) s = .next (s.setBlock b { x with temp := c })) ∧
    (s.tthrot b ≤ x.temp → 0 < x.tstep → exec (.thermalStep b) s = .next (s.setBlock b { x with tstep := x.tstep - 1 })) ∧
    (x.temp + 5 < s.tthrot b → x.tstep < 68 → exec (.thermalStep b) s = .next (s.setBlock b { x with tstep := x.tstep + 1 })))

/-- R124 to R126: each window says whether the cap in force binds and counts the calm ones; a window that binds takes a step
from the alloy that is throttled first, and after ten calm ones an alloy below step 68 gets one back. -/
def Sys2Proof.Claims.PowerWindows : Prop :=
  ∀ (s : State) watts,
    let cap := if s.board.capLow then min s.kiln.cap 5250 else s.kiln.cap
    (∃ u, exec (.powerWindow watts) s = .next u ∧ u.kiln.bound = decide (cap < watts) ∧ u.mem = s.mem ∧ u.jobs = s.jobs ∧
      u.kiln.calm = if 100 * watts < 95 * cap then min (s.kiln.calm + 1) 11 else 0) ∧
    (∀ r al, s.ranked = [r] → (s.graph r.job).large = false → Tab.find (s.graph r.job).alloys r.alloy = some al →
      (cap < watts → 0 < al.limit → ∃ u, exec (.powerWindow watts) s = .next u ∧
        Tab.find (u.graph r.job).alloys r.alloy = some { al with limit := al.limit - 1 }) ∧
      (100 * watts < 95 * cap → 10 ≤ s.kiln.calm → al.limit < 68 → ∃ u, exec (.powerWindow watts) s = .next u ∧
        Tab.find (u.graph r.job).alloys r.alloy = some { al with limit := al.limit + 1 }))

/-- R140, R141, R300 to R302: a block that holds no actor is measured and loses ceiling steps as it drifts; an assay that was
asked for runs on such a tile, and its end writes 2 or 3 into the records that asked and makes a block with lasting faults
spent. -/
def Sys2Proof.Claims.Ageing : Prop :=
  (∀ (s : State) b d age, s.residents b = [] → ∃ u, exec (.ageingMeasure b d age) s = .next u ∧
    (u.block b).drift = min d 255 ∧ (50 ≤ d → (u.block b).life = 0) ∧
    ((s.block b).hist.length < 30 → (u.block b).hist = (s.block b).hist ++ [(age, min d 255)]) ∧
    (u.block b).ceilLoss = max (s.block b).ceilLoss (2 * driftMarks (min d 255)) ∧ (u.block b).spent = (s.block b).spent) ∧
  (∀ (s : State) b, (s.block b).assaying = true →
    ((s.block b).running = false → (b < 4096 → s.residents b = [] ∧ s.inMove b = false) →
      exec (.assayRun b) s = .next (s.setBlock b { s.block b with running := true })) ∧
    (∀ lasting d age, (s.block b).running = true → ∃ u, exec (.assayComplete b lasting d age) s = .next u ∧
      (u.block b).assaying = false ∧ (u.block b).running = false ∧ (u.block b).spent = ((s.block b).spent || lasting) ∧
      ∀ k x, Tab.find (s.block b).banks k = some x → x.assay = 1 →
        Tab.find (u.block b).banks k = some { x with assay := if lasting then 3 else 2 }))

/-- Power, heat, ageing and assays, as the three claims above say.
Readings and choices of the model: notes/assumptions/3.md, 71.md, 72.md. -/
def Obligations.PowerEvents : Prop := EnergyAndHeat ∧ PowerWindows ∧ Ageing

/-! Events: tiles, Silt engines and memory ports (R40 to R57, R148 to R188, R201 to R203, R294 to R299, R438). -/

/-- R150, R160, R286: with nothing to take and no assay asked for, the boundary starts the firing of the actor that it
chooses: a fault firing before a completion firing before an ordinary one, each unless it waits for its ticket. -/
def Sys2Proof.Claims.Boundaries : Prop :=
  ∀ (s : State) t j aid a, (s.tile t).firing = none → s.inMove t = false → (s.block t).stopped = false → (s.block t).assaying = false →
    let s1 := (s.takeCauses t).endExhausted t
    s1.nextActor t = some (j, aid, a) →
    (∀ c fa, a.faultPending = true → a.deliveries.head? = some c → (s1.graph j).fault = some fa → ∃ u f, exec (.firingBoundary t) s = .next u ∧
      (u.tile t).firing = some f ∧ f.job = j ∧ f.aid = fa.aid ∧ f.kind = .fault c ∧ f.regs = { pc := fa.handler }) ∧
    (∀ c, a.faultPending = false → a.suspended = false → a.comps.head? = some c → a.compPending = true → ∃ u f, exec (.firingBoundary t) s = .next u ∧
      (u.tile t).firing = some f ∧ f.job = j ∧ f.aid = aid ∧ f.kind = .completion c.cxid c.cxst ∧ f.regs = { pc := c.handler } ∧
      u.mem = s1.mem) ∧
    (a.faultPending = false → a.compPending = false → ∃ u f, exec (.firingBoundary t) s = .next u ∧
      (u.tile t).firing = some f ∧ f.job = j ∧ f.aid = aid ∧ f.kind = .ordinary ∧ f.regs = {} ∧ f.replay = true ∧
      f.gctr = (s1.actor j aid).gctr ∧ f.w0 = (s1.actor j aid).w0 ∧ f.lane = (s1.actor j aid).lane ∧ (u.tile t).last = a.slot ∧
      u.graphs = s1.graphs ∧ u.mem = s1.mem)

/-- R155, R168, R169, R178, R384, R395: a commit goes on once its wait is over; a barrier's last arrival lets every waiting
member pass; a freed slot goes to the firing that waits for it; an element fires once its operands are there; a finished run
gives its flags to the firing that waits for it. -/
def Sys2Proof.Claims.FiringGoesOn : Prop :=
  (∀ (s : State) t f ends, (s.tile t).firing = some f → f.phase = .commit 3 ends → (s.block t).stopped = false → s.hasGraph f.job = true →
    f.cbuf = [] → f.out = [] → f.eff6 = [] → f.launches = [] → f.mark.isSome = true → s.own f = [] →
    ∃ u, exec (.commitContinue t) s = .next u ∧ (u.tile t).firing = none) ∧
  (∀ (s : State) j k b al, s.hasGraph j = true → Tab.find (s.graph j).alloys k = some al → b < al.barriers →
    s.kiln.anctl.getLsbD 0 = false → s.kiln.anctl.getLsbD 1 = false →
    let g := Tab.get 0 al.gens b
    (∀ m ∈ al.members, s.arrived j b g m = true) → (∃ m ∈ al.members, (s.actor j m).ended = false) →
    ∃ u al', exec (.barrierPass j k b) s = .next u ∧ Tab.find (u.graph j).alloys k = some al' ∧ Tab.get 0 al'.gens b = g + 1 ∧
      al'.rounds = (al.rounds + 1) % 2 ^ 64 ∧ u.mem = s.mem ∧
      ∀ m ∈ al.members, ∀ t f, (s.actor j m).ended = false → s.firingOf j m = some (t, f) →
        (u.tile t).firing = some { f with phase := .bar b true }) ∧
  (∀ (s : State) t f h x, (s.tile t).firing = some f → f.phase = .claim h → s.freeSlots t ≠ 0 → (s.block t).stopped = false →
    Tab.find (s.actor f.job f.aid).slots h = some x →
    ∃ y, exec (.slotClaimGrant t) s = .next (past (withActor s f y) t { f with claims := f.claims ++ [h], phase := .running } f.regs) ∧
      Tab.find y.slots h = some { x with claimed := true, mem := {} } ∧ y = { s.actor f.job f.aid with slots := y.slots }) ∧
  (∀ (s : State) t f r n, (s.block t).stopped = false → (s.tile t).firing = some f → f.run = some r →
    r.ready (s.graph f.job) (s.actor f.job f.aid) f.lane n = true →
    let x := (s.elemResult f r n).1
    ∃ f' r', exec (.laneElementFire t n) s = .next (withFiring s t f') ∧ f'.run = some r' ∧ Tab.get 0 r'.fired n = Tab.get 0 r.fired n + 1 ∧
      (∀ m ≠ n, Tab.get 0 r'.fired m = Tab.get 0 r.fired m) ∧
      (f.lane.dest n = 0 → Tab.find r'.east n = some x ∧ f'.out = f.out) ∧ (f.lane.dest n = 1 → Tab.find r'.west n = some x ∧ f'.out = f.out) ∧
      (2 ≤ f.lane.dest n → f'.out = fillOut (f.lane.epOut n) (Tab.get 0 r.base (f.lane.epOut n) + Tab.get 0 r.fired n)
        { null := x.null, data := x.val.setWidth 512, dross := x.dross } f.out)) ∧
  (∀ (s : State) t f r, (s.tile t).firing = some f → f.run = some r → r.finished f.lane = true → f.phase = .vswt →
    exec (.streamRunDone t) s = .next (withFiring s t { f with run := none, fflags := f.fflags ||| r.flags }))

/-- R182, R183, R269, R270: a row firing multiplies a row of the tile store by the slot and adds it to the accumulators of its
row base, each with one sum rounded once, and takes the next row; the tile takes up the mode of its graph at this boundary (R127). -/
def Sys2Proof.Claims.RowFirings : Prop :=
  ∀ (s : State) t f c h r base left pc is m, (s.block t).stopped = false → (s.tile t).firing = some f →
    f.mwork = [.rows c h (.tstore r) base left pc is] →
    c < 4 → base < 64 → Tab.find (s.actor f.job f.aid).ctxs c = some m →
    (s.graph f.job).meets f.aid true (256 * r) (rowLen m.afmt) true false = false →
    let x := s.actor f.job f.aid
    let row := x.tstore.reads (256 * r) (rowLen m.afmt)
    let b := (Tab.get {} x.slots h).mem
    let av := fun k => elemValue m.afmt (fun i => (row.getD i (0, false)).1.toNat) k (aScale m.afmt k)
    let bv := fun k j => elemValue m.bfmt (fun i => (b.read i).1.toNat) (64 * k + j) (bScale m.bfmt k j)
    ∃ y m' f', exec (.rowFiring t c false) s = .next (withFiring (withActor (s.rowMode t f.job) f y) t f') ∧
      f'.mwork = (if left ≤ 1 then [] else [.rows c h (.tstore (r + 1)) ((base + 1) % 64) (left - 1) pc is]) ∧
      Tab.find y.ctxs c = some m' ∧ m'.count = m.count + 1 ∧ y = { x with ctxs := y.ctxs } ∧ f'.regs = f.regs ∧ f'.out = f.out ∧
      (∀ j < 64, (Tab.get {} m'.acc (64 * base + j)).val = (combine m (Tab.get {} m.acc (64 * base + j)).val
        ((List.range 64).map (fun k => mulX (av k).1 (bv k j).1))).1) ∧
      (∀ n, (∀ j < 64, n ≠ 64 * base + j) → Tab.get {} m'.acc n = Tab.get {} m.acc n)

/-- R161 to R163, R184, R438, R439: tokens of one flit, or up to 64 nulls, reach the buffer in order, or are discarded by an
ended actor; a flit whose check fails leaves dross in their place; the end mark follows the last; a repeat node takes a count and its group, and a count that is not clean is an arising (R275). -/
def Sys2Proof.Claims.Arrivals : Prop :=
  (∀ (s : State) j c n x, Tab.find (s.graph j).chans c = some x → s.hasGraph j = true → (s.graph j).phase ≠ .saved → 0 < n →
    n ≤ x.transit.length →
    ((∀ k ∈ x.transit.take n, k.null = true) ∧ n ≤ 64) ∨ ((∀ k ∈ x.transit.take n, k.null = false) ∧ n * x.width ≤ 64) →
    (∀ a, x.dst.aid? = some a → s.midMove ((s.graph j).actor a).tile = false) →
    (∃ u, exec (.tokenArrival j c ⟨n, none⟩) s = .next u ∧ u.mem = s.mem ∧ ((u.graph j).chan c).transit = x.transit.drop n ∧
      ((∀ a, x.dst.aid? = some a → ((s.graph j).actor a).ended = false) → ((u.graph j).chan c).buf = x.buf ++ x.transit.take n) ∧
      (∀ a, x.dst.aid? = some a → ((s.graph j).actor a).ended = true → ((u.graph j).chan c).buf = [])) ∧
    (∀ w, flitOk w = false → ∃ u, exec (.tokenArrival j c ⟨n, some w⟩) s = .next u ∧
      ((u.graph j).chan c).transit = x.transit.drop n ∧ ((∀ a, x.dst.aid? = some a → ((s.graph j).actor a).ended = false) →
        ((u.graph j).chan c).buf = x.buf ++ (x.transit.take n).map (fun _ => { dross := true })))) ∧
  (∀ (s : State) j c x, Tab.find (s.graph j).chans c = some x → s.hasGraph j = true → (s.graph j).phase ≠ .saved → x.ending = true →
    x.ended = false → x.transit = [] → ∃ u, exec (.endMark j ⟨c, none⟩) s = .next u ∧ ((u.graph j).chan c).ended = true ∧
      ((u.graph j).chan c).buf = x.buf ∧ u.mem = s.mem) ∧
  (∀ (s : State) j aid k n (w : Token), s.hasGraph j = true → (s.graph j).phase = .resident → Tab.find (s.actor j aid).nodes k = some n →
    n.cur = none → ((s.graph j).chan n.cntCh).buf[n.taken]? = some w → (s.block (s.actor j aid).tile).stopped = false →
    n.gone + n.group * n.toks ≤ ((s.graph j).chan n.rowCh).buf.length → 0 < n.group * n.toks →
    let c := w.data.toNat % 2 ^ 32
    (w.null = false → w.dross = false → 0 < c → c < 65536 → ∃ u, exec (.repeatGroup j aid k) s = .next u ∧ u.mem = s.mem ∧
      Tab.find (u.actor j aid).nodes k = some { n with cur := some { times := c, dross := false, toks := n.toks } } ∧ (u.graph j).chans = (s.graph j).chans) ∧
    (w.null = false → w.dross = true ∨ 65536 ≤ c → ∃ u, exec (.repeatGroup j aid k) s = .next u ∧
      Tab.find (u.actor j aid).nodes k = some { n with cur := some { times := 1, dross := true, toks := n.toks, arose := true } }) ∧
    (w.null = true ∨ (w.dross = false ∧ c = 0) → (s.firingOf j aid).isSome = true → ∃ u, exec (.repeatGroup j aid k) s = .next u ∧
      Tab.find (u.actor j aid).nodes k = some { n with taken := n.taken + 1, gone := n.gone + n.group * n.toks }))

/-- R295, R296, R156: an uncorrectable error poisons its granule and asks for an assay of its tile, one in code is reloaded
with a notice, a mismatch of shift-recheck makes a replayable firing fire again and aborts another's graph, and one that
recurs in an engine ends its copy; a scrub records what it finds. -/
def Sys2Proof.Claims.TileErrors : Prop :=
  (∀ (s : State) t aid off read, t < 4096 →
    exec (.uncorrectableError t ⟨⟨0, aid, off⟩, read⟩) s = .next (s.blockNotice t 243) ∧
    (∀ j a, s.owner t aid = some (j, a) → (s.tile t).firing = none ∨ read = false →
      ∃ u, exec (.uncorrectableError t ⟨⟨1, aid, off⟩, read⟩) s = .next u ∧
      (u.actor j aid).hram.isBad (off / 8) = true ∧ (u.block t).assaying = true) ∧
    (∀ f, (s.tile t).firing = some f → (∀ k e, f.phase ≠ .commit k e) →
      ∃ u, exec (.uncorrectableError t ⟨⟨16, aid, off⟩, read⟩) s = .next u ∧
      (u.block t).assaying = true ∧ (f.replay = true → (u.tile t).firing = none) ∧
      (f.replay = false → s.hasGraph f.job = true → u.hasGraph f.job = false)) ∧
    (∀ f r e, (s.tile t).firing = some f → f.phase = .commit 1 e → f.run = some r → ∃ u,
      exec (.uncorrectableError t ⟨⟨17, aid, off⟩, read⟩) s = .next u ∧ (u.block t).assaying = true ∧
      (f.replay = true → (u.tile t).firing = none))) ∧
  (∀ (s : State) p c aid off read, (s.port p).eng.copy = some c → ∃ u, exec (.uncorrectableError (4096 + p) ⟨⟨18, aid, off⟩, read⟩) s = .next u ∧
    (u.port p).eng.copy = none ∧ (u.block (4096 + p)).assaying = true) ∧
  (∀ (s : State) t e, exec (.tileScrub t none) s = .next s ∧
    (∃ u, exec (.tileScrub t (some (e, true))) s = .next u ∧ (u.block t).corr = min 0xFFFF ((s.block t).corr + 1) ∧ u.graphs = s.graphs) ∧
    (∃ u, exec (.tileScrub t (some (e, false))) s = .next u ∧ (u.block t).assaying = true))

/-- What happens on a tile, as the five claims above say.
Readings and choices of the model: notes/assumptions/3.md, 80.md. -/
def Obligations.TileEvents : Prop := Boundaries ∧ FiringGoesOn ∧ RowFirings ∧ Arrivals ∧ TileErrors

/-- R201 to R203, R316, R407, R409: an idle engine starts the copy of the oldest kick that no quench holds back, with its registers kept but s1 to s3 and those
whose load was cut short; a bound
template kicks the record at the head of its channel, passing over a null, and one of no elements completes at once (R199); a host's kick register write joins the named queue;
the mailbox event frees the copy's scoreboard entries and makes its completion firing pending.
Readings and choices of the model: notes/assumptions/3.md, 10.md, 11.md, 28.md, 49.md. -/
def Obligations.SiltEvents : Prop :=
  (∀ (s : State) p k t, (s.port p).eng.copy = none → s.portStopped p = false →
    ((s.port p).eng.kicks ++ (s.port p).eng.late).find? (fun x => !s.kickWaits x p) = some k → (s.graph k.job).template? p k.tmpl = some t →
    s.copiesRun k p = true → ∃ u c, exec (.siltCopyStart p) s = .next u ∧ (u.port p).eng.copy = some c ∧ c.job = k.job ∧ c.aid = k.aid ∧
      c.kr = k.kr ∧ c.tmpl = k.tmpl ∧ c.seg = k.seg ∧ c.cxid = cxidOf p k.tmpl k.aid k.kr ∧ (u.port p).eng.regs.pc = t.mcode ∧
      (u.port p).eng.regs.val 1 = 0x2000 ∧ (u.port p).eng.regs.val 2 = BitVec.ofNat 64 (128 * k.tmpl) ∧
      (u.port p).eng.regs.val 3 = BitVec.ofNat 64 k.seg ∧ c.dross = k.dross ∧
      (u.port p).eng.kicks ++ (u.port p).eng.late = ((s.port p).eng.kicks ++ (s.port p).eng.late).erase k ∧
      ((u.port p).eng.late ≠ [] → (u.port p).eng.kicks.length = 16) ∧
      (∀ i, i ≠ 1 → i ≠ 2 → i ≠ 3 → (∀ e ∈ (s.port p).eng.regs.s, e.1 = i → e.2.pend = []) →
        Tab.get {} (u.port p).eng.regs.s i = Tab.get {} (s.port p).eng.regs.s i) ∧
      (∀ i, (∀ e ∈ (s.port p).eng.regs.v, e.1 = i → e.2.pend = []) →
        Tab.get {} (u.port p).eng.regs.v i = Tab.get {} (s.port p).eng.regs.v i) ∧
      (u.port p).eng.regs.p = (s.port p).eng.regs.p ∧ u.mem = s.mem ∧ u.graphs = s.graphs) ∧
  (∀ (s : State) p n j t c x rest, s.loaded? p n = some (j, t) → t.armed = true → t.bound = true → s.portStopped p = false → (s.graph j).quench = none →
    (s.graph j).phase = .resident → t.declCh = some c → ((s.graph j).chan c).buf = x :: rest →
    (x.null = true → ∃ u, exec (.boundKick p n) s = .next u ∧ ((u.graph j).chan c).buf = rest ∧ u.ports = s.ports) ∧
    (x.null = false → x.dross = true → ∃ u k, exec (.boundKick p n) s = .next u ∧ ((u.graph j).chan c).buf = rest ∧
      (u.actor j t.aid).comps = (s.actor j t.aid).comps ++ [k] ∧ k.released = true ∧ k.cxst = 3 ∧ k.bound = true ∧
      k.cxid = cxidOf p n t.aid x.data) ∧
    (x.null = false → x.dross = false → krBad x.data = false → (s.graph j).template? p n = some t → t.skind ∉ [1, 2] →
      t.dkind ∉ [1, 2, 3] → (∀ d < 4, krCount x.data d ≠ 0) →
      (s.port p).eng.late = [] → (s.port p).eng.kicks.length < 16 → ∃ u k, exec (.boundKick p n) s = .next u ∧
        ((u.graph j).chan c).buf = rest ∧ (u.port p).eng.kicks = (s.port p).eng.kicks ++ [k] ∧ k.job = j ∧ k.aid = t.aid ∧
        k.kr = x.data ∧ k.tmpl = n ∧ k.seg = 0) ∧
    (x.null = false → x.dross = false → krBad x.data = false → (s.graph j).template? p n = some t → (∃ d < 4, krCount x.data d = 0) →
      ∃ u k, exec (.boundKick p n) s = .next u ∧ ((u.graph j).chan c).buf = rest ∧ u.ports = s.ports ∧
        (u.actor j t.aid).comps = (s.actor j t.aid).comps ++ [k] ∧ k.released = true ∧ k.cxst = 0 ∧ k.bound = true)) ∧
  (∀ (s : State) l p q v, l < 4 → s.hostUp l = true → p < 256 → q < 4 →
    let off := 0x740000 + 256 * p + 64 * q
    let e := (s.port p).eng
    (s.portSecure p = false → (Tab.get [] e.named q).length < 16 → exec (.kickRegisterWrite (.pf l) off v) s =
      .next (s.setPort p { s.port p with eng := { e with named := Tab.set e.named q (Tab.get [] e.named q ++ [(v, false)]) } })) ∧
    (s.portSecure p = true → exec (.kickRegisterWrite (.pf l) off v) s =
      .next (s.pushRecord false { cause := 338, tval := BitVec.ofNat 64 (0x18000000000 + off), wr := true }))) ∧
  (∀ (s : State) j x aid k, (s.graph j).mailbox x = some (aid, k) → s.midMove (s.actor j aid).tile = false →
    ∃ u, exec (.mailboxEvent j x) s = .next u ∧ (u.graph j).sb = (s.graph j).sb.filter (fun e => e.uid ≠ k.uid) ∧
      (∀ y ∈ (u.actor j aid).comps, y.uid = k.uid → y.done = true) ∧
      (u.actor j aid).comps.map (·.cxid) = (s.actor j aid).comps.map (·.cxid) ∧ u.mem = s.mem)

/-- Requester `q` stands at number `r` of port tile `p` and may take a header: its graph is resident and not asked to quench,
and heat has not stopped the port tile (R41, R123), and `b` is the buffer of its request channel. -/
def Sys2Proof.Claims.Requests (s : State) (p r : Nat) (q : Requester) (b : List Token) : Prop :=
  Tab.find (s.port p).reqs r = some q ∧ q.ended = false ∧ s.hasGraph q.job = true ∧ (s.graph q.job).phase = .resident ∧
    (s.graph q.job).quench = none ∧ s.portStopped p = false ∧ ((s.graph q.job).chan ((s.graph q.job).stream q.stream).chan).buf = b

/-- The tokens that the request channel of a requester holds. -/
def Sys2Proof.Claims.requestBuf (s : State) (q : Requester) : List Token :=
  ((s.graph q.job).chan ((s.graph q.job).stream q.stream).chan).buf

/-- R41, R42, R44, R45: a port takes a READ header, or a WRITE header with its data, under the next free tag; it passes over a
null; and a binding with nothing left ends, with an end mark on its reply channels. -/
def Sys2Proof.Claims.Takes : Prop :=
  (∀ (s : State) p r q t rest, Requests s p r q (t :: rest) → t.null = false → (∀ x ∈ q.tags, x.tag ≠ q.nextTag) →
    (hdrOp t ≠ 1 → ∃ u q' e, exec (.memportRead p r) s = .next u ∧ requestBuf u q = rest ∧ Tab.find (u.port p).reqs r = some q' ∧
      q'.nextTag = (q.nextTag + 1) % 8 ∧ q'.tags = q.tags ++ [e] ∧ e.tag = q.nextTag ∧ e.seq = q.seq ∧ e.write = false ∧
      e.addr = hdrAddr t ∧ e.cls = hdrClass t ∧ (hdrStatus t ≠ none → e.bad = hdrStatus t) ∧ e.reply = none) ∧
    (∀ d more, hdrOp t = 1 → rest = d :: more → ∃ u q' e, exec (.memportWrite p r) s = .next u ∧ requestBuf u q = more ∧
      Tab.find (u.port p).reqs r = some q' ∧ q'.nextTag = (q.nextTag + 1) % 8 ∧ q'.tags = q.tags ++ [e] ∧ e.tag = q.nextTag ∧
      e.write = true ∧ e.addr = hdrAddr t ∧ e.cls = hdrClass t ∧ e.mask = BitVec.ofNat 64 (dwf t.data 2 63 0) ∧ e.data = d ∧
      (let st := if d.null then (hdrStatus t).or (some 4) else hdrStatus t
       st ≠ none → e.bad = st) ∧ e.reply = none)) ∧
  (∀ (s : State) p r q t rest, Requests s p r q (t :: rest) → t.null = true →
    ∃ u, exec (.memportNull p r) s = .next u ∧ requestBuf u q = rest ∧ u.ports = s.ports ∧ u.mem = s.mem) ∧
  (∀ (s : State) p r q, Requests s p r q [] → q.tags = [] →
    ((s.graph q.job).chan ((s.graph q.job).stream q.stream).chan).ended = true →
    ∃ u, exec (.requesterEnd p r) s = .next u ∧ Tab.find (u.port p).reqs r = some { q with ended := true } ∧
      ((u.graph q.job).stream q.stream).ended = true ∧ ∀ c ∈ (s.graph q.job).outsOf q.stream, ((u.graph q.job).chan c).ending = true)

/-- R42, R46, R49, R50, R44, R56, R209: a request that nothing holds back is performed, granule by granule: a READ takes their bytes, a WRITE
stores the bytes of its mask and no other; once all are, it completes with its reply and its entry in the trace, a READ's 64 bytes or the
status of a WRITE, which counts a failure; the oldest reply then enters the reply channel and frees its
tag. -/
def Sys2Proof.Claims.Replies : Prop :=
  (∀ (s : State) p r q t pa, Tab.find (s.port p).reqs r = some q → s.hasGraph q.job = true →
    q.tags.find? (fun x => decide (x.tag = t.tag) && x.reply.isNone) = some t → t.ticket = none → q.tags.any (fun x => x.holds t) = false →
    t.bad = none → t.tgt = some (.loc pa) → s.serves p pa = true → s.secureAt pa = false → s.inExpander pa = none → pa % 64 = 0 →
    s.portStopped p = false → r < 64 →
    (∀ g < 8, Tab.find t.part g = none → t.part.length ≠ 8 → t.write = false → exec (.memportPerform p r ⟨t.tag, [g]⟩) s =
      .next (s.modTag p r t.tag (fun _ => { t with part := Tab.set t.part g (s.mem.reads (pa + 8 * g) 8) }))) ∧
    (t.part = [] → t.write = false → ∃ t', exec (.memportPerform p r ⟨t.tag, List.range 8⟩) s = .next (s.modTag p r t.tag (fun _ => t')) ∧
      t'.part.length = 8 ∧ ∀ g < 8, Tab.get [] t'.part g = s.mem.reads (pa + 8 * g) 8) ∧
    (t.part = [] → t.write = true → t.data.dross = false → ∃ t' m,
      exec (.memportPerform p r ⟨t.tag, List.range 8⟩) s = .next (({ s with mem := m } : State).modTag p r t.tag (fun _ => t')) ∧
      t'.part.length = 8 ∧ ((∀ g < 8, s.mem.isBad (pa / 8 + g) = false) → t'.met = t.met) ∧
      (∀ i < 64, s.mem.isBad ((pa + i) / 8) = false →
        m.read (pa + i) = if t.mask.getLsbD i then (laneOf t.data.data i, false) else s.mem.read (pa + i)) ∧
      ∀ z, (z < pa ∨ pa + 64 ≤ z) → m.read z = s.mem.read z) ∧
    (t.part.length = 8 → ∃ u q',
      let bs := (List.range 8).flatMap (fun g => Tab.get [] t.part g)
      let st := if t.write then (if t.met then 1 else 0) else if anyDross bs then 1 else 0
      exec (.memportPerform p r ⟨t.tag, []⟩) s = .next u ∧ u.mem = s.mem ∧ u.graphs = s.graphs ∧ Tab.find (u.port p).reqs r = some q' ∧
      (∀ x ∈ q'.tags, x.tag = t.tag → x.reply = some (if t.write then { data := BitVec.ofNat 512 st, dross := st ≠ 0 }
        else { data := vOf (bs.map (·.1)), dross := anyDross bs })) ∧
      (u.port p).trace.getLast? = some (r, t.tag, st) ∧ ((s.port p).trace.length < 64 → (u.port p).trace.length = (s.port p).trace.length + 1) ∧
      (u.port p).errcnt = if st = 0 then (s.port p).errcnt else min 0xFFFFFFFF ((s.port p).errcnt + 1))) ∧
  (∀ (s : State) p r q t tok c, Tab.find (s.port p).reqs r = some q → s.hasGraph q.job = true → (s.graph q.job).phase = .resident →
    (s.graph q.job).quench = none → s.portStopped p = false → q.oldest = some t → t.reply = some tok → tok.null = false →
    (s.graph q.job).outsOf q.stream = [c] →
    let x := (s.graph q.job).chan c
    (∀ a, x.dst.aid? = some a → ((s.graph q.job).actor a).ended = false) → x.buf.length + x.transit.length < x.cap →
    ∃ u q', exec (.replyRelease p r) s = .next u ∧ Tab.find (u.port p).reqs r = some q' ∧
      q'.tags = q.tags.filter (fun y => y.tag ≠ t.tag) ∧ u.mem = s.mem ∧
      ((u.graph q.job).chan c).transit = x.transit ++ [{ tok with data := BitVec.ofNat 512 (tok.data.toNat % 2 ^ (8 * x.width)) }])

/-- R48, R50, R51, R52, R57, R59: a read of MPTRC, whole or half, removes the oldest entry of the trace, or reads 0; any other register
reads as it is, and a read of another size or alignment as 0; a scrub leaves a
good granule, records a corrected error and poisons an uncorrectable one, which in an expander makes no record; and an expander that fails has failed from then on. -/
def Sys2Proof.Claims.PortUpkeep : Prop :=
  (∀ (s : State) l m lo size r t st rest, s.hostServes l = true → m < 208 → lo < 8 →
    let off := 0x400000 + 0x1000 * m + 8 + lo
    (regAligned off size = true → (s.port (memTile m)).trace = (r, t, st) :: rest →
      let v := inFld 1 63 63 + inFld r 15 10 + inFld t 9 7 + inFld st 3 0
      exec (.mptrcRead (.pf l) ⟨off, size⟩) s = .next ((s.setPort (memTile m) { s.port (memTile m) with trace := rest }).emit
        (.regReply (BitVec.ofNat 64 (v / 2 ^ (8 * (off % 8)) % 2 ^ (8 * size)))))) ∧
    (regAligned off size = false → exec (.mptrcRead (.pf l) ⟨off, size⟩) s = .next (s.emit (.regReply 0))) ∧
    (regAligned off size = true → (s.port (memTile m)).trace = [] → ∃ u, exec (.mptrcRead (.pf l) ⟨off, size⟩) s = .next u ∧
      u.out = s.out ++ [.regReply 0] ∧ (u.port (memTile m)).trace = [])) ∧
  (∀ (s : State) w off size, s.present w = true → off < 0x800000 → mptrcAt off = none → exec (.mptrcRead w ⟨off, size⟩) s =
    .next (s.emit (.regReply (if regAligned off size then
      BitVec.ofNat 64 ((s.regRead w off).toNat / 2 ^ (8 * (off % 8)) % 2 ^ (8 * size)) else 0)))) ∧
  (∀ (s : State) g, 8 * g < 0x18000000000 →
    let b := portBlock (s.ownerTile (8 * g))
    exec (.baseDieScrub g 0) s = .next s ∧
    (∃ u, exec (.baseDieScrub g 1) s = .next u ∧ u.mem = s.mem ∧ (u.block b).corr = min 0xFFFF ((s.block b).corr + 1)) ∧
    (∃ u, exec (.baseDieScrub g 2) s = .next u ∧ u.mem.isBad g = true ∧ (∀ h ≠ g, u.mem.isBad h = s.mem.isBad h) ∧
      (u.block b).assaying = true)) ∧
  (∀ (s : State) g, 0x18000000000 ≤ 8 * g → s.inLpddr (8 * g) = none → (s.inExpander (8 * g)).isSome = true →
    exec (.baseDieScrub g 2) s = .next { s with mem := s.mem.setBad g true }) ∧
  (∀ (s : State) l e x, x ∈ s.board.expanders → x.2.2.1 = l → x.2.2.2.1 = e → x.2.2.2.2 = false →
    ∃ u, exec (.expanderFail l e) s = .next u ∧ u.mem = s.mem ∧ u.board.expanders.length = s.board.expanders.length ∧
      ∀ y ∈ u.board.expanders, y.2.2.1 = l → y.2.2.2.1 = e → y.2.2.2.2 = true)

/-- Memory ports, as the three claims above say.
Readings and choices of the model: notes/assumptions/3.md, 19.md, 23.md, 67.md, 68.md, 69.md, 74.md. -/
def Obligations.MemoryPortEvents : Prop := Takes ∧ Replies ∧ PortUpkeep

/-! Events: global accesses, translation, streams, hosts and peers (R18 to R36, R206 to R243, R303). -/

/-- Access `a` has ended with bytes `bs`: it travels no more, and a firing's scalar register that waited for it alone holds
them, sign-extended where the load is (R348), with their dross. -/
def Sys2Proof.Claims.Returned (s u : State) (a : Access) (bs : List (Byte × Bool)) : Prop :=
  u.mem = s.mem ∧ u.inflight = s.inflight.filter (fun x => x.id ≠ a.id) ∧
    ∀ j aid t f d lo size sg, a.src = .firing j aid → s.firingOf j aid = some (t, f) → a.dest = .scalar d lo size sg →
      (Tab.get {} f.regs.s d).pend = [a.id] →
      let v := (Tab.get {} f.regs.s d).val ||| BitVec.ofNat 64 (leNat (bs.map (·.1)) <<< (8 * lo))
      ∃ f', (u.tile t).firing = some f' ∧ f'.regs.pc = f.regs.pc ∧ Tab.get {} f'.regs.s d =
        { val := if sg then BitVec.ofInt 64 (sgn (8 * size) v.toNat) else v,
          dross := (Tab.get {} f.regs.s d).dross || anyDross bs, pend := [] }

/-- R206, R210, R211, R219, R220: an access of a firing that nothing holds back is performed at its owner: a load returns the
bytes, a store writes them, an atomic does both, a read of a host is asked of it while it has a tag (R19), and one that leads
nowhere raises NOMEM once for all its granules and returns zero with dross. -/
def Sys2Proof.Claims.Performs : Prop :=
  ∀ (s : State) a j aid, s.access? a.id = some a → s.free a = true → a.sent = false → s.carried a = false → a.src = .firing j aid →
    (∀ pa, a.tgt = .loc pa → s.secureAt pa = false → s.inExpander pa = none →
      (∀ n, a.kind = .load n → a.fwd = [] → ∃ u, exec (.globalAccessPerform a.id) s = .next u ∧ Returned s u a (s.mem.reads pa n)) ∧
      (∀ bs, a.kind = .store bs → ∃ u, exec (.globalAccessPerform a.id) s = .next u ∧ u.mem = s.mem.writePiece pa bs ∧
        u.inflight = s.inflight.filter (fun x => x.id ≠ a.id) ∧ u.tiles = s.tiles) ∧
      (∀ op x e d size, a.kind = .atomic op x e d size → ∃ u, exec (.globalAccessPerform a.id) s = .next u ∧
        u.mem = (s.mem.atomic pa op size x e d).1 ∧ Returned { s with mem := u.mem } u a (s.mem.atomic pa op size x e d).2)) ∧
    (∀ l addr n, a.tgt = .host l addr → s.hostUp l = true → s.nonPosted l < 1024 → a.kind = .load n → ∃ u, exec (.globalAccessPerform a.id) s = .next u ∧
      u.out = s.out ++ [.hostRead l addr n] ∧ u.mem = s.mem ∧ ∀ x ∈ u.inflight, x.id = a.id → x.sent = true) ∧
    (∀ pa n t f, a.tgt = .none pa → a.quiet = false → 0 < n → a.kind = .load n → a.fwd = [] → s.firingOf j aid = some (t, f) → f.first ≤ a.id →
      f.nomem = none → ∃ u f', exec (.globalAccessPerform a.id) s = .next u ∧ u.mem = s.mem ∧
        u.inflight.map (·.id) = (s.inflight.filter (fun x => x.id ≠ a.id)).map (·.id) ∧
        (∀ x ∈ u.inflight, x.req = a.req → x.src = .firing j aid → x.quiet = true) ∧
        (u.tile t).firing = some f' ∧ (∃ c, f'.nomem = some c ∧ c.code = 56 ∧ c.tval = BitVec.ofNat 64 pa) ∧
        (∀ d lo size sg, a.dest = .scalar d lo size sg → (Tab.get {} f.regs.s d).pend = [a.id] → (Tab.get {} f.regs.s d).val = 0 →
          Tab.get {} f'.regs.s d = { val := 0, dross := true, pend := [] }) ∧
        (∀ d lo, a.dest = .vector d lo → (Tab.get {} f.regs.v d).pend = [a.id] →
          (Tab.get {} f'.regs.v d).val = (Tab.get {} f.regs.v d).val ∧ (Tab.get {} f'.regs.v d).pend = [] ∧
          ∀ i, lo ≤ i → i < lo + n → i < 64 → (Tab.get {} f'.regs.v d).dross.getLsbD i = true))

/-- R52, R219: the completion of a read that a host was asked for returns its bytes, and any other status zeros with dross; the
completion of an expander returns the bytes of memory, which its poison marks. -/
def Sys2Proof.Claims.HostCompletions : Prop :=
  ∀ (s : State) a l addr n data st, s.access? a.id = some a → a.tgt = .host l addr → a.sent = true → a.kind = .load n → a.fwd = [] →
    (∃ u, exec (.hostCompletion a.id data .ok) s = .next u ∧ Returned s u a ((leBytes n data.toNat).map (fun b => (b, false)))) ∧
    (st ≠ .ok → ∃ u, exec (.hostCompletion a.id data st) s = .next u ∧ Returned s u a (List.replicate n (0, true)))

/-- R50, R52: the completion of a read that an expander was asked for returns the bytes of memory; poison that the expander reports
makes the granule uncorrectable. -/
def Sys2Proof.Claims.ExpanderCompletions : Prop :=
  ∀ (s : State) a j aid pa n q k data, s.access? a.id = some a → a.src = .firing j aid → a.tgt = .loc pa → s.free a = true → a.kind = .load n →
    a.fwd = [] → s.inExpander pa = some (q, k, false) → s.secureAt pa = false →
    (∃ u, exec (.hostCompletion a.id data .ok) s = .next u ∧ Returned s u a (s.mem.reads pa n)) ∧
    (let m := s.mem.setBad (pa / 8) true
     ∃ u, exec (.hostCompletion a.id data .poison) s = .next u ∧ Returned { s with mem := m } u a (m.reads pa n))

/-- R233, R240 to R243: a flux emerges from a port that nothing follows, whose translations in the range go, its shared ones among them (R25), and is over after
the last; ATS invalidations start one; a translation that the host gives is cached, one that it does not give leads to a Page
Request, which is retried on success and denied otherwise. -/
def Sys2Proof.Claims.Fluxes : Prop :=
  (∀ (s : State) p x, s.flux = some x → p ∈ x.left → s.follows x p = false → ∃ u, exec (.fluxEmerge ⟨p, none⟩) s = .next u ∧ u.mem = s.mem ∧
    (∀ e ∈ u.tlb, ¬ (e.node = p ∧ x.covers e.pasid e.va e.sh = true)) ∧
    (∀ e ∈ u.linkPorts, linkTile e.1 = p → ∀ y ∈ e.2.pre, x.covers y.pasid y.va y.sh = false) ∧ (∀ e ∈ s.tlb, e.node ≠ p → e ∈ u.tlb) ∧
    (u.flux = if x.left.filter (· ≠ p) = [] then none else some { x with left := x.left.filter (· ≠ p) }) ∧
    (∀ n, x.ats = some n → x.left.filter (· ≠ p) = [] → u.out = s.out ++ [.atsDone n])) ∧
  (∀ (s : State) l pasid va size, s.flux = none → (s.hostLink l).ats = true → 12 ≤ size → exec (.atsInvalidate l pasid va size) s =
    .next { s with flux := some { scope := 0, pasid := pasid, va := va.toNat - va.toNat % 2 ^ size, sh := size, left := List.range 256, ats := some l } }) ∧
  (∀ (s : State) r w a, s.ats.find? (fun x => decide (x.id = r.id) && !x.pri && !x.denied) = some r →
    (r.write = false ∨ w = true → ∃ u, exec (.atsTranslationResponse r.id (some a) w) s = .next u ∧ (∀ x ∈ u.ats, x.id ≠ r.id) ∧
      (let e : TlbEntry := { node := sliceOf r.pasid (4096 * r.page), pasid := r.pasid, va := 4096 * r.page, sh := 12,
                             tgt := hostWindow r.link (a - a % 4096), w := w }
       e ∈ u.tlb) ∧ u.mem = s.mem) ∧
    (∃ u, exec (.atsTranslationResponse r.id none w) s = .next u ∧ (∀ x ∈ u.ats, x.id = r.id → x.pri = true) ∧
      u.out = s.out ++ [.ats r.link r.pasid r.page r.write true])) ∧
  (∀ (s : State) r, s.ats.find? (fun x => decide (x.id = r.id) && x.pri && !x.denied) = some r →
    (∃ u, exec (.priResponse r.id true) s = .next u ∧ (∀ x ∈ u.ats, x.id = r.id → x.pri = false) ∧
      u.out = s.out ++ [.ats r.link r.pasid r.page r.write false]) ∧
    (∃ u, exec (.priResponse r.id false) s = .next u ∧ (∀ x ∈ u.ats, x.id = r.id → x.denied = true) ∧ u.out = s.out))

/-- R224 to R229: the walk of an address. A PASID at or beyond the table, or with an entry that is not good, is a fault PASID; a good one goes
to the level-4 table. At each level the entry of the address, where no entry of its table claims a group around it, gives NOTPRESENT
without V, MALFORMED where it breaks a rule, WALKDROSS where it is poisoned, the next table, or a page: of the host with HOST, and else
PA + VA mod its size. A write to a page without W is WRITEPROT, and no walk changes memory. The kinds are the codes 50 to 54.
That the PASID table too must lie in local memory is the model's reading (`notes/assumptions/15.md`). -/
def Sys2Proof.Claims.Walks : Prop :=
  (∀ (s : State) pasid va,
    let at0 := 4096 * fld s.board.trptab 54 12 + 16 * pasid
    let d0 := s.mem.word at0
    let root := 4096 * bitsOf d0 54 12
    (s.walk pasid va).2.mem = s.mem ∧
    (s.board.tren = false ∨ 2 ^ fld s.board.trptab 4 0 ≤ pasid → s.walk pasid va = (.fault 50, s)) ∧
    (s.board.tren = true → pasid < 2 ^ fld s.board.trptab 4 0 → s.tableOk at0 = true → s.inExpander at0 = none → s.inExpander (at0 + 8) = none →
      (s.mem.isBad (at0 / 8) = true ∨ s.mem.isBad ((at0 + 8) / 8) = true → s.walk pasid va = (.fault 54, s)) ∧
      (s.mem.isBad (at0 / 8) = false → s.mem.isBad ((at0 + 8) / 8) = false →
        (d0 % 2 = 0 ∨ bitsOf d0 63 55 ≠ 0 ∨ bitsOf d0 11 1 ≠ 0 ∨ s.mem.word (at0 + 8) ≠ 0 → s.walk pasid va = (.fault 50, s)) ∧
        (d0 % 2 = 1 → bitsOf d0 63 55 = 0 → bitsOf d0 11 1 = 0 → s.mem.word (at0 + 8) = 0 →
          s.walk pasid va = if s.tableOk root then s.walkFrom va 4 root else (.fault 53, s))))) ∧
  (∀ (s : State) level table va, level ≤ 4 →
    let i := bitsOf va (9 * level + 20) (9 * level + 12)
    let at0 := table + 8 * i
    let e := s.mem.word at0
    let size := bitsOf e 11 8
    let sh := [12, 14, 16, 18, 20, 21, 22, 24, 26, 28, 30, 34].getD size 0
    let next := 4096 * bitsOf e 54 12
    let sizes := [[0, 1, 2, 3, 4], [5, 6, 7, 8, 9], [10, 11], [], []].getD level []
    let good := bitsOf e 63 55 = 0 ∧ bitsOf e 4 3 = 0
    let leaf := good ∧ e % 2 = 1 ∧ e.testBit 1 = true
    (∀ j < 513, groupOf level (s.walkRead (table + 8 * j)) = none) → s.inExpander at0 = none →
    (s.mem.isBad (at0 / 8) = true → s.walkFrom va level table = (.fault 54, s)) ∧
    (s.mem.isBad (at0 / 8) = false →
      (e % 2 = 0 → s.walkFrom va level table = (.fault 51, s)) ∧
      (e % 2 = 1 → ¬ good → s.walkFrom va level table = (.fault 53, s)) ∧
      (good → e % 2 = 1 → e.testBit 1 = false → (level = 0 ∨ s.tableOk next = false → s.walkFrom va level table = (.fault 53, s)) ∧
        (∀ k, level = k + 1 → s.tableOk next = true → s.walkFrom va level table = s.walkFrom va k next)) ∧
      (leaf → size ∉ sizes ∨ next % 2 ^ sh ≠ 0 → s.walkFrom va level table = (.fault 53, s)) ∧
      (leaf → size ∈ sizes → next % 2 ^ sh = 0 →
        (e.testBit 5 = false → s.walkFrom va level table = (.page (next + va % 2 ^ sh) (min 21 sh) (e.testBit 2), s)) ∧
        (e.testBit 5 = true → s.walkFrom va level table = if (s.hostLink (bitsOf e 7 6)).mode = 2 then (.fault 53, s)
          else (.host (bitsOf e 7 6) (e.testBit 2), s))))) ∧
  (∀ (s : State) node pasid va write who s1, s1.cached node pasid va = [] →
    (∀ c, s.walk pasid va = (.fault c, s1) → s.translateAt node pasid va write who = (.fault c, s1)) ∧
    (∀ pa sh w, s.walk pasid va = (.page pa sh w, s1) →
      (write = true → w = false → s.translateAt node pasid va write who = (.fault 52, s1)) ∧
      (write = false ∨ w = true → ∃ u, s.translateAt node pasid va write who = (.ok pa, u) ∧ u.mem = s1.mem ∧
        ∃ y ∈ u.tlb, y.node = node ∧ y.pasid = pasid ∧ y.va = va - va % 2 ^ min sh 21 ∧ y.tgt = pa - va % 2 ^ min sh 21 ∧ y.w = w)) ∧
    (∀ n, s.walk pasid va = (.host n false, s1) → write = true → s.translateAt node pasid va write who = (.fault 52, s1)))

/-- Global accesses and translation, as the five claims above say.
Readings and choices of the model: notes/assumptions/2.md, 3.md, 15.md, 36.md. -/
def Obligations.TranslationEvents : Prop := Performs ∧ HostCompletions ∧ ExpanderCompletions ∧ Fluxes ∧ Walks

/-- R209, R234 to R238, R433, R434: an affine READ stream issues its next element once it translates, and one whose address leaves
64 bits aborts the graph with ADDRWRAP; an issued element travels to its owner, is performed there and then is done, and a READ
element's token enters the stream's channel in order. -/
def Sys2Proof.Claims.StreamElements : Prop :=
  (∀ (s : State) j n, s.hasGraph j = true → (s.graph j).phase = .resident → (s.graph j).quench = none →
    let g := s.graph j
    let st := g.stream n
    let at0 := st.address st.next
    (Tab.find g.streams n).isSome = true → s.portStopped st.port = false → st.ended = false → st.kind = .read → st.mode = 0 → st.window = [] → st.next < st.total →
    (at0 < 0 ∨ 2 ^ 64 ≤ at0 → exec (.streamElementIssue j n) s = .next (s.abortGraph j 3 { code := 146, tval := BitVec.ofNat 64 st.next })) ∧
    (∀ e l s1, 0 ≤ at0 → at0 < 2 ^ 64 →
      s.place j n st { idx := st.next, va := at0.toNat, len := g.streamWidth st, st := .spilled noTicket } = (some (e, l), s1) →
      s1.graphs = s.graphs → ∃ u, exec (.streamElementIssue j n) s = .next u ∧ u.mem = s1.mem ∧
        (u.graph j).stream n = { st with next := st.next + 1, window := [e], latched := l })) ∧
  (∀ (s : State) j n e pa k, s.hasGraph j = true → (s.graph j).phase = .resident →
    let g := s.graph j
    let st := g.stream n
    s.portStopped st.port = false → st.window.find? (fun x => decide (x.idx = e.idx)) = some e → e.st = .issued [(.loc pa, k)] → g.mayPerform st e = true →
    ∃ u a, exec (.streamElementComplete j n e.idx) s = .next u ∧ u.mem = s.mem ∧ u.inflight = s.inflight ++ [a] ∧
      a.src = .stream j n e.idx 0 ∧ a.tgt = .loc pa ∧ a.va = e.va ∧ a.cls = st.cls ∧
      (st.kind = .read → a.kind = .load k) ∧
      (st.kind = .write → a.kind = .store (((e.tok.bytes (g.streamWidth st)).take k).map (fun b => (b, e.tok.dross)))) ∧
      (∀ x ∈ ((u.graph j).stream n).window, x.idx = e.idx → x.st = .external [none] [(.loc pa, k)])) ∧
  (∀ (s : State) a j n i pa, s.access? a.id = some a → s.free a = true → a.sent = false → s.carried a = false → a.src = .stream j n i 0 →
    a.tgt = .loc pa → s.secureAt pa = false → s.inExpander pa = none → s.hasGraph j = true →
    (∀ k, a.kind = .load k → a.fwd = [] → ∃ u, exec (.globalAccessPerform a.id) s = .next u ∧ u.mem = s.mem ∧
      ∀ x ∈ ((s.graph j).stream n).window, ∀ ts, x.idx = i → x.st = .external [none] ts →
        { x with st := .external [some (s.mem.reads pa k)] ts } ∈ ((u.graph j).stream n).window) ∧
    (∀ bs, a.kind = .store bs → ∃ u, exec (.globalAccessPerform a.id) s = .next u ∧ u.mem = s.mem.writePiece pa bs)) ∧
  (∀ (s : State) j n e bs ts, s.hasGraph j = true → (s.graph j).phase = .resident →
    let st := (s.graph j).stream n
    s.portStopped st.port = false → st.window.find? (fun x => decide (x.idx = e.idx)) = some e → e.st = .external [some bs] ts →
    ∃ u, exec (.streamElementComplete j n e.idx) s = .next u ∧ u.mem = s.mem ∧
      (st.kind = .read → ∀ x ∈ ((u.graph j).stream n).window, x.idx = e.idx →
        x.st = .read { data := vOf (bs.map (·.1)), dross := anyDross bs }) ∧
      (st.kind = .write → ∀ x ∈ ((u.graph j).stream n).window, x.idx ≠ e.idx)) ∧
  (∀ (s : State) j n e tok c, s.hasGraph j = true → (s.graph j).phase = .resident → (s.graph j).quench = none →
    let g := s.graph j
    let st := g.stream n
    let x := g.chan c
    s.portStopped st.port = false → st.window.find? (fun y => decide (y.idx = e.idx)) = some e → e.st = .read tok → (∀ y ∈ st.window, e.idx ≤ y.idx) → st.mode = 0 →
    g.outsOf n = [c] → x.buf.length + x.transit.length < x.cap → tok.null = false →
    ∃ u, exec (.streamElementComplete j n e.idx) s = .next u ∧ u.mem = s.mem ∧ (∀ y ∈ ((u.graph j).stream n).window, y.idx ≠ e.idx) ∧
      ((u.graph j).chan c).transit = x.transit ++ [{ tok with data := BitVec.ofNat 512 (tok.data.toNat % 2 ^ (8 * x.width)) }])

/-- A request of host link `l` through BAR2 has been taken: its accesses travel to their owners, a granule each (R208, R209). -/
def Sys2Proof.Claims.HostTaken (s u : State) (l off : Nat) (read : Bool) (as : List Access) : Prop :=
  ∃ r, u.inreqs = s.inreqs ++ [r] ∧ r.peer = 4096 + l ∧ r.addr = off ∧ r.read = read ∧ r.err = false ∧ r.broke = false ∧ u.mem = s.mem ∧
    u.out = s.out ∧ u.inflight = s.inflight ++ as ∧ r.parts.map (·.1) = as.map (·.id) ∧ (∀ y ∈ r.parts, y.2.2 = none) ∧
    ∀ x ∈ as, x.src = .inbound (4096 + l) r.id ∧ x.sent = false ∧ (off + 4096 ≤ 0x18000000000 → s.inSave x.va = false → x.tgt = .loc x.va)

/-- R19, R86, R208, R209, R303: a host's read or write of BAR2 within the sizes of the link travels as an access for each granule; a larger
one is unsupported. As the last granule of a read is read, the bytes go back; a read that met secure memory, or dross that its link
does not take, is answered with Completer Abort, the latter under a notice. A granule of a write is stored. -/
def Sys2Proof.Claims.HostAccesses : Prop :=
  (∀ (s : State) l off n (data : List Byte) p, s.hostServes l = true →
    (0 < n → n ≤ 4096 → off + n ≤ 2 ^ 42 → ∃ u as, exec (.hostBar2Read l off n) s = .next u ∧ HostTaken s u l off true as ∧
      as.map (fun x => (x.va, x.kind)) = (pieces (n + 1) off n).map (fun e => (e.1, AKind.load e.2))) ∧
    (4096 < n → off + n ≤ 2 ^ 42 → exec (.hostBar2Read l off n) s = .next (s.emit (.unsupported l))) ∧
    (data ≠ [] → data.length ≤ 512 → off + data.length ≤ 2 ^ 42 → ∃ u as, exec (.hostBar2Write l off data p) s = .next u ∧
      HostTaken s u l off false as ∧ as.map (·.va) = (pieces (data.length + 1) off data.length).map (·.1) ∧
      as.flatMap (fun x => match x.kind with
        | .store b => b
        | _ => []) = data.map (fun b => (b, p))) ∧
    (512 < data.length → off + data.length ≤ 2 ^ 42 → exec (.hostBar2Write l off data p) s = .next (s.emit (.unsupported l)))) ∧
  (∀ (s : State) a l i r pa n, s.access? a.id = some a → s.free a = true → a.sent = false → s.carried a = false →
    a.src = .inbound (4096 + l) i → a.tgt = .loc pa → s.inExpander pa = none → a.kind = .load n → a.fwd = [] →
    s.inreqs.find? (fun x => decide (x.id = i)) = some r → r.peer = 4096 + l → r.read = true →
    let ps := fun (b : List (Byte × Bool)) => r.parts.map (fun y => if y.1 = a.id then (y.1, y.2.1, some b) else y)
    let got := ps (s.mem.reads pa n)
    let bs := got.flatMap (fun y => y.2.2.getD [])
    (s.secureAt pa = false → (∃ y ∈ got, y.2.2 = none) → ∃ u, exec (.globalAccessPerform a.id) s = .next u ∧ u.mem = s.mem ∧ u.out = s.out ∧
      u.inreqs.find? (fun x => decide (x.id = i)) = some { r with parts := got }) ∧
    (s.secureAt pa = false → (∀ y ∈ got, y.2.2 ≠ none) → ∃ u, exec (.globalAccessPerform a.id) s = .next u ∧ u.mem = s.mem ∧
      (∀ x ∈ u.inreqs, x.id ≠ i) ∧
      (r.err = true → u.out = s.out ++ [.bar2 l r.addr [] false true]) ∧
      (r.err = false → anyDross bs = false ∨ s.board.hpctl.getLsbD l = true →
        u.out = s.out ++ [.bar2 l r.addr (bs.map (·.1)) (anyDross bs) false]) ∧
      (r.err = false → anyDross bs = true → s.board.hpctl.getLsbD l = false → u.out.getLast? = some (.bar2 l r.addr [] false true))) ∧
    (s.secureAt pa = true → (∀ x ∈ s.inreqs, x.id = i → x.broke = false) → (∀ y ∈ r.parts, y.1 = a.id ∨ y.2.2 ≠ none) →
      ∃ u, exec (.globalAccessPerform a.id) s = .next u ∧ u.mem = s.mem ∧ (∀ x ∈ u.inreqs, x.id ≠ i) ∧
        u.out.getLast? = some (.bar2 l r.addr [] false true))) ∧
  (∀ (s : State) a l i r pa bs, s.access? a.id = some a → s.free a = true → a.sent = false → s.carried a = false →
    a.src = .inbound (4096 + l) i → a.tgt = .loc pa → s.inExpander pa = none → a.kind = .store bs →
    s.inreqs.find? (fun x => decide (x.id = i)) = some r → r.peer = 4096 + l → r.read = false → s.secureAt pa = false →
    ∃ u, exec (.globalAccessPerform a.id) s = .next u ∧ u.mem = s.mem.writePiece pa bs ∧ u.out = s.out ∧ u.graphs = s.graphs)

/-- R35, R36: a reduction stream takes its channel's tokens as they come, null tokens alone too, and sends each contribution that is
complete; its oldest operation completes once no other member is waited for, in the result channel's tokens. -/
def Sys2Proof.Claims.Reduces : Prop :=
  (∀ (s : State) j n k ts, s.hasGraph j = true → (s.graph j).phase = .resident → (s.graph j).quench = none →
    let g := s.graph j
    let st := g.stream n
    let own := (tokenBytes (st.got ++ ts)).take (st.count.headD 0 * 2 ^ (st.mode + 1))
    st.kind = .reduce → st.ended = false → gather (st.contribution - st.got.length) (g.chan st.chan).buf = (k, ts) → k ≠ 0 →
    ∃ u, exec (.reduceContribution j n) s = .next u ∧ u.mem = s.mem ∧ ((u.graph j).chan st.chan).buf = (g.chan st.chan).buf.drop k ∧
      (st.got.length + ts.length < st.contribution → ((u.graph j).stream n).got = st.got ++ ts ∧ ((u.graph j).stream n).ops = st.ops ∧
        ((u.graph j).stream n).next = st.next ∧ u.out = s.out) ∧
      (st.contribution ≤ st.got.length + ts.length → ((u.graph j).stream n).got = [] ∧
        ((u.graph j).stream n).ops = st.ops ++ [{ idx := st.next, own := own }] ∧ ((u.graph j).stream n).next = st.next + 1 ∧
        u.out = s.out ++ [.reduceSend (st.stride.headD 0 % 2 ^ 32).toNat st.next own])) ∧
  (∀ (s : State) j n o rest others c, s.hasGraph j = true → (s.graph j).phase = .resident →
    let g := s.graph j
    let st := g.stream n
    let x := g.chan c
    let size := 2 ^ (st.mode + 1)
    let bs := reduceAll st.op size (st.count.headD 0) false ((s.board.domid, o.own) :: others)
    st.kind = .reduce → st.results = [] → st.ops = o :: rest → g.outsOf n = [c] → x.buf.length + x.transit.length + st.contribution ≤ x.cap →
    (∀ m ∈ others, m.1 ∈ st.members ∧ m.1 ≠ s.board.domid ∧ m.2.length = size * st.count.headD 0) →
    (∀ q ∈ st.members, q ≠ s.board.domid → ∃ m ∈ others, m.1 = q) →
    ∃ u, exec (.reduceResult j n others) s = .next u ∧ u.mem = s.mem ∧ ((u.graph j).stream n).ops = rest ∧
      ((u.graph j).chan c).transit = x.transit ++ (List.range st.contribution).map (fun i =>
        let b := (bs.drop (64 * i)).take 64
        { null := false, data := BitVec.ofNat 512 ((vOf (b.map (·.1))).toNat % 2 ^ (8 * x.width)), dross := anyDross b }))

/-- Streams, hosts and reductions, as the three claims above say.
Readings and choices of the model: notes/assumptions/3.md, 37.md, 50.md. -/
def Obligations.StreamAndHostEvents : Prop := StreamElements ∧ HostAccesses ∧ Reduces

/-- R18, R19, R23, R31, R61, R302: a link that goes down reports LINKDOWN and has no lanes, one that trains has its lanes and rate,
a host link with a spent port at most 8 lanes, and a reset link completes what it has outstanding, a peer's request to its expander
among it. That `x` and `y` are the enables of the host's function is the model's reading (`notes/assumptions/40.md`). -/
def Sys2Proof.Claims.Links : Prop :=
  (∀ (s : State) n, ((s.linkPort n).lanes ≠ 0 → exec (.linkdown (.ual n)) s =
      .next ((s.setLinkPort n { s.linkPort n with lanes := 0, rate := 0 }).notice false 198 (BitVec.ofNat 64 n))) ∧
    ((s.hostLink n).rate ≠ 0 → exec (.linkdown (.host n)) s =
      .next ((s.setHostLink n { s.hostLink n with lanes := 0, rate := 0 }).notice false 198 (BitVec.ofNat 64 n)))) ∧
  (∀ (s : State) n lanes rate x y, s.board.held = false → 1 ≤ rate →
    (n < 48 → (s.linkPort n).en = true → 1 ≤ lanes → lanes ≤ 4 → rate ≤ 3 →
      exec (.linkTrained (.ual n) lanes rate x y) s = .next (s.setLinkPort n { s.linkPort n with lanes := lanes, rate := rate })) ∧
    (n < 4 → lanes ∈ [1, 2, 4, 8, 16] → ((∃ k < 4, (s.block (portBlock (64 * n + 30 + k))).spent = true) → lanes ≤ 8) → rate ≤ 6 → exec (.linkTrained (.host n) lanes rate x y) s =
      .next (s.setHostLink n { s.hostLink n with lanes := lanes, rate := rate, atomicEn := x, ats := y })) ∧
    (∀ u, (∃ k < 4, (s.block (portBlock (64 * n + 30 + k))).spent = true) → exec (.linkTrained (.host n) lanes rate x y) s = .next u →
      lanes ≤ 8)) ∧
  (∀ (s : State) l, l < 4 → ∃ u, exec (.linkReset l) s = .next u ∧ u.board.rcause = 3 ∧ (u.hostLink l).rate = 0 ∧ (u.hostLink l).lanes = 0 ∧
    u.mem = s.mem ∧ (∀ a ∈ u.inflight, ¬ (a.sent = true ∧ ∃ addr, a.tgt = .host l addr)) ∧ (∀ r ∈ u.ats, r.link = l → r.denied = true) ∧
    ∀ a q i r pa e z, a ∈ s.inflight → a.src = .inbound q i → a.tgt = .loc pa → s.inExpander pa = some (l, e, z) → s.free a = true →
      s.inreqs.find? (fun x => decide (x.id = i)) = some r → (∀ y ∈ r.parts, y.1 = a.id ∨ y.2.2.isSome = true) →
      (∀ x ∈ u.inflight, x.src = a.src → x.id ≠ a.id) ∧ ∀ x ∈ u.inreqs, x.id ≠ i)

/-- A request of peer `q` has been taken: it counts against its budget, and its accesses travel (R21, R22, R27). -/
def Sys2Proof.Claims.Taken (s u : State) (q : Nat) (as : List Access) : Prop :=
  ∃ r, u.inreqs = s.inreqs ++ [r] ∧ r.peer = q ∧ (u.peer q).icount = (s.peer q).icount + 1 ∧ u.mem = s.mem ∧
    u.inflight = s.inflight ++ as ∧ r.parts.map (·.1) = as.map (·.id) ∧ ∀ x ∈ as, x.src = .inbound q r.id

/-- R21, R22, R27, R29: an Active peer's read, write, atomic or fence within its budget is taken and travels to its owner, an
access for each granule; beyond the budget it is answered busy and counted, and any other peer's is answered with error. -/
def Sys2Proof.Claims.InboundRequests : Prop :=
  ∀ (s : State) q addr n cls op data cmp (bs : List Byte) p mask, q < 4096 → cls < 16 → 1 ≤ n → addr % 256 + n ≤ 256 → addr + n ≤ 2 ^ 42 →
    0 < mask → mask < 65536 →
    ((s.peer q).st = .active → (s.peer q).icount < (s.peer q).ibudget →
      (∃ u as, exec (.peerInboundRead q addr n cls) s = .next u ∧ Taken s u q as ∧
        as.map (fun x => x.kind) = (pieces (n + 1) addr n).map (fun e => AKind.load e.2) ∧
        ((∀ i < n, ∀ off, s.lowTarget (addr + i) ≠ .reg off) → as.map (fun x => x.tgt) = (pieces (n + 1) addr n).map (fun e => s.lowTarget e.1)) ∧
        ∀ x ∈ as, x.cls = cls) ∧
      (bs.length = n → ∃ u as, exec (.peerInboundWrite q addr cls (bs.map some) p) s = .next u ∧ Taken s u q as ∧ (∀ x ∈ as, x.cls = cls) ∧
        as.flatMap (fun x => match x.kind with
          | .store b => b
          | _ => []) = bs.map (fun b => (b, p))) ∧
      (n = 8 → addr % 8 = 0 → ∃ u a, exec (.peerInboundAtomic q addr cls op data cmp p) s = .next u ∧ Taken s u q [a] ∧ a.cls = cls ∧
        a.tgt = s.lowTarget addr ∧ a.kind = .atomic op data cmp p 8) ∧
      (∃ u a, exec (.peerDomainFence q mask) s = .next u ∧ Taken s u q [a] ∧ a.kind = .fence mask ∧
        ∀ x ∈ s.inflight, mask.testBit x.cls = true → (∃ i, x.src = .inbound q i) → x.id ∈ a.after)) ∧
    ((s.peer q).st = .active → (s.peer q).ibudget ≤ (s.peer q).icount → exec (.peerInboundRead q addr n cls) s =
      .next ((s.setPeer q { s.peer q with busy := min 1023 ((s.peer q).busy + 1) }).emit (.peerReply q [] false true true))) ∧
    ((s.peer q).st = .disabled → exec (.peerInboundRead q addr n cls) s =
      .next ((s.setPeer q { s.peer q with busy := min 1023 ((s.peer q).busy + 1) }).emit (.peerReply q [] false true false))) ∧
    ((s.peer q).st = .isolated → exec (.peerInboundRead q addr n cls) s = .next (s.emit (.peerReply q [] false true false)))

/-- R23 to R26, R28, R29, R303: a request that order and budget let go is sent on its pair's port; its response, under the
epoch it was sent in, ends its access, and a stray one is discarded; an expiry isolates the peer under a new epoch. -/
def Sys2Proof.Claims.OutboundRequests : Prop :=
  (∀ (s : State) o port, s.outreqs.find? (fun x => decide (x.id = o.id) && !x.sent) = some o → (s.peer o.peer).st = .active →
    (s.peer o.peer).ocount < (s.peer o.peer).obudget → s.orderOk o = true → (∀ a ∈ s.accsOf o, a.dross = false) →
    s.portOf o.peer o.cls = some port → (∀ x ∈ s.outreqs, x.sent = true → x.peer = o.peer → x.cls = o.cls → x.port = port) →
    ∃ u, exec (.outboundRequestSend o.id) s = .next u ∧ u.mem = s.mem ∧ (u.peer o.peer).ocount = (s.peer o.peer).ocount + 1 ∧
      u.out = s.out ++ [.peerReq o.peer port o.cls (s.requestAddr o) (s.requestKind o)] ∧
      ∀ x ∈ u.outreqs, x.id = o.id → x.sent = true ∧ x.port = port ∧ x.epoch = (s.peer o.peer).epoch) ∧
  (∀ (s : State) o a n data, s.outreqs.find? (fun x => decide (x.id = o.id) && x.sent) = some o → s.accsOf o = [a] → a.kind = .load n →
    a.fwd = [] → data.length = n →
    (∃ u, exec (.peerResponse o.id o.epoch data false false) s = .next u ∧ (u.peer o.peer).ocount = (s.peer o.peer).ocount - 1 ∧
      Returned s u a (data.map (fun b => (b, false)))) ∧
    (∃ u, exec (.peerResponse o.id o.epoch data false true) s = .next u ∧ Returned s u a (List.replicate n (0, true))) ∧
    (∀ e ≠ o.epoch, exec (.peerResponse o.id e data false false) s = .next s)) ∧
  (∀ (s : State) o, s.outreqs.find? (fun x => decide (x.id = o.id) && x.sent) = some o → (s.peer o.peer).st = .active →
    ∃ u, exec (.requestExpire o.id) s = .next u ∧ (u.peer o.peer).st = .isolated ∧ (u.peer o.peer).ocount = 0 ∧
      (u.peer o.peer).epoch = ((s.peer o.peer).epoch + 1) % 256)

/-- Links and peers, as the three claims above say.
Readings and choices of the model: notes/assumptions/3.md, 40.md, 54.md, 61.md, 84.md. -/
def Obligations.PeerEvents : Prop := Links ∧ InboundRequests ∧ OutboundRequests
end

