-- ==== Sys2Proof/Laws/State.lean ====
section
/-! SUPPORT. What the setters of Machine/Ops.lean leave in each field of the state, and the laws of tables. -/

namespace Sys2Proof

/-- Erasing a key leaves the other keys as they were. -/
theorem Tab.get_erase_ne {α : Type} (d : α) (t : Tab α) {i k : Nat} (h : k ≠ i) : Tab.get d (Tab.erase t i) k = Tab.get d t k := by
  induction t with
  | nil => rfl
  | cons e t ih =>
    obtain ⟨n, v⟩ := e
    by_cases hn : n = i
    · subst hn
      simpa [Tab.erase, Tab.get, Ne.symm h] using ih
    · by_cases hk : n = k
      · simp [Tab.erase, Tab.get, hk, h]
      · simpa [Tab.erase, Tab.get, hk, hn] using ih

/-- An inserted entry is found. -/
theorem Tab.get_insert_self {α : Type} (d : α) (i : Nat) (v : α) : ∀ t : Tab α, (∀ e ∈ t, e.1 ≠ i) → Tab.get d (Tab.insert i v t) i = v
  | [], _ => by simp [Tab.insert, Tab.get]
  | (k, w) :: t, h => by
    have hk : k ≠ i := h (k, w) (by simp)
    by_cases hl : i < k
    · simp [Tab.insert, Tab.get, hl]
    · simp only [Tab.insert, hl, if_false, Tab.get, hk]
      exact Tab.get_insert_self d i v t (fun e he => h e (by simp [he]))

/-- An insertion leaves the other keys as they were. -/
theorem Tab.get_insert_ne {α : Type} (d : α) {i k : Nat} (v : α) (h : k ≠ i) : ∀ t : Tab α, Tab.get d (Tab.insert i v t) k = Tab.get d t k
  | [] => by simp [Tab.insert, Tab.get, Ne.symm h]
  | (n, w) :: t => by
    by_cases hl : i < n
    · simp [Tab.insert, Tab.get, hl, Ne.symm h]
    · by_cases hn : n = k
      · subst hn
        simp [Tab.insert, Tab.get, hl]
      · simp only [Tab.insert, hl, if_false, Tab.get, hn]
        exact Tab.get_insert_ne d v h t

/-- No entry of a table without a key has that key. -/
theorem Tab.erase_ne {α : Type} (t : Tab α) (i : Nat) : ∀ e ∈ Tab.erase t i, e.1 ≠ i := by
  intro e he
  simpa using (List.mem_filter.mp he).2

/-- A set key reads as the value set. -/
@[simp] theorem Tab.get_set_self {α : Type} (d : α) (t : Tab α) (i : Nat) (v : α) : Tab.get d (Tab.set t i v) i = v :=
  Tab.get_insert_self d i v _ (Tab.erase_ne t i)

/-- Setting a key leaves the other keys as they were. -/
theorem Tab.get_set_ne {α : Type} (d : α) (t : Tab α) {i k : Nat} (v : α) (h : k ≠ i) : Tab.get d (Tab.set t i v) k = Tab.get d t k :=
  (Tab.get_insert_ne d v h _).trans (Tab.get_erase_ne d t h)

/-- The value a table finds is the one it gets. -/
theorem Tab.find_eq_get {α : Type} (d : α) (t : Tab α) (i : Nat) : (Tab.find t i).getD d = Tab.get d t i := by
  induction t with
  | nil => rfl
  | cons e t ih =>
    obtain ⟨k, v⟩ := e
    by_cases h : k = i
    · simp [Tab.find, Tab.get, h]
    · simpa [Tab.find, Tab.get, h] using ih

namespace Machine

/-! `State.setTile`. -/

@[simp] theorem State.setTile_agenda (s : State) (t : Nat) (x : Tile) : (s.setTile t x).agenda = s.agenda := rfl
@[simp] theorem State.setTile_focus (s : State) (t : Nat) (x : Tile) : (s.setTile t x).focus = s.focus := rfl
@[simp] theorem State.setTile_fresh (s : State) (t : Nat) (x : Tile) : (s.setTile t x).fresh = s.fresh := rfl
@[simp] theorem State.setTile_nextId (s : State) (t : Nat) (x : Tile) : (s.setTile t x).nextId = s.nextId := rfl
@[simp] theorem State.setTile_board (s : State) (t : Nat) (x : Tile) : (s.setTile t x).board = s.board := rfl
@[simp] theorem State.setTile_kiln (s : State) (t : Nat) (x : Tile) : (s.setTile t x).kiln = s.kiln := rfl
@[simp] theorem State.setTile_queues (s : State) (t : Nat) (x : Tile) : (s.setTile t x).queues = s.queues := rfl
@[simp] theorem State.setTile_jobs (s : State) (t : Nat) (x : Tile) : (s.setTile t x).jobs = s.jobs := rfl
@[simp] theorem State.setTile_graphs (s : State) (t : Nat) (x : Tile) : (s.setTile t x).graphs = s.graphs := rfl
@[simp] theorem State.setTile_tiles (s : State) (t : Nat) (x : Tile) : (s.setTile t x).tiles = Tab.set s.tiles t x := rfl
@[simp] theorem State.setTile_blocks (s : State) (t : Nat) (x : Tile) : (s.setTile t x).blocks = s.blocks := rfl
@[simp] theorem State.setTile_ports (s : State) (t : Nat) (x : Tile) : (s.setTile t x).ports = s.ports := rfl
@[simp] theorem State.setTile_linkPorts (s : State) (t : Nat) (x : Tile) : (s.setTile t x).linkPorts = s.linkPorts := rfl
@[simp] theorem State.setTile_hostLinks (s : State) (t : Nat) (x : Tile) : (s.setTile t x).hostLinks = s.hostLinks := rfl
@[simp] theorem State.setTile_peers (s : State) (t : Nat) (x : Tile) : (s.setTile t x).peers = s.peers := rfl
@[simp] theorem State.setTile_mem (s : State) (t : Nat) (x : Tile) : (s.setTile t x).mem = s.mem := rfl
@[simp] theorem State.setTile_inflight (s : State) (t : Nat) (x : Tile) : (s.setTile t x).inflight = s.inflight := rfl
@[simp] theorem State.setTile_outreqs (s : State) (t : Nat) (x : Tile) : (s.setTile t x).outreqs = s.outreqs := rfl
@[simp] theorem State.setTile_inreqs (s : State) (t : Nat) (x : Tile) : (s.setTile t x).inreqs = s.inreqs := rfl
@[simp] theorem State.setTile_tickets (s : State) (t : Nat) (x : Tile) : (s.setTile t x).tickets = s.tickets := rfl
@[simp] theorem State.setTile_tlb (s : State) (t : Nat) (x : Tile) : (s.setTile t x).tlb = s.tlb := rfl
@[simp] theorem State.setTile_ats (s : State) (t : Nat) (x : Tile) : (s.setTile t x).ats = s.ats := rfl
@[simp] theorem State.setTile_flux (s : State) (t : Nat) (x : Tile) : (s.setTile t x).flux = s.flux := rfl
@[simp] theorem State.setTile_fq (s : State) (t : Nat) (x : Tile) : (s.setTile t x).fq = s.fq := rfl
@[simp] theorem State.setTile_fqs (s : State) (t : Nat) (x : Tile) : (s.setTile t x).fqs = s.fqs := rfl
@[simp] theorem State.setTile_out (s : State) (t : Nat) (x : Tile) : (s.setTile t x).out = s.out := rfl

/-! `State.setPort`. -/

@[simp] theorem State.setPort_agenda (s : State) (p : Nat) (x : Port) : (s.setPort p x).agenda = s.agenda := rfl
@[simp] theorem State.setPort_focus (s : State) (p : Nat) (x : Port) : (s.setPort p x).focus = s.focus := rfl
@[simp] theorem State.setPort_fresh (s : State) (p : Nat) (x : Port) : (s.setPort p x).fresh = s.fresh := rfl
@[simp] theorem State.setPort_nextId (s : State) (p : Nat) (x : Port) : (s.setPort p x).nextId = s.nextId := rfl
@[simp] theorem State.setPort_board (s : State) (p : Nat) (x : Port) : (s.setPort p x).board = s.board := rfl
@[simp] theorem State.setPort_kiln (s : State) (p : Nat) (x : Port) : (s.setPort p x).kiln = s.kiln := rfl
@[simp] theorem State.setPort_queues (s : State) (p : Nat) (x : Port) : (s.setPort p x).queues = s.queues := rfl
@[simp] theorem State.setPort_jobs (s : State) (p : Nat) (x : Port) : (s.setPort p x).jobs = s.jobs := rfl
@[simp] theorem State.setPort_graphs (s : State) (p : Nat) (x : Port) : (s.setPort p x).graphs = s.graphs := rfl
@[simp] theorem State.setPort_tiles (s : State) (p : Nat) (x : Port) : (s.setPort p x).tiles = s.tiles := rfl
@[simp] theorem State.setPort_blocks (s : State) (p : Nat) (x : Port) : (s.setPort p x).blocks = s.blocks := rfl
@[simp] theorem State.setPort_ports (s : State) (p : Nat) (x : Port) : (s.setPort p x).ports = Tab.set s.ports p x := rfl
@[simp] theorem State.setPort_linkPorts (s : State) (p : Nat) (x : Port) : (s.setPort p x).linkPorts = s.linkPorts := rfl
@[simp] theorem State.setPort_hostLinks (s : State) (p : Nat) (x : Port) : (s.setPort p x).hostLinks = s.hostLinks := rfl
@[simp] theorem State.setPort_peers (s : State) (p : Nat) (x : Port) : (s.setPort p x).peers = s.peers := rfl
@[simp] theorem State.setPort_mem (s : State) (p : Nat) (x : Port) : (s.setPort p x).mem = s.mem := rfl
@[simp] theorem State.setPort_inflight (s : State) (p : Nat) (x : Port) : (s.setPort p x).inflight = s.inflight := rfl
@[simp] theorem State.setPort_outreqs (s : State) (p : Nat) (x : Port) : (s.setPort p x).outreqs = s.outreqs := rfl
@[simp] theorem State.setPort_inreqs (s : State) (p : Nat) (x : Port) : (s.setPort p x).inreqs = s.inreqs := rfl
@[simp] theorem State.setPort_tickets (s : State) (p : Nat) (x : Port) : (s.setPort p x).tickets = s.tickets := rfl
@[simp] theorem State.setPort_tlb (s : State) (p : Nat) (x : Port) : (s.setPort p x).tlb = s.tlb := rfl
@[simp] theorem State.setPort_ats (s : State) (p : Nat) (x : Port) : (s.setPort p x).ats = s.ats := rfl
@[simp] theorem State.setPort_flux (s : State) (p : Nat) (x : Port) : (s.setPort p x).flux = s.flux := rfl
@[simp] theorem State.setPort_fq (s : State) (p : Nat) (x : Port) : (s.setPort p x).fq = s.fq := rfl
@[simp] theorem State.setPort_fqs (s : State) (p : Nat) (x : Port) : (s.setPort p x).fqs = s.fqs := rfl
@[simp] theorem State.setPort_out (s : State) (p : Nat) (x : Port) : (s.setPort p x).out = s.out := rfl

/-! `State.setBlock`. -/

@[simp] theorem State.setBlock_agenda (s : State) (b : Nat) (x : Block) : (s.setBlock b x).agenda = s.agenda := rfl
@[simp] theorem State.setBlock_focus (s : State) (b : Nat) (x : Block) : (s.setBlock b x).focus = s.focus := rfl
@[simp] theorem State.setBlock_fresh (s : State) (b : Nat) (x : Block) : (s.setBlock b x).fresh = s.fresh := rfl
@[simp] theorem State.setBlock_nextId (s : State) (b : Nat) (x : Block) : (s.setBlock b x).nextId = s.nextId := rfl
@[simp] theorem State.setBlock_board (s : State) (b : Nat) (x : Block) : (s.setBlock b x).board = s.board := rfl
@[simp] theorem State.setBlock_kiln (s : State) (b : Nat) (x : Block) : (s.setBlock b x).kiln = s.kiln := rfl
@[simp] theorem State.setBlock_queues (s : State) (b : Nat) (x : Block) : (s.setBlock b x).queues = s.queues := rfl
@[simp] theorem State.setBlock_jobs (s : State) (b : Nat) (x : Block) : (s.setBlock b x).jobs = s.jobs := rfl
@[simp] theorem State.setBlock_graphs (s : State) (b : Nat) (x : Block) : (s.setBlock b x).graphs = s.graphs := rfl
@[simp] theorem State.setBlock_tiles (s : State) (b : Nat) (x : Block) : (s.setBlock b x).tiles = s.tiles := rfl
@[simp] theorem State.setBlock_blocks (s : State) (b : Nat) (x : Block) : (s.setBlock b x).blocks = Tab.set s.blocks b x := rfl
@[simp] theorem State.setBlock_ports (s : State) (b : Nat) (x : Block) : (s.setBlock b x).ports = s.ports := rfl
@[simp] theorem State.setBlock_linkPorts (s : State) (b : Nat) (x : Block) : (s.setBlock b x).linkPorts = s.linkPorts := rfl
@[simp] theorem State.setBlock_hostLinks (s : State) (b : Nat) (x : Block) : (s.setBlock b x).hostLinks = s.hostLinks := rfl
@[simp] theorem State.setBlock_peers (s : State) (b : Nat) (x : Block) : (s.setBlock b x).peers = s.peers := rfl
@[simp] theorem State.setBlock_mem (s : State) (b : Nat) (x : Block) : (s.setBlock b x).mem = s.mem := rfl
@[simp] theorem State.setBlock_inflight (s : State) (b : Nat) (x : Block) : (s.setBlock b x).inflight = s.inflight := rfl
@[simp] theorem State.setBlock_outreqs (s : State) (b : Nat) (x : Block) : (s.setBlock b x).outreqs = s.outreqs := rfl
@[simp] theorem State.setBlock_inreqs (s : State) (b : Nat) (x : Block) : (s.setBlock b x).inreqs = s.inreqs := rfl
@[simp] theorem State.setBlock_tickets (s : State) (b : Nat) (x : Block) : (s.setBlock b x).tickets = s.tickets := rfl
@[simp] theorem State.setBlock_tlb (s : State) (b : Nat) (x : Block) : (s.setBlock b x).tlb = s.tlb := rfl
@[simp] theorem State.setBlock_ats (s : State) (b : Nat) (x : Block) : (s.setBlock b x).ats = s.ats := rfl
@[simp] theorem State.setBlock_flux (s : State) (b : Nat) (x : Block) : (s.setBlock b x).flux = s.flux := rfl
@[simp] theorem State.setBlock_fq (s : State) (b : Nat) (x : Block) : (s.setBlock b x).fq = s.fq := rfl
@[simp] theorem State.setBlock_fqs (s : State) (b : Nat) (x : Block) : (s.setBlock b x).fqs = s.fqs := rfl
@[simp] theorem State.setBlock_out (s : State) (b : Nat) (x : Block) : (s.setBlock b x).out = s.out := rfl

/-! `State.setQueue`. -/

@[simp] theorem State.setQueue_agenda (s : State) (q : Nat) (x : Queue) : (s.setQueue q x).agenda = s.agenda := rfl
@[simp] theorem State.setQueue_focus (s : State) (q : Nat) (x : Queue) : (s.setQueue q x).focus = s.focus := rfl
@[simp] theorem State.setQueue_fresh (s : State) (q : Nat) (x : Queue) : (s.setQueue q x).fresh = s.fresh := rfl
@[simp] theorem State.setQueue_nextId (s : State) (q : Nat) (x : Queue) : (s.setQueue q x).nextId = s.nextId := rfl
@[simp] theorem State.setQueue_board (s : State) (q : Nat) (x : Queue) : (s.setQueue q x).board = s.board := rfl
@[simp] theorem State.setQueue_kiln (s : State) (q : Nat) (x : Queue) : (s.setQueue q x).kiln = s.kiln := rfl
@[simp] theorem State.setQueue_queues (s : State) (q : Nat) (x : Queue) : (s.setQueue q x).queues = Tab.set s.queues q x := rfl
@[simp] theorem State.setQueue_jobs (s : State) (q : Nat) (x : Queue) : (s.setQueue q x).jobs = s.jobs := rfl
@[simp] theorem State.setQueue_graphs (s : State) (q : Nat) (x : Queue) : (s.setQueue q x).graphs = s.graphs := rfl
@[simp] theorem State.setQueue_tiles (s : State) (q : Nat) (x : Queue) : (s.setQueue q x).tiles = s.tiles := rfl
@[simp] theorem State.setQueue_blocks (s : State) (q : Nat) (x : Queue) : (s.setQueue q x).blocks = s.blocks := rfl
@[simp] theorem State.setQueue_ports (s : State) (q : Nat) (x : Queue) : (s.setQueue q x).ports = s.ports := rfl
@[simp] theorem State.setQueue_linkPorts (s : State) (q : Nat) (x : Queue) : (s.setQueue q x).linkPorts = s.linkPorts := rfl
@[simp] theorem State.setQueue_hostLinks (s : State) (q : Nat) (x : Queue) : (s.setQueue q x).hostLinks = s.hostLinks := rfl
@[simp] theorem State.setQueue_peers (s : State) (q : Nat) (x : Queue) : (s.setQueue q x).peers = s.peers := rfl
@[simp] theorem State.setQueue_mem (s : State) (q : Nat) (x : Queue) : (s.setQueue q x).mem = s.mem := rfl
@[simp] theorem State.setQueue_inflight (s : State) (q : Nat) (x : Queue) : (s.setQueue q x).inflight = s.inflight := rfl
@[simp] theorem State.setQueue_outreqs (s : State) (q : Nat) (x : Queue) : (s.setQueue q x).outreqs = s.outreqs := rfl
@[simp] theorem State.setQueue_inreqs (s : State) (q : Nat) (x : Queue) : (s.setQueue q x).inreqs = s.inreqs := rfl
@[simp] theorem State.setQueue_tickets (s : State) (q : Nat) (x : Queue) : (s.setQueue q x).tickets = s.tickets := rfl
@[simp] theorem State.setQueue_tlb (s : State) (q : Nat) (x : Queue) : (s.setQueue q x).tlb = s.tlb := rfl
@[simp] theorem State.setQueue_ats (s : State) (q : Nat) (x : Queue) : (s.setQueue q x).ats = s.ats := rfl
@[simp] theorem State.setQueue_flux (s : State) (q : Nat) (x : Queue) : (s.setQueue q x).flux = s.flux := rfl
@[simp] theorem State.setQueue_fq (s : State) (q : Nat) (x : Queue) : (s.setQueue q x).fq = s.fq := rfl
@[simp] theorem State.setQueue_fqs (s : State) (q : Nat) (x : Queue) : (s.setQueue q x).fqs = s.fqs := rfl
@[simp] theorem State.setQueue_out (s : State) (q : Nat) (x : Queue) : (s.setQueue q x).out = s.out := rfl

/-! `State.setJob`. -/

@[simp] theorem State.setJob_agenda (s : State) (j : Nat) (x : Job) : (s.setJob j x).agenda = s.agenda := rfl
@[simp] theorem State.setJob_focus (s : State) (j : Nat) (x : Job) : (s.setJob j x).focus = s.focus := rfl
@[simp] theorem State.setJob_fresh (s : State) (j : Nat) (x : Job) : (s.setJob j x).fresh = s.fresh := rfl
@[simp] theorem State.setJob_nextId (s : State) (j : Nat) (x : Job) : (s.setJob j x).nextId = s.nextId := rfl
@[simp] theorem State.setJob_board (s : State) (j : Nat) (x : Job) : (s.setJob j x).board = s.board := rfl
@[simp] theorem State.setJob_kiln (s : State) (j : Nat) (x : Job) : (s.setJob j x).kiln = s.kiln := rfl
@[simp] theorem State.setJob_queues (s : State) (j : Nat) (x : Job) : (s.setJob j x).queues = s.queues := rfl
@[simp] theorem State.setJob_jobs (s : State) (j : Nat) (x : Job) : (s.setJob j x).jobs = Tab.set s.jobs j x := rfl
@[simp] theorem State.setJob_graphs (s : State) (j : Nat) (x : Job) : (s.setJob j x).graphs = s.graphs := rfl
@[simp] theorem State.setJob_tiles (s : State) (j : Nat) (x : Job) : (s.setJob j x).tiles = s.tiles := rfl
@[simp] theorem State.setJob_blocks (s : State) (j : Nat) (x : Job) : (s.setJob j x).blocks = s.blocks := rfl
@[simp] theorem State.setJob_ports (s : State) (j : Nat) (x : Job) : (s.setJob j x).ports = s.ports := rfl
@[simp] theorem State.setJob_linkPorts (s : State) (j : Nat) (x : Job) : (s.setJob j x).linkPorts = s.linkPorts := rfl
@[simp] theorem State.setJob_hostLinks (s : State) (j : Nat) (x : Job) : (s.setJob j x).hostLinks = s.hostLinks := rfl
@[simp] theorem State.setJob_peers (s : State) (j : Nat) (x : Job) : (s.setJob j x).peers = s.peers := rfl
@[simp] theorem State.setJob_mem (s : State) (j : Nat) (x : Job) : (s.setJob j x).mem = s.mem := rfl
@[simp] theorem State.setJob_inflight (s : State) (j : Nat) (x : Job) : (s.setJob j x).inflight = s.inflight := rfl
@[simp] theorem State.setJob_outreqs (s : State) (j : Nat) (x : Job) : (s.setJob j x).outreqs = s.outreqs := rfl
@[simp] theorem State.setJob_inreqs (s : State) (j : Nat) (x : Job) : (s.setJob j x).inreqs = s.inreqs := rfl
@[simp] theorem State.setJob_tickets (s : State) (j : Nat) (x : Job) : (s.setJob j x).tickets = s.tickets := rfl
@[simp] theorem State.setJob_tlb (s : State) (j : Nat) (x : Job) : (s.setJob j x).tlb = s.tlb := rfl
@[simp] theorem State.setJob_ats (s : State) (j : Nat) (x : Job) : (s.setJob j x).ats = s.ats := rfl
@[simp] theorem State.setJob_flux (s : State) (j : Nat) (x : Job) : (s.setJob j x).flux = s.flux := rfl
@[simp] theorem State.setJob_fq (s : State) (j : Nat) (x : Job) : (s.setJob j x).fq = s.fq := rfl
@[simp] theorem State.setJob_fqs (s : State) (j : Nat) (x : Job) : (s.setJob j x).fqs = s.fqs := rfl
@[simp] theorem State.setJob_out (s : State) (j : Nat) (x : Job) : (s.setJob j x).out = s.out := rfl

/-! `State.setGraph`. -/

@[simp] theorem State.setGraph_agenda (s : State) (j : Nat) (g : Graph) : (s.setGraph j g).agenda = s.agenda := rfl
@[simp] theorem State.setGraph_focus (s : State) (j : Nat) (g : Graph) : (s.setGraph j g).focus = s.focus := rfl
@[simp] theorem State.setGraph_fresh (s : State) (j : Nat) (g : Graph) : (s.setGraph j g).fresh = s.fresh := rfl
@[simp] theorem State.setGraph_nextId (s : State) (j : Nat) (g : Graph) : (s.setGraph j g).nextId = s.nextId := rfl
@[simp] theorem State.setGraph_board (s : State) (j : Nat) (g : Graph) : (s.setGraph j g).board = s.board := rfl
@[simp] theorem State.setGraph_kiln (s : State) (j : Nat) (g : Graph) : (s.setGraph j g).kiln = s.kiln := rfl
@[simp] theorem State.setGraph_queues (s : State) (j : Nat) (g : Graph) : (s.setGraph j g).queues = s.queues := rfl
@[simp] theorem State.setGraph_jobs (s : State) (j : Nat) (g : Graph) : (s.setGraph j g).jobs = s.jobs := rfl
@[simp] theorem State.setGraph_graphs (s : State) (j : Nat) (g : Graph) : (s.setGraph j g).graphs = Tab.set s.graphs j g := rfl
@[simp] theorem State.setGraph_tiles (s : State) (j : Nat) (g : Graph) : (s.setGraph j g).tiles = s.tiles := rfl
@[simp] theorem State.setGraph_blocks (s : State) (j : Nat) (g : Graph) : (s.setGraph j g).blocks = s.blocks := rfl
@[simp] theorem State.setGraph_ports (s : State) (j : Nat) (g : Graph) : (s.setGraph j g).ports = s.ports := rfl
@[simp] theorem State.setGraph_linkPorts (s : State) (j : Nat) (g : Graph) : (s.setGraph j g).linkPorts = s.linkPorts := rfl
@[simp] theorem State.setGraph_hostLinks (s : State) (j : Nat) (g : Graph) : (s.setGraph j g).hostLinks = s.hostLinks := rfl
@[simp] theorem State.setGraph_peers (s : State) (j : Nat) (g : Graph) : (s.setGraph j g).peers = s.peers := rfl
@[simp] theorem State.setGraph_mem (s : State) (j : Nat) (g : Graph) : (s.setGraph j g).mem = s.mem := rfl
@[simp] theorem State.setGraph_inflight (s : State) (j : Nat) (g : Graph) : (s.setGraph j g).inflight = s.inflight := rfl
@[simp] theorem State.setGraph_outreqs (s : State) (j : Nat) (g : Graph) : (s.setGraph j g).outreqs = s.outreqs := rfl
@[simp] theorem State.setGraph_inreqs (s : State) (j : Nat) (g : Graph) : (s.setGraph j g).inreqs = s.inreqs := rfl
@[simp] theorem State.setGraph_tickets (s : State) (j : Nat) (g : Graph) : (s.setGraph j g).tickets = s.tickets := rfl
@[simp] theorem State.setGraph_tlb (s : State) (j : Nat) (g : Graph) : (s.setGraph j g).tlb = s.tlb := rfl
@[simp] theorem State.setGraph_ats (s : State) (j : Nat) (g : Graph) : (s.setGraph j g).ats = s.ats := rfl
@[simp] theorem State.setGraph_flux (s : State) (j : Nat) (g : Graph) : (s.setGraph j g).flux = s.flux := rfl
@[simp] theorem State.setGraph_fq (s : State) (j : Nat) (g : Graph) : (s.setGraph j g).fq = s.fq := rfl
@[simp] theorem State.setGraph_fqs (s : State) (j : Nat) (g : Graph) : (s.setGraph j g).fqs = s.fqs := rfl
@[simp] theorem State.setGraph_out (s : State) (j : Nat) (g : Graph) : (s.setGraph j g).out = s.out := rfl

/-! `State.setActor`. -/

@[simp] theorem State.setActor_agenda (s : State) (j n : Nat) (a : Actor) : (s.setActor j n a).agenda = s.agenda := rfl
@[simp] theorem State.setActor_focus (s : State) (j n : Nat) (a : Actor) : (s.setActor j n a).focus = s.focus := rfl
@[simp] theorem State.setActor_fresh (s : State) (j n : Nat) (a : Actor) : (s.setActor j n a).fresh = s.fresh := rfl
@[simp] theorem State.setActor_nextId (s : State) (j n : Nat) (a : Actor) : (s.setActor j n a).nextId = s.nextId := rfl
@[simp] theorem State.setActor_board (s : State) (j n : Nat) (a : Actor) : (s.setActor j n a).board = s.board := rfl
@[simp] theorem State.setActor_kiln (s : State) (j n : Nat) (a : Actor) : (s.setActor j n a).kiln = s.kiln := rfl
@[simp] theorem State.setActor_queues (s : State) (j n : Nat) (a : Actor) : (s.setActor j n a).queues = s.queues := rfl
@[simp] theorem State.setActor_jobs (s : State) (j n : Nat) (a : Actor) : (s.setActor j n a).jobs = s.jobs := rfl
@[simp] theorem State.setActor_graphs (s : State) (j n : Nat) (a : Actor) : (s.setActor j n a).graphs = Tab.set s.graphs j ((s.graph j).setActor n a) := rfl
@[simp] theorem State.setActor_tiles (s : State) (j n : Nat) (a : Actor) : (s.setActor j n a).tiles = s.tiles := rfl
@[simp] theorem State.setActor_blocks (s : State) (j n : Nat) (a : Actor) : (s.setActor j n a).blocks = s.blocks := rfl
@[simp] theorem State.setActor_ports (s : State) (j n : Nat) (a : Actor) : (s.setActor j n a).ports = s.ports := rfl
@[simp] theorem State.setActor_linkPorts (s : State) (j n : Nat) (a : Actor) : (s.setActor j n a).linkPorts = s.linkPorts := rfl
@[simp] theorem State.setActor_hostLinks (s : State) (j n : Nat) (a : Actor) : (s.setActor j n a).hostLinks = s.hostLinks := rfl
@[simp] theorem State.setActor_peers (s : State) (j n : Nat) (a : Actor) : (s.setActor j n a).peers = s.peers := rfl
@[simp] theorem State.setActor_mem (s : State) (j n : Nat) (a : Actor) : (s.setActor j n a).mem = s.mem := rfl
@[simp] theorem State.setActor_inflight (s : State) (j n : Nat) (a : Actor) : (s.setActor j n a).inflight = s.inflight := rfl
@[simp] theorem State.setActor_outreqs (s : State) (j n : Nat) (a : Actor) : (s.setActor j n a).outreqs = s.outreqs := rfl
@[simp] theorem State.setActor_inreqs (s : State) (j n : Nat) (a : Actor) : (s.setActor j n a).inreqs = s.inreqs := rfl
@[simp] theorem State.setActor_tickets (s : State) (j n : Nat) (a : Actor) : (s.setActor j n a).tickets = s.tickets := rfl
@[simp] theorem State.setActor_tlb (s : State) (j n : Nat) (a : Actor) : (s.setActor j n a).tlb = s.tlb := rfl
@[simp] theorem State.setActor_ats (s : State) (j n : Nat) (a : Actor) : (s.setActor j n a).ats = s.ats := rfl
@[simp] theorem State.setActor_flux (s : State) (j n : Nat) (a : Actor) : (s.setActor j n a).flux = s.flux := rfl
@[simp] theorem State.setActor_fq (s : State) (j n : Nat) (a : Actor) : (s.setActor j n a).fq = s.fq := rfl
@[simp] theorem State.setActor_fqs (s : State) (j n : Nat) (a : Actor) : (s.setActor j n a).fqs = s.fqs := rfl
@[simp] theorem State.setActor_out (s : State) (j n : Nat) (a : Actor) : (s.setActor j n a).out = s.out := rfl

/-! `State.setHostLink`. -/

@[simp] theorem State.setHostLink_agenda (s : State) (n : Nat) (x : HostLink) : (s.setHostLink n x).agenda = s.agenda := rfl
@[simp] theorem State.setHostLink_focus (s : State) (n : Nat) (x : HostLink) : (s.setHostLink n x).focus = s.focus := rfl
@[simp] theorem State.setHostLink_fresh (s : State) (n : Nat) (x : HostLink) : (s.setHostLink n x).fresh = s.fresh := rfl
@[simp] theorem State.setHostLink_nextId (s : State) (n : Nat) (x : HostLink) : (s.setHostLink n x).nextId = s.nextId := rfl
@[simp] theorem State.setHostLink_board (s : State) (n : Nat) (x : HostLink) : (s.setHostLink n x).board = s.board := rfl
@[simp] theorem State.setHostLink_kiln (s : State) (n : Nat) (x : HostLink) : (s.setHostLink n x).kiln = s.kiln := rfl
@[simp] theorem State.setHostLink_queues (s : State) (n : Nat) (x : HostLink) : (s.setHostLink n x).queues = s.queues := rfl
@[simp] theorem State.setHostLink_jobs (s : State) (n : Nat) (x : HostLink) : (s.setHostLink n x).jobs = s.jobs := rfl
@[simp] theorem State.setHostLink_graphs (s : State) (n : Nat) (x : HostLink) : (s.setHostLink n x).graphs = s.graphs := rfl
@[simp] theorem State.setHostLink_tiles (s : State) (n : Nat) (x : HostLink) : (s.setHostLink n x).tiles = s.tiles := rfl
@[simp] theorem State.setHostLink_blocks (s : State) (n : Nat) (x : HostLink) : (s.setHostLink n x).blocks = s.blocks := rfl
@[simp] theorem State.setHostLink_ports (s : State) (n : Nat) (x : HostLink) : (s.setHostLink n x).ports = s.ports := rfl
@[simp] theorem State.setHostLink_linkPorts (s : State) (n : Nat) (x : HostLink) : (s.setHostLink n x).linkPorts = s.linkPorts := rfl
@[simp] theorem State.setHostLink_hostLinks (s : State) (n : Nat) (x : HostLink) : (s.setHostLink n x).hostLinks = Tab.set s.hostLinks n x := rfl
@[simp] theorem State.setHostLink_peers (s : State) (n : Nat) (x : HostLink) : (s.setHostLink n x).peers = s.peers := rfl
@[simp] theorem State.setHostLink_mem (s : State) (n : Nat) (x : HostLink) : (s.setHostLink n x).mem = s.mem := rfl
@[simp] theorem State.setHostLink_inflight (s : State) (n : Nat) (x : HostLink) : (s.setHostLink n x).inflight = s.inflight := rfl
@[simp] theorem State.setHostLink_outreqs (s : State) (n : Nat) (x : HostLink) : (s.setHostLink n x).outreqs = s.outreqs := rfl
@[simp] theorem State.setHostLink_inreqs (s : State) (n : Nat) (x : HostLink) : (s.setHostLink n x).inreqs = s.inreqs := rfl
@[simp] theorem State.setHostLink_tickets (s : State) (n : Nat) (x : HostLink) : (s.setHostLink n x).tickets = s.tickets := rfl
@[simp] theorem State.setHostLink_tlb (s : State) (n : Nat) (x : HostLink) : (s.setHostLink n x).tlb = s.tlb := rfl
@[simp] theorem State.setHostLink_ats (s : State) (n : Nat) (x : HostLink) : (s.setHostLink n x).ats = s.ats := rfl
@[simp] theorem State.setHostLink_flux (s : State) (n : Nat) (x : HostLink) : (s.setHostLink n x).flux = s.flux := rfl
@[simp] theorem State.setHostLink_fq (s : State) (n : Nat) (x : HostLink) : (s.setHostLink n x).fq = s.fq := rfl
@[simp] theorem State.setHostLink_fqs (s : State) (n : Nat) (x : HostLink) : (s.setHostLink n x).fqs = s.fqs := rfl
@[simp] theorem State.setHostLink_out (s : State) (n : Nat) (x : HostLink) : (s.setHostLink n x).out = s.out := rfl

/-! `State.setPeer`. -/

@[simp] theorem State.setPeer_agenda (s : State) (q : Nat) (x : Peer) : (s.setPeer q x).agenda = s.agenda := rfl
@[simp] theorem State.setPeer_focus (s : State) (q : Nat) (x : Peer) : (s.setPeer q x).focus = s.focus := rfl
@[simp] theorem State.setPeer_fresh (s : State) (q : Nat) (x : Peer) : (s.setPeer q x).fresh = s.fresh := rfl
@[simp] theorem State.setPeer_nextId (s : State) (q : Nat) (x : Peer) : (s.setPeer q x).nextId = s.nextId := rfl
@[simp] theorem State.setPeer_board (s : State) (q : Nat) (x : Peer) : (s.setPeer q x).board = s.board := rfl
@[simp] theorem State.setPeer_kiln (s : State) (q : Nat) (x : Peer) : (s.setPeer q x).kiln = s.kiln := rfl
@[simp] theorem State.setPeer_queues (s : State) (q : Nat) (x : Peer) : (s.setPeer q x).queues = s.queues := rfl
@[simp] theorem State.setPeer_jobs (s : State) (q : Nat) (x : Peer) : (s.setPeer q x).jobs = s.jobs := rfl
@[simp] theorem State.setPeer_graphs (s : State) (q : Nat) (x : Peer) : (s.setPeer q x).graphs = s.graphs := rfl
@[simp] theorem State.setPeer_tiles (s : State) (q : Nat) (x : Peer) : (s.setPeer q x).tiles = s.tiles := rfl
@[simp] theorem State.setPeer_blocks (s : State) (q : Nat) (x : Peer) : (s.setPeer q x).blocks = s.blocks := rfl
@[simp] theorem State.setPeer_ports (s : State) (q : Nat) (x : Peer) : (s.setPeer q x).ports = s.ports := rfl
@[simp] theorem State.setPeer_linkPorts (s : State) (q : Nat) (x : Peer) : (s.setPeer q x).linkPorts = s.linkPorts := rfl
@[simp] theorem State.setPeer_hostLinks (s : State) (q : Nat) (x : Peer) : (s.setPeer q x).hostLinks = s.hostLinks := rfl
@[simp] theorem State.setPeer_peers (s : State) (q : Nat) (x : Peer) : (s.setPeer q x).peers = Tab.set s.peers q x := rfl
@[simp] theorem State.setPeer_mem (s : State) (q : Nat) (x : Peer) : (s.setPeer q x).mem = s.mem := rfl
@[simp] theorem State.setPeer_inflight (s : State) (q : Nat) (x : Peer) : (s.setPeer q x).inflight = s.inflight := rfl
@[simp] theorem State.setPeer_outreqs (s : State) (q : Nat) (x : Peer) : (s.setPeer q x).outreqs = s.outreqs := rfl
@[simp] theorem State.setPeer_inreqs (s : State) (q : Nat) (x : Peer) : (s.setPeer q x).inreqs = s.inreqs := rfl
@[simp] theorem State.setPeer_tickets (s : State) (q : Nat) (x : Peer) : (s.setPeer q x).tickets = s.tickets := rfl
@[simp] theorem State.setPeer_tlb (s : State) (q : Nat) (x : Peer) : (s.setPeer q x).tlb = s.tlb := rfl
@[simp] theorem State.setPeer_ats (s : State) (q : Nat) (x : Peer) : (s.setPeer q x).ats = s.ats := rfl
@[simp] theorem State.setPeer_flux (s : State) (q : Nat) (x : Peer) : (s.setPeer q x).flux = s.flux := rfl
@[simp] theorem State.setPeer_fq (s : State) (q : Nat) (x : Peer) : (s.setPeer q x).fq = s.fq := rfl
@[simp] theorem State.setPeer_fqs (s : State) (q : Nat) (x : Peer) : (s.setPeer q x).fqs = s.fqs := rfl
@[simp] theorem State.setPeer_out (s : State) (q : Nat) (x : Peer) : (s.setPeer q x).out = s.out := rfl

/-! `State.setLinkPort`. -/

@[simp] theorem State.setLinkPort_agenda (s : State) (n : Nat) (x : LinkPort) : (s.setLinkPort n x).agenda = s.agenda := rfl
@[simp] theorem State.setLinkPort_focus (s : State) (n : Nat) (x : LinkPort) : (s.setLinkPort n x).focus = s.focus := rfl
@[simp] theorem State.setLinkPort_fresh (s : State) (n : Nat) (x : LinkPort) : (s.setLinkPort n x).fresh = s.fresh := rfl
@[simp] theorem State.setLinkPort_nextId (s : State) (n : Nat) (x : LinkPort) : (s.setLinkPort n x).nextId = s.nextId := rfl
@[simp] theorem State.setLinkPort_board (s : State) (n : Nat) (x : LinkPort) : (s.setLinkPort n x).board = s.board := rfl
@[simp] theorem State.setLinkPort_kiln (s : State) (n : Nat) (x : LinkPort) : (s.setLinkPort n x).kiln = s.kiln := rfl
@[simp] theorem State.setLinkPort_queues (s : State) (n : Nat) (x : LinkPort) : (s.setLinkPort n x).queues = s.queues := rfl
@[simp] theorem State.setLinkPort_jobs (s : State) (n : Nat) (x : LinkPort) : (s.setLinkPort n x).jobs = s.jobs := rfl
@[simp] theorem State.setLinkPort_graphs (s : State) (n : Nat) (x : LinkPort) : (s.setLinkPort n x).graphs = s.graphs := rfl
@[simp] theorem State.setLinkPort_tiles (s : State) (n : Nat) (x : LinkPort) : (s.setLinkPort n x).tiles = s.tiles := rfl
@[simp] theorem State.setLinkPort_blocks (s : State) (n : Nat) (x : LinkPort) : (s.setLinkPort n x).blocks = s.blocks := rfl
@[simp] theorem State.setLinkPort_ports (s : State) (n : Nat) (x : LinkPort) : (s.setLinkPort n x).ports = s.ports := rfl
@[simp] theorem State.setLinkPort_linkPorts (s : State) (n : Nat) (x : LinkPort) : (s.setLinkPort n x).linkPorts = Tab.set s.linkPorts n x := rfl
@[simp] theorem State.setLinkPort_hostLinks (s : State) (n : Nat) (x : LinkPort) : (s.setLinkPort n x).hostLinks = s.hostLinks := rfl
@[simp] theorem State.setLinkPort_peers (s : State) (n : Nat) (x : LinkPort) : (s.setLinkPort n x).peers = s.peers := rfl
@[simp] theorem State.setLinkPort_mem (s : State) (n : Nat) (x : LinkPort) : (s.setLinkPort n x).mem = s.mem := rfl
@[simp] theorem State.setLinkPort_inflight (s : State) (n : Nat) (x : LinkPort) : (s.setLinkPort n x).inflight = s.inflight := rfl
@[simp] theorem State.setLinkPort_outreqs (s : State) (n : Nat) (x : LinkPort) : (s.setLinkPort n x).outreqs = s.outreqs := rfl
@[simp] theorem State.setLinkPort_inreqs (s : State) (n : Nat) (x : LinkPort) : (s.setLinkPort n x).inreqs = s.inreqs := rfl
@[simp] theorem State.setLinkPort_tickets (s : State) (n : Nat) (x : LinkPort) : (s.setLinkPort n x).tickets = s.tickets := rfl
@[simp] theorem State.setLinkPort_tlb (s : State) (n : Nat) (x : LinkPort) : (s.setLinkPort n x).tlb = s.tlb := rfl
@[simp] theorem State.setLinkPort_ats (s : State) (n : Nat) (x : LinkPort) : (s.setLinkPort n x).ats = s.ats := rfl
@[simp] theorem State.setLinkPort_flux (s : State) (n : Nat) (x : LinkPort) : (s.setLinkPort n x).flux = s.flux := rfl
@[simp] theorem State.setLinkPort_fq (s : State) (n : Nat) (x : LinkPort) : (s.setLinkPort n x).fq = s.fq := rfl
@[simp] theorem State.setLinkPort_fqs (s : State) (n : Nat) (x : LinkPort) : (s.setLinkPort n x).fqs = s.fqs := rfl
@[simp] theorem State.setLinkPort_out (s : State) (n : Nat) (x : LinkPort) : (s.setLinkPort n x).out = s.out := rfl

/-! `State.setFiring`. -/

@[simp] theorem State.setFiring_agenda (s : State) (t : Nat) (f : Firing) : (s.setFiring t f).agenda = s.agenda := rfl
@[simp] theorem State.setFiring_focus (s : State) (t : Nat) (f : Firing) : (s.setFiring t f).focus = s.focus := rfl
@[simp] theorem State.setFiring_fresh (s : State) (t : Nat) (f : Firing) : (s.setFiring t f).fresh = s.fresh := rfl
@[simp] theorem State.setFiring_nextId (s : State) (t : Nat) (f : Firing) : (s.setFiring t f).nextId = s.nextId := rfl
@[simp] theorem State.setFiring_board (s : State) (t : Nat) (f : Firing) : (s.setFiring t f).board = s.board := rfl
@[simp] theorem State.setFiring_kiln (s : State) (t : Nat) (f : Firing) : (s.setFiring t f).kiln = s.kiln := rfl
@[simp] theorem State.setFiring_queues (s : State) (t : Nat) (f : Firing) : (s.setFiring t f).queues = s.queues := rfl
@[simp] theorem State.setFiring_jobs (s : State) (t : Nat) (f : Firing) : (s.setFiring t f).jobs = s.jobs := rfl
@[simp] theorem State.setFiring_graphs (s : State) (t : Nat) (f : Firing) : (s.setFiring t f).graphs = s.graphs := rfl
@[simp] theorem State.setFiring_tiles (s : State) (t : Nat) (f : Firing) : (s.setFiring t f).tiles = Tab.set s.tiles t { s.tile t with firing := some f } := rfl
@[simp] theorem State.setFiring_blocks (s : State) (t : Nat) (f : Firing) : (s.setFiring t f).blocks = s.blocks := rfl
@[simp] theorem State.setFiring_ports (s : State) (t : Nat) (f : Firing) : (s.setFiring t f).ports = s.ports := rfl
@[simp] theorem State.setFiring_linkPorts (s : State) (t : Nat) (f : Firing) : (s.setFiring t f).linkPorts = s.linkPorts := rfl
@[simp] theorem State.setFiring_hostLinks (s : State) (t : Nat) (f : Firing) : (s.setFiring t f).hostLinks = s.hostLinks := rfl
@[simp] theorem State.setFiring_peers (s : State) (t : Nat) (f : Firing) : (s.setFiring t f).peers = s.peers := rfl
@[simp] theorem State.setFiring_mem (s : State) (t : Nat) (f : Firing) : (s.setFiring t f).mem = s.mem := rfl
@[simp] theorem State.setFiring_inflight (s : State) (t : Nat) (f : Firing) : (s.setFiring t f).inflight = s.inflight := rfl
@[simp] theorem State.setFiring_outreqs (s : State) (t : Nat) (f : Firing) : (s.setFiring t f).outreqs = s.outreqs := rfl
@[simp] theorem State.setFiring_inreqs (s : State) (t : Nat) (f : Firing) : (s.setFiring t f).inreqs = s.inreqs := rfl
@[simp] theorem State.setFiring_tickets (s : State) (t : Nat) (f : Firing) : (s.setFiring t f).tickets = s.tickets := rfl
@[simp] theorem State.setFiring_tlb (s : State) (t : Nat) (f : Firing) : (s.setFiring t f).tlb = s.tlb := rfl
@[simp] theorem State.setFiring_ats (s : State) (t : Nat) (f : Firing) : (s.setFiring t f).ats = s.ats := rfl
@[simp] theorem State.setFiring_flux (s : State) (t : Nat) (f : Firing) : (s.setFiring t f).flux = s.flux := rfl
@[simp] theorem State.setFiring_fq (s : State) (t : Nat) (f : Firing) : (s.setFiring t f).fq = s.fq := rfl
@[simp] theorem State.setFiring_fqs (s : State) (t : Nat) (f : Firing) : (s.setFiring t f).fqs = s.fqs := rfl
@[simp] theorem State.setFiring_out (s : State) (t : Nat) (f : Firing) : (s.setFiring t f).out = s.out := rfl

/-! `State.setEngine`. -/

@[simp] theorem State.setEngine_agenda (s : State) (p : Nat) (e : Engine) : (s.setEngine p e).agenda = s.agenda := rfl
@[simp] theorem State.setEngine_focus (s : State) (p : Nat) (e : Engine) : (s.setEngine p e).focus = s.focus := rfl
@[simp] theorem State.setEngine_fresh (s : State) (p : Nat) (e : Engine) : (s.setEngine p e).fresh = s.fresh := rfl
@[simp] theorem State.setEngine_nextId (s : State) (p : Nat) (e : Engine) : (s.setEngine p e).nextId = s.nextId := rfl
@[simp] theorem State.setEngine_board (s : State) (p : Nat) (e : Engine) : (s.setEngine p e).board = s.board := rfl
@[simp] theorem State.setEngine_kiln (s : State) (p : Nat) (e : Engine) : (s.setEngine p e).kiln = s.kiln := rfl
@[simp] theorem State.setEngine_queues (s : State) (p : Nat) (e : Engine) : (s.setEngine p e).queues = s.queues := rfl
@[simp] theorem State.setEngine_jobs (s : State) (p : Nat) (e : Engine) : (s.setEngine p e).jobs = s.jobs := rfl
@[simp] theorem State.setEngine_graphs (s : State) (p : Nat) (e : Engine) : (s.setEngine p e).graphs = s.graphs := rfl
@[simp] theorem State.setEngine_tiles (s : State) (p : Nat) (e : Engine) : (s.setEngine p e).tiles = s.tiles := rfl
@[simp] theorem State.setEngine_blocks (s : State) (p : Nat) (e : Engine) : (s.setEngine p e).blocks = s.blocks := rfl
@[simp] theorem State.setEngine_ports (s : State) (p : Nat) (e : Engine) : (s.setEngine p e).ports = Tab.set s.ports p { s.port p with eng := e } := rfl
@[simp] theorem State.setEngine_linkPorts (s : State) (p : Nat) (e : Engine) : (s.setEngine p e).linkPorts = s.linkPorts := rfl
@[simp] theorem State.setEngine_hostLinks (s : State) (p : Nat) (e : Engine) : (s.setEngine p e).hostLinks = s.hostLinks := rfl
@[simp] theorem State.setEngine_peers (s : State) (p : Nat) (e : Engine) : (s.setEngine p e).peers = s.peers := rfl
@[simp] theorem State.setEngine_mem (s : State) (p : Nat) (e : Engine) : (s.setEngine p e).mem = s.mem := rfl
@[simp] theorem State.setEngine_inflight (s : State) (p : Nat) (e : Engine) : (s.setEngine p e).inflight = s.inflight := rfl
@[simp] theorem State.setEngine_outreqs (s : State) (p : Nat) (e : Engine) : (s.setEngine p e).outreqs = s.outreqs := rfl
@[simp] theorem State.setEngine_inreqs (s : State) (p : Nat) (e : Engine) : (s.setEngine p e).inreqs = s.inreqs := rfl
@[simp] theorem State.setEngine_tickets (s : State) (p : Nat) (e : Engine) : (s.setEngine p e).tickets = s.tickets := rfl
@[simp] theorem State.setEngine_tlb (s : State) (p : Nat) (e : Engine) : (s.setEngine p e).tlb = s.tlb := rfl
@[simp] theorem State.setEngine_ats (s : State) (p : Nat) (e : Engine) : (s.setEngine p e).ats = s.ats := rfl
@[simp] theorem State.setEngine_flux (s : State) (p : Nat) (e : Engine) : (s.setEngine p e).flux = s.flux := rfl
@[simp] theorem State.setEngine_fq (s : State) (p : Nat) (e : Engine) : (s.setEngine p e).fq = s.fq := rfl
@[simp] theorem State.setEngine_fqs (s : State) (p : Nat) (e : Engine) : (s.setEngine p e).fqs = s.fqs := rfl
@[simp] theorem State.setEngine_out (s : State) (p : Nat) (e : Engine) : (s.setEngine p e).out = s.out := rfl

/-! `State.stepFiring`. -/

@[simp] theorem State.stepFiring_agenda (s : State) (t : Nat) (f : Firing) (r : Regs) : (s.stepFiring t f r).agenda = s.agenda := rfl
@[simp] theorem State.stepFiring_focus (s : State) (t : Nat) (f : Firing) (r : Regs) : (s.stepFiring t f r).focus = s.focus := rfl
@[simp] theorem State.stepFiring_fresh (s : State) (t : Nat) (f : Firing) (r : Regs) : (s.stepFiring t f r).fresh = s.fresh := rfl
@[simp] theorem State.stepFiring_nextId (s : State) (t : Nat) (f : Firing) (r : Regs) : (s.stepFiring t f r).nextId = s.nextId := rfl
@[simp] theorem State.stepFiring_board (s : State) (t : Nat) (f : Firing) (r : Regs) : (s.stepFiring t f r).board = s.board := rfl
@[simp] theorem State.stepFiring_kiln (s : State) (t : Nat) (f : Firing) (r : Regs) : (s.stepFiring t f r).kiln = s.kiln := rfl
@[simp] theorem State.stepFiring_queues (s : State) (t : Nat) (f : Firing) (r : Regs) : (s.stepFiring t f r).queues = s.queues := rfl
@[simp] theorem State.stepFiring_jobs (s : State) (t : Nat) (f : Firing) (r : Regs) : (s.stepFiring t f r).jobs = s.jobs := rfl
@[simp] theorem State.stepFiring_graphs (s : State) (t : Nat) (f : Firing) (r : Regs) : (s.stepFiring t f r).graphs = s.graphs := rfl
@[simp] theorem State.stepFiring_tiles (s : State) (t : Nat) (f : Firing) (r : Regs) : (s.stepFiring t f r).tiles = Tab.set s.tiles t { s.tile t with firing := some { f with regs := r.advance, icount := f.icount + 1 } } := rfl
@[simp] theorem State.stepFiring_blocks (s : State) (t : Nat) (f : Firing) (r : Regs) : (s.stepFiring t f r).blocks = s.blocks := rfl
@[simp] theorem State.stepFiring_ports (s : State) (t : Nat) (f : Firing) (r : Regs) : (s.stepFiring t f r).ports = s.ports := rfl
@[simp] theorem State.stepFiring_linkPorts (s : State) (t : Nat) (f : Firing) (r : Regs) : (s.stepFiring t f r).linkPorts = s.linkPorts := rfl
@[simp] theorem State.stepFiring_hostLinks (s : State) (t : Nat) (f : Firing) (r : Regs) : (s.stepFiring t f r).hostLinks = s.hostLinks := rfl
@[simp] theorem State.stepFiring_peers (s : State) (t : Nat) (f : Firing) (r : Regs) : (s.stepFiring t f r).peers = s.peers := rfl
@[simp] theorem State.stepFiring_mem (s : State) (t : Nat) (f : Firing) (r : Regs) : (s.stepFiring t f r).mem = s.mem := rfl
@[simp] theorem State.stepFiring_inflight (s : State) (t : Nat) (f : Firing) (r : Regs) : (s.stepFiring t f r).inflight = s.inflight := rfl
@[simp] theorem State.stepFiring_outreqs (s : State) (t : Nat) (f : Firing) (r : Regs) : (s.stepFiring t f r).outreqs = s.outreqs := rfl
@[simp] theorem State.stepFiring_inreqs (s : State) (t : Nat) (f : Firing) (r : Regs) : (s.stepFiring t f r).inreqs = s.inreqs := rfl
@[simp] theorem State.stepFiring_tickets (s : State) (t : Nat) (f : Firing) (r : Regs) : (s.stepFiring t f r).tickets = s.tickets := rfl
@[simp] theorem State.stepFiring_tlb (s : State) (t : Nat) (f : Firing) (r : Regs) : (s.stepFiring t f r).tlb = s.tlb := rfl
@[simp] theorem State.stepFiring_ats (s : State) (t : Nat) (f : Firing) (r : Regs) : (s.stepFiring t f r).ats = s.ats := rfl
@[simp] theorem State.stepFiring_flux (s : State) (t : Nat) (f : Firing) (r : Regs) : (s.stepFiring t f r).flux = s.flux := rfl
@[simp] theorem State.stepFiring_fq (s : State) (t : Nat) (f : Firing) (r : Regs) : (s.stepFiring t f r).fq = s.fq := rfl
@[simp] theorem State.stepFiring_fqs (s : State) (t : Nat) (f : Firing) (r : Regs) : (s.stepFiring t f r).fqs = s.fqs := rfl
@[simp] theorem State.stepFiring_out (s : State) (t : Nat) (f : Firing) (r : Regs) : (s.stepFiring t f r).out = s.out := rfl

/-! `State.stepEngine`. -/

@[simp] theorem State.stepEngine_agenda (s : State) (p : Nat) (r : Regs) : (s.stepEngine p r).agenda = s.agenda := rfl
@[simp] theorem State.stepEngine_focus (s : State) (p : Nat) (r : Regs) : (s.stepEngine p r).focus = s.focus := rfl
@[simp] theorem State.stepEngine_fresh (s : State) (p : Nat) (r : Regs) : (s.stepEngine p r).fresh = s.fresh := rfl
@[simp] theorem State.stepEngine_nextId (s : State) (p : Nat) (r : Regs) : (s.stepEngine p r).nextId = s.nextId := rfl
@[simp] theorem State.stepEngine_board (s : State) (p : Nat) (r : Regs) : (s.stepEngine p r).board = s.board := rfl
@[simp] theorem State.stepEngine_kiln (s : State) (p : Nat) (r : Regs) : (s.stepEngine p r).kiln = s.kiln := rfl
@[simp] theorem State.stepEngine_queues (s : State) (p : Nat) (r : Regs) : (s.stepEngine p r).queues = s.queues := rfl
@[simp] theorem State.stepEngine_jobs (s : State) (p : Nat) (r : Regs) : (s.stepEngine p r).jobs = s.jobs := rfl
@[simp] theorem State.stepEngine_graphs (s : State) (p : Nat) (r : Regs) : (s.stepEngine p r).graphs = s.graphs := rfl
@[simp] theorem State.stepEngine_tiles (s : State) (p : Nat) (r : Regs) : (s.stepEngine p r).tiles = s.tiles := rfl
@[simp] theorem State.stepEngine_blocks (s : State) (p : Nat) (r : Regs) : (s.stepEngine p r).blocks = s.blocks := rfl
@[simp] theorem State.stepEngine_ports (s : State) (p : Nat) (r : Regs) : (s.stepEngine p r).ports = Tab.set s.ports p { s.port p with eng := { (s.port p).eng with regs := r.advance } } := rfl
@[simp] theorem State.stepEngine_linkPorts (s : State) (p : Nat) (r : Regs) : (s.stepEngine p r).linkPorts = s.linkPorts := rfl
@[simp] theorem State.stepEngine_hostLinks (s : State) (p : Nat) (r : Regs) : (s.stepEngine p r).hostLinks = s.hostLinks := rfl
@[simp] theorem State.stepEngine_peers (s : State) (p : Nat) (r : Regs) : (s.stepEngine p r).peers = s.peers := rfl
@[simp] theorem State.stepEngine_mem (s : State) (p : Nat) (r : Regs) : (s.stepEngine p r).mem = s.mem := rfl
@[simp] theorem State.stepEngine_inflight (s : State) (p : Nat) (r : Regs) : (s.stepEngine p r).inflight = s.inflight := rfl
@[simp] theorem State.stepEngine_outreqs (s : State) (p : Nat) (r : Regs) : (s.stepEngine p r).outreqs = s.outreqs := rfl
@[simp] theorem State.stepEngine_inreqs (s : State) (p : Nat) (r : Regs) : (s.stepEngine p r).inreqs = s.inreqs := rfl
@[simp] theorem State.stepEngine_tickets (s : State) (p : Nat) (r : Regs) : (s.stepEngine p r).tickets = s.tickets := rfl
@[simp] theorem State.stepEngine_tlb (s : State) (p : Nat) (r : Regs) : (s.stepEngine p r).tlb = s.tlb := rfl
@[simp] theorem State.stepEngine_ats (s : State) (p : Nat) (r : Regs) : (s.stepEngine p r).ats = s.ats := rfl
@[simp] theorem State.stepEngine_flux (s : State) (p : Nat) (r : Regs) : (s.stepEngine p r).flux = s.flux := rfl
@[simp] theorem State.stepEngine_fq (s : State) (p : Nat) (r : Regs) : (s.stepEngine p r).fq = s.fq := rfl
@[simp] theorem State.stepEngine_fqs (s : State) (p : Nat) (r : Regs) : (s.stepEngine p r).fqs = s.fqs := rfl
@[simp] theorem State.stepEngine_out (s : State) (p : Nat) (r : Regs) : (s.stepEngine p r).out = s.out := rfl

/-! `State.postCause`. -/

@[simp] theorem State.postCause_agenda (s : State) (t j : Nat) (c : Cause) : (s.postCause t j c).agenda = s.agenda := rfl
@[simp] theorem State.postCause_focus (s : State) (t j : Nat) (c : Cause) : (s.postCause t j c).focus = s.focus := rfl
@[simp] theorem State.postCause_fresh (s : State) (t j : Nat) (c : Cause) : (s.postCause t j c).fresh = s.fresh := rfl
@[simp] theorem State.postCause_nextId (s : State) (t j : Nat) (c : Cause) : (s.postCause t j c).nextId = s.nextId := rfl
@[simp] theorem State.postCause_board (s : State) (t j : Nat) (c : Cause) : (s.postCause t j c).board = s.board := rfl
@[simp] theorem State.postCause_kiln (s : State) (t j : Nat) (c : Cause) : (s.postCause t j c).kiln = s.kiln := rfl
@[simp] theorem State.postCause_queues (s : State) (t j : Nat) (c : Cause) : (s.postCause t j c).queues = s.queues := rfl
@[simp] theorem State.postCause_jobs (s : State) (t j : Nat) (c : Cause) : (s.postCause t j c).jobs = s.jobs := rfl
@[simp] theorem State.postCause_graphs (s : State) (t j : Nat) (c : Cause) : (s.postCause t j c).graphs = s.graphs := rfl
@[simp] theorem State.postCause_tiles (s : State) (t j : Nat) (c : Cause) : (s.postCause t j c).tiles = Tab.set s.tiles t { s.tile t with causes := (s.tile t).causes ++ [(j, c)] } := rfl
@[simp] theorem State.postCause_blocks (s : State) (t j : Nat) (c : Cause) : (s.postCause t j c).blocks = s.blocks := rfl
@[simp] theorem State.postCause_ports (s : State) (t j : Nat) (c : Cause) : (s.postCause t j c).ports = s.ports := rfl
@[simp] theorem State.postCause_linkPorts (s : State) (t j : Nat) (c : Cause) : (s.postCause t j c).linkPorts = s.linkPorts := rfl
@[simp] theorem State.postCause_hostLinks (s : State) (t j : Nat) (c : Cause) : (s.postCause t j c).hostLinks = s.hostLinks := rfl
@[simp] theorem State.postCause_peers (s : State) (t j : Nat) (c : Cause) : (s.postCause t j c).peers = s.peers := rfl
@[simp] theorem State.postCause_mem (s : State) (t j : Nat) (c : Cause) : (s.postCause t j c).mem = s.mem := rfl
@[simp] theorem State.postCause_inflight (s : State) (t j : Nat) (c : Cause) : (s.postCause t j c).inflight = s.inflight := rfl
@[simp] theorem State.postCause_outreqs (s : State) (t j : Nat) (c : Cause) : (s.postCause t j c).outreqs = s.outreqs := rfl
@[simp] theorem State.postCause_inreqs (s : State) (t j : Nat) (c : Cause) : (s.postCause t j c).inreqs = s.inreqs := rfl
@[simp] theorem State.postCause_tickets (s : State) (t j : Nat) (c : Cause) : (s.postCause t j c).tickets = s.tickets := rfl
@[simp] theorem State.postCause_tlb (s : State) (t j : Nat) (c : Cause) : (s.postCause t j c).tlb = s.tlb := rfl
@[simp] theorem State.postCause_ats (s : State) (t j : Nat) (c : Cause) : (s.postCause t j c).ats = s.ats := rfl
@[simp] theorem State.postCause_flux (s : State) (t j : Nat) (c : Cause) : (s.postCause t j c).flux = s.flux := rfl
@[simp] theorem State.postCause_fq (s : State) (t j : Nat) (c : Cause) : (s.postCause t j c).fq = s.fq := rfl
@[simp] theorem State.postCause_fqs (s : State) (t j : Nat) (c : Cause) : (s.postCause t j c).fqs = s.fqs := rfl
@[simp] theorem State.postCause_out (s : State) (t j : Nat) (c : Cause) : (s.postCause t j c).out = s.out := rfl

/-! `State.emit`. -/

@[simp] theorem State.emit_agenda (s : State) (o : Out) : (s.emit o).agenda = s.agenda := rfl
@[simp] theorem State.emit_focus (s : State) (o : Out) : (s.emit o).focus = s.focus := rfl
@[simp] theorem State.emit_fresh (s : State) (o : Out) : (s.emit o).fresh = s.fresh := rfl
@[simp] theorem State.emit_nextId (s : State) (o : Out) : (s.emit o).nextId = s.nextId := rfl
@[simp] theorem State.emit_board (s : State) (o : Out) : (s.emit o).board = s.board := rfl
@[simp] theorem State.emit_kiln (s : State) (o : Out) : (s.emit o).kiln = s.kiln := rfl
@[simp] theorem State.emit_queues (s : State) (o : Out) : (s.emit o).queues = s.queues := rfl
@[simp] theorem State.emit_jobs (s : State) (o : Out) : (s.emit o).jobs = s.jobs := rfl
@[simp] theorem State.emit_graphs (s : State) (o : Out) : (s.emit o).graphs = s.graphs := rfl
@[simp] theorem State.emit_tiles (s : State) (o : Out) : (s.emit o).tiles = s.tiles := rfl
@[simp] theorem State.emit_blocks (s : State) (o : Out) : (s.emit o).blocks = s.blocks := rfl
@[simp] theorem State.emit_ports (s : State) (o : Out) : (s.emit o).ports = s.ports := rfl
@[simp] theorem State.emit_linkPorts (s : State) (o : Out) : (s.emit o).linkPorts = s.linkPorts := rfl
@[simp] theorem State.emit_hostLinks (s : State) (o : Out) : (s.emit o).hostLinks = s.hostLinks := rfl
@[simp] theorem State.emit_peers (s : State) (o : Out) : (s.emit o).peers = s.peers := rfl
@[simp] theorem State.emit_mem (s : State) (o : Out) : (s.emit o).mem = s.mem := rfl
@[simp] theorem State.emit_inflight (s : State) (o : Out) : (s.emit o).inflight = s.inflight := rfl
@[simp] theorem State.emit_outreqs (s : State) (o : Out) : (s.emit o).outreqs = s.outreqs := rfl
@[simp] theorem State.emit_inreqs (s : State) (o : Out) : (s.emit o).inreqs = s.inreqs := rfl
@[simp] theorem State.emit_tickets (s : State) (o : Out) : (s.emit o).tickets = s.tickets := rfl
@[simp] theorem State.emit_tlb (s : State) (o : Out) : (s.emit o).tlb = s.tlb := rfl
@[simp] theorem State.emit_ats (s : State) (o : Out) : (s.emit o).ats = s.ats := rfl
@[simp] theorem State.emit_flux (s : State) (o : Out) : (s.emit o).flux = s.flux := rfl
@[simp] theorem State.emit_fq (s : State) (o : Out) : (s.emit o).fq = s.fq := rfl
@[simp] theorem State.emit_fqs (s : State) (o : Out) : (s.emit o).fqs = s.fqs := rfl
@[simp] theorem State.emit_out (s : State) (o : Out) : (s.emit o).out = s.out ++ [o] := rfl

/-! `State.freeLaunches`. -/

@[simp] theorem State.freeLaunches_agenda (s : State) (n : Nat) : (s.freeLaunches n).agenda = s.agenda := rfl
@[simp] theorem State.freeLaunches_focus (s : State) (n : Nat) : (s.freeLaunches n).focus = s.focus := rfl
@[simp] theorem State.freeLaunches_fresh (s : State) (n : Nat) : (s.freeLaunches n).fresh = s.fresh := rfl
@[simp] theorem State.freeLaunches_nextId (s : State) (n : Nat) : (s.freeLaunches n).nextId = s.nextId := rfl
@[simp] theorem State.freeLaunches_board (s : State) (n : Nat) : (s.freeLaunches n).board = s.board := rfl
@[simp] theorem State.freeLaunches_kiln (s : State) (n : Nat) : (s.freeLaunches n).kiln = { s.kiln with poolCnt := s.kiln.poolCnt - n } := rfl
@[simp] theorem State.freeLaunches_queues (s : State) (n : Nat) : (s.freeLaunches n).queues = s.queues := rfl
@[simp] theorem State.freeLaunches_jobs (s : State) (n : Nat) : (s.freeLaunches n).jobs = s.jobs := rfl
@[simp] theorem State.freeLaunches_graphs (s : State) (n : Nat) : (s.freeLaunches n).graphs = s.graphs := rfl
@[simp] theorem State.freeLaunches_tiles (s : State) (n : Nat) : (s.freeLaunches n).tiles = s.tiles := rfl
@[simp] theorem State.freeLaunches_blocks (s : State) (n : Nat) : (s.freeLaunches n).blocks = s.blocks := rfl
@[simp] theorem State.freeLaunches_ports (s : State) (n : Nat) : (s.freeLaunches n).ports = s.ports := rfl
@[simp] theorem State.freeLaunches_linkPorts (s : State) (n : Nat) : (s.freeLaunches n).linkPorts = s.linkPorts := rfl
@[simp] theorem State.freeLaunches_hostLinks (s : State) (n : Nat) : (s.freeLaunches n).hostLinks = s.hostLinks := rfl
@[simp] theorem State.freeLaunches_peers (s : State) (n : Nat) : (s.freeLaunches n).peers = s.peers := rfl
@[simp] theorem State.freeLaunches_mem (s : State) (n : Nat) : (s.freeLaunches n).mem = s.mem := rfl
@[simp] theorem State.freeLaunches_inflight (s : State) (n : Nat) : (s.freeLaunches n).inflight = s.inflight := rfl
@[simp] theorem State.freeLaunches_outreqs (s : State) (n : Nat) : (s.freeLaunches n).outreqs = s.outreqs := rfl
@[simp] theorem State.freeLaunches_inreqs (s : State) (n : Nat) : (s.freeLaunches n).inreqs = s.inreqs := rfl
@[simp] theorem State.freeLaunches_tickets (s : State) (n : Nat) : (s.freeLaunches n).tickets = s.tickets := rfl
@[simp] theorem State.freeLaunches_tlb (s : State) (n : Nat) : (s.freeLaunches n).tlb = s.tlb := rfl
@[simp] theorem State.freeLaunches_ats (s : State) (n : Nat) : (s.freeLaunches n).ats = s.ats := rfl
@[simp] theorem State.freeLaunches_flux (s : State) (n : Nat) : (s.freeLaunches n).flux = s.flux := rfl
@[simp] theorem State.freeLaunches_fq (s : State) (n : Nat) : (s.freeLaunches n).fq = s.fq := rfl
@[simp] theorem State.freeLaunches_fqs (s : State) (n : Nat) : (s.freeLaunches n).fqs = s.fqs := rfl
@[simp] theorem State.freeLaunches_out (s : State) (n : Nat) : (s.freeLaunches n).out = s.out := rfl

/-- A tile reads as it was set. -/
@[simp] theorem State.tile_setTile_self (s : State) (n : Nat) (x : Tile) : (s.setTile n x).tile n = x := Tab.get_set_self _ _ _ _
/-- Setting a tile leaves the others. -/
theorem State.tile_setTile_ne (s : State) {n k : Nat} (x : Tile) (h : k ≠ n) : (s.setTile n x).tile k = s.tile k := Tab.get_set_ne _ _ _ h
/-- A port reads as it was set. -/
@[simp] theorem State.port_setPort_self (s : State) (n : Nat) (x : Port) : (s.setPort n x).port n = x := Tab.get_set_self _ _ _ _
/-- Setting a port leaves the others. -/
theorem State.port_setPort_ne (s : State) {n k : Nat} (x : Port) (h : k ≠ n) : (s.setPort n x).port k = s.port k := Tab.get_set_ne _ _ _ h
/-- A block reads as it was set. -/
@[simp] theorem State.block_setBlock_self (s : State) (n : Nat) (x : Block) : (s.setBlock n x).block n = x := Tab.get_set_self _ _ _ _
/-- Setting a block leaves the others. -/
theorem State.block_setBlock_ne (s : State) {n k : Nat} (x : Block) (h : k ≠ n) : (s.setBlock n x).block k = s.block k := Tab.get_set_ne _ _ _ h
/-- A queue reads as it was set. -/
@[simp] theorem State.queue_setQueue_self (s : State) (n : Nat) (x : Queue) : (s.setQueue n x).queue n = x := Tab.get_set_self _ _ _ _
/-- Setting a queue leaves the others. -/
theorem State.queue_setQueue_ne (s : State) {n k : Nat} (x : Queue) (h : k ≠ n) : (s.setQueue n x).queue k = s.queue k := Tab.get_set_ne _ _ _ h
/-- A job reads as it was set. -/
@[simp] theorem State.job_setJob_self (s : State) (n : Nat) (x : Job) : (s.setJob n x).job n = x := Tab.get_set_self _ _ _ _
/-- Setting a job leaves the others. -/
theorem State.job_setJob_ne (s : State) {n k : Nat} (x : Job) (h : k ≠ n) : (s.setJob n x).job k = s.job k := Tab.get_set_ne _ _ _ h
/-- A graph reads as it was set. -/
@[simp] theorem State.graph_setGraph_self (s : State) (n : Nat) (x : Graph) : (s.setGraph n x).graph n = x := Tab.get_set_self _ _ _ _
/-- Setting a graph leaves the others. -/
theorem State.graph_setGraph_ne (s : State) {n k : Nat} (x : Graph) (h : k ≠ n) : (s.setGraph n x).graph k = s.graph k := Tab.get_set_ne _ _ _ h
/-- A hostLink reads as it was set. -/
@[simp] theorem State.hostLink_setHostLink_self (s : State) (n : Nat) (x : HostLink) : (s.setHostLink n x).hostLink n = x := Tab.get_set_self _ _ _ _
/-- Setting a hostLink leaves the others. -/
theorem State.hostLink_setHostLink_ne (s : State) {n k : Nat} (x : HostLink) (h : k ≠ n) : (s.setHostLink n x).hostLink k = s.hostLink k := Tab.get_set_ne _ _ _ h
/-- A peer reads as it was set. -/
@[simp] theorem State.peer_setPeer_self (s : State) (n : Nat) (x : Peer) : (s.setPeer n x).peer n = x := Tab.get_set_self _ _ _ _
/-- Setting a peer leaves the others. -/
theorem State.peer_setPeer_ne (s : State) {n k : Nat} (x : Peer) (h : k ≠ n) : (s.setPeer n x).peer k = s.peer k := Tab.get_set_ne _ _ _ h
/-- A linkPort reads as it was set. -/
@[simp] theorem State.linkPort_setLinkPort_self (s : State) (n : Nat) (x : LinkPort) : (s.setLinkPort n x).linkPort n = x := Tab.get_set_self _ _ _ _
/-- Setting a linkPort leaves the others. -/
theorem State.linkPort_setLinkPort_ne (s : State) {n k : Nat} (x : LinkPort) (h : k ≠ n) : (s.setLinkPort n x).linkPort k = s.linkPort k := Tab.get_set_ne _ _ _ h

/-- The firing that `setFiring` sets is the tile's. -/
@[simp] theorem State.firing_setFiring (s : State) (t : Nat) (f : Firing) : ((s.setFiring t f).tile t).firing = some f := by
  simp [State.setFiring]

/-- The actor that `setActor` sets is the graph's. -/
@[simp] theorem State.actor_setActor (s : State) (j n : Nat) (a : Actor) : (s.setActor j n a).actor j n = a := by
  simp [State.setActor, State.actor, Graph.setActor, Graph.actor]

/-- A write to s0 is discarded (R330). -/
@[simp] theorem Regs.wr_zero (r : Regs) (v : W64) (x : Bool) : r.wr 0#5 v x = r := by simp [Regs.wr]

/-- A written scalar register reads as written (R330). -/
theorem Regs.rd_wr_self (r : Regs) {d : BitVec 5} (v : W64) (x : Bool) (h : d ≠ 0) : (r.wr d v x).rd d = { val := v, dross := x } := by
  unfold Regs.rd Regs.wr
  rw [if_neg h, if_neg h]
  exact Tab.get_set_self _ _ _ _

/-- A write of a scalar register leaves the others (R330). -/
theorem Regs.rd_wr_ne (r : Regs) {d n : BitVec 5} (v : W64) (x : Bool) (h : n ≠ d) : (r.wr d v x).rd n = r.rd n := by
  by_cases hd : d = 0
  · simp [Regs.wr, hd]
  · have : n.toNat ≠ d.toNat := fun e => h (BitVec.eq_of_toNat_eq e)
    by_cases hn : n = 0
    · simp [Regs.rd, hn]
    · unfold Regs.rd Regs.wr
      rw [if_neg hd, if_neg hn, if_neg hn]
      exact Tab.get_set_ne _ _ _ this

/-- Register s0 reads as a clean 0 (R330). -/
@[simp] theorem Regs.rd_zero (r : Regs) : r.rd 0#5 = {} := by simp [Regs.rd]

@[simp] theorem Regs.wr_pc (r : Regs) (d : BitVec 5) (v : W64) (x : Bool) : (r.wr d v x).pc = r.pc := by
  unfold Regs.wr; split <;> rfl
@[simp] theorem Regs.wr_v (r : Regs) (d : BitVec 5) (v : W64) (x : Bool) : (r.wr d v x).v = r.v := by
  unfold Regs.wr; split <;> rfl
@[simp] theorem Regs.wr_p (r : Regs) (d : BitVec 5) (v : W64) (x : Bool) : (r.wr d v x).p = r.p := by
  unfold Regs.wr; split <;> rfl
@[simp] theorem Regs.wrV_pc (r : Regs) (d : BitVec 5) (v : V512) (x : W64) : (r.wrV d v x).pc = r.pc := rfl
@[simp] theorem Regs.wrV_s (r : Regs) (d : BitVec 5) (v : V512) (x : W64) : (r.wrV d v x).s = r.s := rfl
@[simp] theorem Regs.wrV_p (r : Regs) (d : BitVec 5) (v : V512) (x : W64) : (r.wrV d v x).p = r.p := rfl
@[simp] theorem Regs.wrP_pc (r : Regs) (d : Nat) (v : W64) : (r.wrP d v).pc = r.pc := rfl
@[simp] theorem Regs.wrP_s (r : Regs) (d : Nat) (v : W64) : (r.wrP d v).s = r.s := rfl
@[simp] theorem Regs.wrP_v (r : Regs) (d : Nat) (v : W64) : (r.wrP d v).v = r.v := rfl
@[simp] theorem Regs.advance_pc (r : Regs) : r.advance.pc = r.pc + 4 := rfl
@[simp] theorem Regs.advance_s (r : Regs) : r.advance.s = r.s := rfl
@[simp] theorem Regs.advance_v (r : Regs) : r.advance.v = r.v := rfl
@[simp] theorem Regs.advance_p (r : Regs) : r.advance.p = r.p := rfl

end Machine

end Sys2Proof
end

