-- ==== Sys2Proof/Laws/Agent.lean ====
section
/-! SUPPORT. What the shared operations that carry the instructions can do: one law for each, and the laws of the agent
in focus. -/

namespace Sys2Proof.Laws

open Sys2Proof Sys2Proof.Machine

/-! The agent in focus. -/

theorem seq_iff {s : State} {t f} : s.seq? = some (t, f) ↔
    s.focus = .tile t ∧ (s.tile t).firing = some f ∧ ∀ k e, f.phase ≠ .commit k e := by
  cases hf : s.focus with
  | engine p => simp [State.seq?, hf]
  | tile u =>
    cases hu : (s.tile u).firing with
    | none => simp only [State.seq?, hf, hu]; constructor
              · intro h; cases h
              · rintro ⟨h, h', -⟩; cases h; rw [hu] at h'; cases h'
    | some g =>
      simp only [State.seq?, hf, hu]
      constructor
      · intro h
        split at h
        · cases h
        · next hp => cases h; exact ⟨rfl, hu, hp⟩
      · rintro ⟨h, h', hp⟩
        cases h; rw [hu] at h'; cases h'
        split
        · next he => exact absurd he (hp _ _)
        · rfl

theorem copy_iff {s : State} {p c} : s.copy? = some (p, c) ↔ s.focus = .engine p ∧ (s.port p).eng.copy = some c := by
  cases hf : s.focus with
  | tile t => simp [State.copy?, hf]
  | engine q =>
    simp only [State.copy?, hf, Option.map_eq_some_iff, Agent.engine.injEq, Prod.mk.injEq]
    constructor
    · rintro ⟨c', h, rfl, rfl⟩; exact ⟨rfl, h⟩
    · rintro ⟨rfl, h⟩; exact ⟨c, h, rfl, rfl⟩

theorem seq_of_copy {s : State} {p c} (h : s.copy? = some (p, c)) : s.seq? = none := by
  simp [State.seq?, (copy_iff.1 h).1]

theorem busy_iff {r : Regs} {ss vs} : r.busy ss vs = false ↔
    (∀ n ∈ ss, (r.rd n).pend = []) ∧ ∀ n ∈ vs, (r.rdV n).pend = [] := by
  simp [Regs.busy]

/-! Instructions over registers. -/

/-- What an instruction over registers does where a firing executes: it waits for what it reads, or completes. -/
theorem onRegs_firing {s : State} {t f ss k} (h : s.seq? = some (t, f)) :
    onRegs s ss k = .next (if f.regs.busy ss [] then s else s.stepFiring t f (k f.regs)) := by
  simp only [onRegs, h]; split <;> rfl

/-- The same in microcode. -/
theorem onRegs_copy {s : State} {p c ss k} (h : s.copy? = some (p, c)) :
    onRegs s ss k = .next (if (s.port p).eng.regs.busy ss [] then s else s.stepEngine p (k (s.port p).eng.regs)) := by
  simp only [onRegs, seq_of_copy h, h]; split <;> rfl

/-- Everything that an instruction over registers can do. -/
theorem onRegs_cases {s s' : State} {ss k} (h : onRegs s ss k = .next s') :
    s' = s ∨ (∃ t f, s.seq? = some (t, f) ∧ f.regs.busy ss [] = false ∧ s' = s.stepFiring t f (k f.regs)) ∨
    ∃ p c, s.copy? = some (p, c) ∧ (s.port p).eng.regs.busy ss [] = false ∧ s' = s.stepEngine p (k (s.port p).eng.regs) := by
  rcases hq : s.seq? with _ | ⟨t, f⟩
  · rcases hc : s.copy? with _ | ⟨p, c⟩
    · simp only [onRegs, hq, hc] at h; cases h
    · rw [onRegs_copy hc] at h
      cases hb : (s.port p).eng.regs.busy ss [] <;> simp only [hb] at h <;> cases h
      · exact .inr (.inr ⟨p, c, rfl, hb, rfl⟩)
      · exact .inl rfl
  · rw [onRegs_firing hq] at h
    cases hb : f.regs.busy ss [] <;> simp only [hb] at h <;> cases h
    · exact .inr (.inl ⟨t, f, rfl, hb, rfl⟩)
    · exact .inl rfl

/-- An instruction over clean registers where a firing executes. -/
theorem onRegsClean_firing {w} {s : State} {t f ss k} (h : s.seq? = some (t, f)) :
    onRegsClean w s ss k = .next (if f.regs.busy ss [] then s else if ss.any f.regs.drossS then s.raise t f 7 w
      else s.stepFiring t f (k f.regs)) := by
  simp only [onRegsClean, h, trapAt]; split
  · rfl
  · split <;> rfl

/-- The same in microcode. -/
theorem onRegsClean_copy {w} {s : State} {p c ss k} (h : s.copy? = some (p, c)) :
    onRegsClean w s ss k = .next (if (s.port p).eng.regs.busy ss [] then s
      else if ss.any (s.port p).eng.regs.drossS then s.breakCopy p c 7 w
      else s.stepEngine p (k (s.port p).eng.regs)) := by
  simp only [onRegsClean, seq_of_copy h, h]; split
  · rfl
  · split <;> rfl

/-- An instruction of the sequencer where a firing executes: it waits, or is its own effect. -/
theorem onSeq_firing {s : State} {t f ss vs k} (h : s.seq? = some (t, f)) :
    onSeq s ss vs k = if f.regs.busy ss vs then .next s else k t f := by
  simp only [onSeq, h]

/-- In microcode it ends the copy with MCODE (R316). -/
theorem onSeq_copy {s : State} {p c ss vs k} (h : s.copy? = some (p, c)) :
    onSeq s ss vs k = .next (s.mcode p c) := by
  simp only [onSeq, seq_of_copy h, h]

/-- Everything that an instruction of the sequencer can do. -/
theorem onSeq_cases {s s' : State} {ss vs k} (h : onSeq s ss vs k = .next s') :
    s' = s ∨ (∃ t f, s.seq? = some (t, f) ∧ f.regs.busy ss vs = false ∧ k t f = .next s') ∨
    ∃ p c, s.copy? = some (p, c) ∧ s' = s.mcode p c := by
  rcases hq : s.seq? with _ | ⟨t, f⟩
  · rcases hc : s.copy? with _ | ⟨p, c⟩
    · simp only [onSeq, hq, hc] at h; cases h
    · rw [onSeq_copy hc] at h; cases h; exact .inr (.inr ⟨p, c, rfl, rfl⟩)
  · rw [onSeq_firing hq] at h
    cases hb : f.regs.busy ss vs <;> simp only [hb] at h
    · exact .inr (.inl ⟨t, f, rfl, hb, h⟩)
    · cases h; exact .inl rfl

theorem onEither_firing {s : State} {t f ss vs k m} (h : s.seq? = some (t, f)) :
    onEither s ss vs k m = if f.regs.busy ss vs then .next s else k t f := by
  simp only [onEither, h]

theorem onEither_copy {s : State} {p c ss vs k m} (h : s.copy? = some (p, c)) :
    onEither s ss vs k m = if (s.port p).eng.regs.busy ss vs then .next s else m p c (s.port p).eng.regs := by
  simp only [onEither, seq_of_copy h, h]

/-- Everything that an instruction of both can do. -/
theorem onEither_cases {s s' : State} {ss vs k m} (h : onEither s ss vs k m = .next s') :
    s' = s ∨ (∃ t f, s.seq? = some (t, f) ∧ f.regs.busy ss vs = false ∧ k t f = .next s') ∨
    ∃ p c, s.copy? = some (p, c) ∧ (s.port p).eng.regs.busy ss vs = false ∧ m p c (s.port p).eng.regs = .next s' := by
  rcases hq : s.seq? with _ | ⟨t, f⟩
  · rcases hc : s.copy? with _ | ⟨p, c⟩
    · simp only [onEither, hq, hc] at h; cases h
    · rw [onEither_copy hc] at h
      cases hb : (s.port p).eng.regs.busy ss vs <;> simp only [hb] at h
      · exact .inr (.inr ⟨p, c, rfl, hb, h⟩)
      · cases h; exact .inl rfl
  · rw [onEither_firing hq] at h
    cases hb : f.regs.busy ss vs <;> simp only [hb] at h
    · exact .inr (.inl ⟨t, f, rfl, hb, h⟩)
    · cases h; exact .inl rfl

/-! The wrappers of the families. -/

/-- A lane instruction traps where its register stands behind a drained stream or the mode is not its own (R362). -/
theorem onLane_firing {w} {s : State} {t f ss vs mode k} (h : s.seq? = some (t, f)) (hb : f.regs.busy ss vs = false) :
    onLane w s ss vs mode k = if f.drained || !mode f.lane then .next (s.raise t f 3 w) else k t f := by
  simp only [onLane, onSeq_firing h, hb]; rfl

/-- A channel instruction is for ordinary firings only (R161). -/
theorem onChan_firing {s : State} {t f ss vs k} (h : s.seq? = some (t, f)) (hb : f.regs.busy ss vs = false)
    (hk : f.kind = .ordinary) : onChan s ss vs k = k t f (s.actor f.job f.aid) := by
  simp only [onChan, onSeq_firing h, hb, hk]; rfl

theorem onChan_other {s : State} {t f ss vs k} (h : s.seq? = some (t, f)) (hb : f.regs.busy ss vs = false)
    (hk : f.kind ≠ .ordinary) : onChan s ss vs k = .next (s.raise t f 5 128) := by
  rcases hf : f.kind with _ | _ | _
  · exact absurd hf hk
  all_goals simp only [onChan, onSeq_firing h, hb, trapAt, hf]; rfl

/-- An instruction on a matrix context: dross first, then a context of the actor (R383). -/
theorem onCtx_firing {w} {s : State} {t f ss c k} (h : s.seq? = some (t, f)) (hb : f.regs.busy ss [] = false) :
    onCtx w s ss c k = if ss.any f.regs.drossS then .next (s.raise t f 7 w) else
      match Tab.find (s.actor f.job f.aid).ctxs c.toNat with
      | none => .next (s.raise t f 3 w)
      | some m => k t f (s.actor f.job f.aid) m := by
  simp only [onCtx, onSeq_firing h, hb, trapAt]
  split
  · contradiction
  · split <;> rfl

/-! Outcomes of events. -/

theorem orWait_next {row s s' u} : orWait row s s' = .next u ↔ s' ≠ s ∧ u = s' := by
  unfold orWait; split
  · next h => simp [h, disabled]
  · next h => simp [h, eq_comm]

@[simp] theorem inbound_free {s : State} {q go} (h : s.refused q = none) : s.inbound q go = .next go := by
  simp [State.inbound, h]

@[simp] theorem inbound_refused {s s' : State} {q go} (h : s.refused q = some s') : s.inbound q go = .next s' := by
  simp [State.inbound, h]

/-! Raising a cause. -/

/-- With no access of a firing on its way, only a NOMEM that it has met already is late. -/
theorem lateNomem_still {s : State} {f : Firing} (hw : s.unperformed f = []) : s.lateNomem f = f.nomem := by
  simp [State.lateNomem, hw]

theorem lateFoul_still {s : State} {f : Firing} (hw : s.unperformed f = []) : s.lateFoul f = none := by
  simp [State.lateFoul, hw]

theorem lateNotices_still {s : State} {f : Firing} (hw : s.unperformed f = []) : s.lateNotices f = s := by
  simp [State.lateNotices, hw]

/-- A replayable firing aborts, and the cause waits for the boundary (R156, R286). -/
theorem raiseC_replay {s : State} {t f c} (hk : ∀ d, f.kind ≠ .fault d) (hr : f.replay = true) (hn : f.nomem = none)
    (hw : s.unperformed f = []) : s.raiseC t f c = (s.rollback t f).postCause t f.job c := by
  rcases hf : f.kind with _ | _ | d
  · simp [State.raiseC, lateNomem_still hw, lateFoul_still hw, lateNotices_still hw, hn, hr, hf]
  · simp [State.raiseC, lateNomem_still hw, lateFoul_still hw, lateNotices_still hw, hn, hr, hf]
  · exact absurd hf (hk d)

/-- Any other firing's graph is aborted (R331). -/
theorem raiseC_abort {s : State} {t f c} (hk : ∀ d, f.kind ≠ .fault d) (hr : f.replay = false) (hn : f.nomem = none)
    (hw : s.unperformed f = []) : s.raiseC t f c = s.abortGraph f.job stFault c := by
  rcases hf : f.kind with _ | _ | d
  · simp [State.raiseC, lateNomem_still hw, lateFoul_still hw, lateNotices_still hw, hn, hr, hf]
  · simp [State.raiseC, lateNomem_still hw, lateFoul_still hw, lateNotices_still hw, hn, hr, hf]
  · exact absurd hf (hk d)

/-- A fault firing that traps aborts its graph with FAULTACTOR (R287). -/
theorem raiseC_fault {s : State} {t f c d} (hk : f.kind = .fault d) (hw : s.unperformed f = []) :
    s.raiseC t f c = s.abortGraph f.job stFault { code := 101, tval := BitVec.ofNat 64 f.aid } := by
  simp only [State.raiseC, lateFoul_still hw, lateNotices_still hw, hk]

/-- A cause of a job that has no graph is nothing. -/
theorem takeCause_gone {s : State} {j c} (h : s.hasGraph j = false) : s.takeCause j c = s := by
  simp [State.takeCause, h]

theorem abortGraph_gone {s : State} {j st c} (h : s.hasGraph j = false) : s.abortGraph j st c = s := by
  simp [State.abortGraph, h]

/-! Steps. -/

theorem step_event {s : State} {i rest} (h : s.agenda = .event i :: rest) :
    step s = exec i { s with agenda := rest } := by simp only [step, h]

theorem step_run {s : State} {a rest} (h : s.agenda = .run a :: rest) :
    step s = runFocus { s with agenda := rest, focus := a } := by simp only [step, h]

theorem step_focus {s : State} (h : s.agenda = []) : step s = runFocus s := by simp only [step, h]

end Sys2Proof.Laws
end

