-- ==== Sys2Proof/Laws/Memory.lean ====
section
/-! SUPPORT. The canonical form of a memory: every operation over memories keeps it, and the memory at reset has it. -/

namespace Sys2Proof.Machine

/-- Numbers rise exactly if each is below all the later ones. -/
theorem rises_iff : ∀ l : List Nat, rises l = true ↔ l.Pairwise (· < ·)
  | [] => by simp [rises]
  | [_] => by simp [rises]
  | i :: j :: t => by
    rw [rises, Bool.and_eq_true, decide_eq_true_eq, rises_iff (j :: t), List.pairwise_cons (a := i)]
    refine ⟨fun ⟨h, p⟩ => ⟨fun k hk => ?_, p⟩, fun ⟨h, p⟩ => ⟨h j (by simp), p⟩⟩
    rcases List.mem_cons.1 hk with rfl | hk
    · exact h
    · exact h.trans ((List.pairwise_cons.1 p).1 k hk)

/-- The canonical form, as a proposition. -/
theorem Memory.wf_iff (m : Memory) :
    m.wf = true ↔ (m.cells.map (·.1)).Pairwise (· < ·) ∧ (∀ c ∈ m.cells, c.2 ≠ 0) ∧ m.bad.Pairwise (· < ·) := by
  simp only [Memory.wf, Bool.and_eq_true, rises_iff, List.all_eq_true, decide_eq_true_eq, and_assoc]

/-- What a table holds after an insertion. -/
theorem Tab.mem_insert {α : Type} {i : Nat} {v : α} {e : Nat × α} : ∀ {t : Tab α}, e ∈ Tab.insert i v t ↔ e = (i, v) ∨ e ∈ t
  | [] => by simp [Tab.insert]
  | (k, w) :: t => by
    by_cases h : i < k
    · simp [Tab.insert, h]
    · simp only [Tab.insert, h, if_false, List.mem_cons, Tab.mem_insert (t := t)]
      tauto

/-- An insertion of a new key keeps the keys rising. -/
theorem Tab.rising_insert {α : Type} {i : Nat} {v : α} :
    ∀ {t : Tab α}, (t.map (·.1)).Pairwise (· < ·) → (∀ e ∈ t, e.1 ≠ i) → ((Tab.insert i v t).map (·.1)).Pairwise (· < ·)
  | [], _, _ => by simp [Tab.insert]
  | (k, w) :: t, p, h => by
    simp only [List.map_cons, List.pairwise_cons, List.mem_map] at p
    obtain ⟨p1, p2⟩ := p
    by_cases hl : i < k
    · simp only [Tab.insert, hl, if_true, List.map_cons, List.pairwise_cons, List.mem_cons, List.mem_map]
      refine ⟨?_, p1, p2⟩
      rintro a (rfl | ⟨e, he, rfl⟩)
      · exact hl
      · exact hl.trans (p1 e.1 ⟨e, he, rfl⟩)
    · have hk : k < i := lt_of_le_of_ne (not_lt.1 hl) (h (k, w) (by simp))
      simp only [Tab.insert, hl, if_false, List.map_cons, List.pairwise_cons, List.mem_map]
      refine ⟨?_, Tab.rising_insert p2 (fun e he => h e (by simp [he]))⟩
      rintro a ⟨e, he, rfl⟩
      rcases Tab.mem_insert.1 he with rfl | he
      · exact hk
      · exact p1 e.1 ⟨e, he, rfl⟩

/-- A part of a table keeps the keys rising. -/
theorem Tab.rising_filter {α : Type} {t : Tab α} (p : (t.map (·.1)).Pairwise (· < ·)) (k : Nat × α → Bool) :
    ((t.filter k).map (·.1)).Pairwise (· < ·) := p.sublist (List.filter_sublist.map _)

/-- What a list of numbers holds once one has been put into it. -/
theorem mem_addNum {n k : Nat} : ∀ {l : List Nat}, k ∈ addNum n l ↔ k = n ∨ k ∈ l
  | [] => by simp [addNum]
  | a :: t => by
    simp only [addNum]
    split
    · simp
    · split
      · next h => subst h; simp
      · simp only [List.mem_cons, mem_addNum (l := t)]; tauto

/-- Putting a number into a rising list keeps it rising. -/
theorem rising_addNum {n : Nat} : ∀ {l : List Nat}, l.Pairwise (· < ·) → (addNum n l).Pairwise (· < ·)
  | [], _ => by simp [addNum]
  | a :: t, p => by
    have q := List.pairwise_cons.1 p
    simp only [addNum]
    split
    · next h =>
      refine List.pairwise_cons.2 ⟨fun k hk => ?_, p⟩
      rcases List.mem_cons.1 hk with rfl | hk
      · exact h
      · exact h.trans (q.1 k hk)
    · split
      · exact p
      · next h1 h2 =>
        refine List.pairwise_cons.2 ⟨fun k hk => ?_, rising_addNum q.2⟩
        rcases mem_addNum.1 hk with rfl | hk
        · omega
        · exact q.1 k hk

/-- The memory with nothing listed has the canonical form. -/
theorem Memory.empty_wf : ({} : Memory).wf = true := rfl

/-- The memory at reset has the canonical form. -/
theorem State.reset_mem_wf : State.reset.mem.wf = true := rfl

/-- Setting a byte keeps the canonical form. -/
theorem Memory.setByte_wf {m : Memory} (h : m.wf = true) (a : Nat) (b : Byte) : (m.setByte a b).wf = true := by
  rw [Memory.wf_iff] at h ⊢
  obtain ⟨h1, h2, h3⟩ := h
  have ne : ∀ e ∈ Tab.erase m.cells a, e.1 ≠ a := fun e he => by simpa using (List.mem_filter.1 he).2
  have er := Tab.rising_filter h1 (fun e => decide (e.1 ≠ a))
  simp only [Memory.setByte, Tab.put]
  split
  · exact ⟨er, fun c hc => h2 c (List.mem_filter.1 hc).1, h3⟩
  · next hb =>
    refine ⟨Tab.rising_insert er ne, fun c hc => ?_, h3⟩
    rcases Tab.mem_insert.1 hc with rfl | hc
    · exact hb
    · exact h2 c (List.mem_filter.1 hc).1

/-- Setting a mark keeps the canonical form. -/
theorem Memory.setBad_wf {m : Memory} (h : m.wf = true) (g : Nat) (x : Bool) : (m.setBad g x).wf = true := by
  rw [Memory.wf_iff] at h ⊢
  obtain ⟨h1, h2, h3⟩ := h
  refine ⟨h1, h2, ?_⟩
  cases x
  · exact h3.sublist List.filter_sublist
  · exact rising_addNum h3

/-- Setting bytes keeps the canonical form. -/
theorem Memory.setBytes_wf : ∀ (bs : List Byte) {m : Memory}, m.wf = true → ∀ a, (m.setBytes a bs).wf = true
  | [], _, h, _ => h
  | b :: t, _, h, a => Memory.setBytes_wf t (Memory.setByte_wf h a b) (a + 1)

/-- A fold keeps the canonical form if each of its steps does. -/
theorem Memory.foldl_wf {α : Type} {k : Memory → α → Memory} (hk : ∀ m x, m.wf = true → (k m x).wf = true) :
    ∀ (l : List α) {m : Memory}, m.wf = true → (l.foldl k m).wf = true
  | [], _, h => h
  | x :: t, _, h => Memory.foldl_wf hk t (hk _ x h)

/-- A write of a piece of a tile memory keeps the canonical form. -/
theorem Memory.storePiece_wf {m : Memory} (h : m.wf = true) (a : Nat) (bs : Bytes) : (m.storePiece a bs).wf = true := by
  have h' := Memory.setBytes_wf (bs.map (·.1)) h a
  simp only [Memory.storePiece]
  split
  · exact Memory.setBad_wf h' _ _
  · split
    · exact Memory.setBad_wf h' _ _
    · exact h'

/-- A write of a tile memory keeps the canonical form. -/
theorem Memory.store_wf {m : Memory} (h : m.wf = true) (a : Nat) (bs : Bytes) : (m.store a bs).wf = true :=
  Memory.foldl_wf (fun _ _ hm => Memory.storePiece_wf hm _ _) _ h

/-- A masked write of a granule keeps the canonical form. -/
theorem Memory.writeGranule_wf {m : Memory} (h : m.wf = true) (g : Nat) (bs : List (Option (Byte × Bool))) :
    (m.writeGranule g bs).1.wf = true := by
  simp only [Memory.writeGranule]
  split
  · exact h
  · split
    · exact h
    · refine Memory.setBad_wf (Memory.foldl_wf (fun m x hm => ?_) _ h) _ _
      split
      · exact Memory.setByte_wf hm _ _
      · exact hm

/-- A write of a piece of global memory keeps the canonical form. -/
theorem Memory.writePiece_wf {m : Memory} (h : m.wf = true) (a : Nat) (bs : Bytes) : (m.writePiece a bs).wf = true :=
  Memory.writeGranule_wf h _ _

/-- A write of global memory keeps the canonical form. -/
theorem Memory.write_wf {m : Memory} (h : m.wf = true) (a : Nat) (bs : Bytes) : (m.write a bs).wf = true :=
  Memory.foldl_wf (fun _ _ hm => Memory.writePiece_wf hm _ _) _ h

/-- Putting bytes back keeps the canonical form. -/
theorem Memory.restore_wf {m : Memory} (h : m.wf = true) (a : Nat) (bs : Bytes) : (m.restore a bs).wf = true := by
  refine Memory.foldl_wf (fun m x hm => ?_) _ (Memory.setBytes_wf _ h a)
  split
  · exact Memory.setBad_wf hm _ _
  · exact hm

/-- A part of a memory moved down to 0 has the canonical form. -/
theorem Memory.cut_wf {m : Memory} (h : m.wf = true) (lo hi : Nat) : (m.cut lo hi).wf = true := by
  rw [Memory.wf_iff] at h ⊢
  obtain ⟨h1, h2, h3⟩ := h
  refine ⟨?_, ?_, ?_⟩
  · rw [List.pairwise_map] at h1
    simp only [Memory.cut, List.map_map, List.pairwise_map, List.pairwise_filter, Function.comp, decide_eq_true_eq]
    exact h1.imp (fun hab ha hb => by omega)
  · simp only [Memory.cut, List.mem_map, List.mem_filter]
    rintro c ⟨d, ⟨hd, -⟩, rfl⟩
    exact h2 d hd
  · simp only [Memory.cut, List.pairwise_map, List.pairwise_filter, decide_eq_true_eq]
    exact h3.imp (fun hab ha hb => by omega)

/-- A memory with a part cleared has the canonical form. -/
theorem Memory.clearRange_wf {m : Memory} (h : m.wf = true) (lo hi : Nat) : (m.clearRange lo hi).wf = true := by
  rw [Memory.wf_iff] at h ⊢
  obtain ⟨h1, h2, h3⟩ := h
  exact ⟨Tab.rising_filter h1 _, fun c hc => h2 c (List.mem_filter.1 hc).1, h3.sublist List.filter_sublist⟩

/-- A memory with a part replaced has the canonical form. -/
theorem Memory.splice_wf {m : Memory} (h : m.wf = true) (a n : Nat) (src : Memory) : (m.splice a n src).wf = true :=
  Memory.foldl_wf (fun _ _ hm => Memory.setBad_wf hm _ _) _
    (Memory.foldl_wf (fun _ _ hm => Memory.setByte_wf hm _ _) _ (Memory.clearRange_wf h _ _))

/-- An atomic keeps the canonical form. -/
theorem Memory.atomic_wf {m : Memory} (h : m.wf = true) (a : Nat) (op : AtomOp) (n : Nat) (x e : W64) (d : Bool) :
    (m.atomic a op n x e d).1.wf = true := by
  simp only [Memory.atomic]
  split
  · exact h
  · exact Memory.writePiece_wf h _ _

/-- The performance of one granule of a port's request keeps the canonical form. -/
theorem State.performGranule_wf {s : State} (h : s.mem.wf = true) (t : TagEntry) (g : Nat) : (s.performGranule t g).2.mem.wf = true := by
  unfold State.performGranule
  split
  · split
    · exact Memory.writeGranule_wf h _ _
    · exact h
  · exact h

/-- What a module reset leaves of memory has the canonical form. -/
theorem Memory.unrefreshed_wf {m : Memory} (h : m.wf = true) (k : Nat) : (m.unrefreshed k).wf = true := by
  rw [Memory.wf_iff] at h ⊢
  obtain ⟨h1, h2, h3⟩ := h
  have key : ∀ c d : Host.Cell, (if 0x18000000000 ≤ c.1 then some c
      else match Config.lostByte k c.1 with
        | none => some c
        | some b => if b = 0 then none else some (c.1, b)) = some d → d.1 = c.1 ∧ (c.2 ≠ 0 → d.2 ≠ 0) := by
    intro c d hd
    split at hd
    · cases hd; exact ⟨rfl, id⟩
    · split at hd
      · cases hd; exact ⟨rfl, id⟩
      · split at hd
        · cases hd
        · next hb => cases hd; exact ⟨rfl, fun _ => hb⟩
  refine ⟨?_, ?_, h3⟩
  · rw [List.pairwise_map] at h1 ⊢
    refine List.pairwise_filterMap.2 (h1.imp (fun {a b} hab x hx y hy => ?_))
    rw [(key a x hx).1, (key b y hy).1]
    exact hab
  · intro d hd
    obtain ⟨c, hc, hd⟩ := List.mem_filterMap.1 hd
    exact (key c d hd).2 (h2 c hc)

/-! Reads after writes. -/

/-- A key that is in no entry reads as the default. -/
theorem Tab.get_none {α : Type} (d : α) (i : Nat) : ∀ t : Tab α, (∀ e ∈ t, e.1 ≠ i) → Tab.get d t i = d
  | [], _ => rfl
  | (k, w) :: t, h => by
    have hk : k ≠ i := h (k, w) (by simp)
    simp only [Tab.get, hk, if_false]
    exact Tab.get_none d i t (fun e he => h e (by simp [he]))

theorem Tab.get_erase_self {α : Type} (d : α) (t : Tab α) (i : Nat) : Tab.get d (Tab.erase t i) i = d :=
  Tab.get_none d i _ (Tab.erase_ne t i)

theorem Memory.byte_setByte_self (m : Memory) (a : Nat) (b : Byte) : (m.setByte a b).byte a = b := by
  simp only [Memory.byte, Memory.setByte, Tab.put]
  split
  · next h => rw [h]; exact Tab.get_erase_self 0 m.cells a
  · exact Tab.get_set_self 0 m.cells a b

theorem Memory.byte_setByte_ne (m : Memory) {a k : Nat} (b : Byte) (h : k ≠ a) : (m.setByte a b).byte k = m.byte k := by
  simp only [Memory.byte, Memory.setByte, Tab.put]
  split
  · exact Tab.get_erase_ne 0 m.cells h
  · exact Tab.get_set_ne 0 m.cells b h

@[simp] theorem Memory.isBad_setByte (m : Memory) (a : Nat) (b : Byte) (g : Nat) : (m.setByte a b).isBad g = m.isBad g := rfl

@[simp] theorem Memory.byte_setBad (m : Memory) (g : Nat) (x : Bool) (k : Nat) : (m.setBad g x).byte k = m.byte k := rfl

theorem Memory.isBad_setBad_self (m : Memory) (g : Nat) (x : Bool) : (m.setBad g x).isBad g = x := by
  cases x <;> simp [Memory.isBad, Memory.setBad, mem_addNum]

theorem Memory.isBad_setBad_ne (m : Memory) {g k : Nat} (x : Bool) (h : k ≠ g) : (m.setBad g x).isBad k = m.isBad k := by
  apply Bool.eq_iff_iff.2
  cases x <;> simp [Memory.isBad, Memory.setBad, mem_addNum, h]

@[simp] theorem Memory.isBad_setBytes (g : Nat) : ∀ (bs : List Byte) (m : Memory) (a : Nat), (m.setBytes a bs).isBad g = m.isBad g
  | [], _, _ => rfl
  | _ :: t, m, a => by rw [Memory.setBytes, Memory.isBad_setBytes g t]; rfl

/-- Bytes set from an address on read back there, and no other byte changes. -/
theorem Memory.byte_setBytes : ∀ (bs : List Byte) (m : Memory) (a k : Nat),
    (m.setBytes a bs).byte k = if a ≤ k ∧ k < a + bs.length then bs.getD (k - a) 0 else m.byte k
  | [], m, a, k => by
    have h : ¬ (a ≤ k ∧ k < a + ([] : List Byte).length) := by simp
    rw [if_neg h]; rfl
  | b :: t, m, a, k => by
    rw [Memory.setBytes, Memory.byte_setBytes t]
    simp only [List.length_cons]
    by_cases h1 : a + 1 ≤ k ∧ k < a + 1 + t.length
    · have h2 : k - a = (k - (a + 1)) + 1 := by omega
      rw [if_pos h1, if_pos (by omega), h2, List.getD_cons_succ]
    · rw [if_neg h1]
      by_cases h3 : k = a
      · rw [if_pos (by omega), h3, Nat.sub_self, List.getD_cons_zero, Memory.byte_setByte_self]
      · rw [if_neg (by omega), Memory.byte_setByte_ne _ _ h3]

end Sys2Proof.Machine
end

