-- ==== Sys2Proof/Laws/Words.lean ====
section
/-! SUPPORT. Control words as numbers (R309). -/

namespace Sys2Proof.Laws

/-- Fields side by side add up. -/
theorem toNat_append {n m : Nat} (x : BitVec n) (y : BitVec m) : (x ++ y).toNat = x.toNat * 2 ^ m + y.toNat := by
  rw [BitVec.toNat_append, ← Nat.shiftLeft_add_eq_or_of_lt y.isLt, Nat.shiftLeft_eq]

/-- The number that a word of format R is. -/
theorem encR_toNat (m : BitVec 6) (d a b : BitVec 5) (f : BitVec 11) : (encR m d a b f).toNat =
    m.toNat * 2 ^ 26 + d.toNat * 2 ^ 21 + a.toNat * 2 ^ 16 + b.toNat * 2 ^ 11 + f.toNat := by
  simp only [encR, toNat_append]
  omega

/-- The number that a word of format V is. -/
theorem encV_toNat (m : BitVec 6) (d a b : BitVec 5) (pe : BitVec 1) (pr : BitVec 3) (f : BitVec 7) : (encV m d a b pe pr f).toNat =
    m.toNat * 2 ^ 26 + d.toNat * 2 ^ 21 + a.toNat * 2 ^ 16 + b.toNat * 2 ^ 11 + pe.toNat * 2 ^ 10 + pr.toNat * 2 ^ 7 + f.toNat := by
  simp only [encV, toNat_append]
  omega

end Sys2Proof.Laws
end

