-- ==== Sys2Proof/Tests/Slice0.lean ====
section
/-! SUPPORT. Tests of the model: the smoke test of WellFormed, words of the spec's encodings, small steps whose results
the spec gives, and for each statement with hypotheses a state and operands that meet them. -/

namespace Sys2Proof.Tests

set_option maxRecDepth 100000
set_option Elab.async false

open Sys2Proof Sys2Proof.Machine Sys2Proof.Claims

/-! WellFormed refuses an ill-formed term for each of its checks. -/

/-- Control words whose register fields leave their files (R310, R313). -/
def illWords : List Instr :=
  [.fence 5 1, .vceq 8 0 0 none, .vclt 8 0 0 none, .vcltu 8 0 0 none, .vcle 8 0 0 none, .vcleu 8 0 0 none, .vfceq 8 0 0 none,
   .vfclt 8 0 0 none, .vfcle 8 0 0 none, .wadd 2 0 none, .wrd 0 2 none, .wclr 2 none, .wcpy 2 0 0, .wcpy 0 2 0, .pand 8 0 0,
   .pand 0 8 0, .pand 0 0 8, .por 8 0 0, .por 0 8 0, .por 0 0 8, .pxor 8 0 0, .pxor 0 8 0, .pxor 0 0 8, .pandn 8 0 0,
   .pandn 0 8 0, .pandn 0 0 8, .pnot 8 0, .pnot 0 8, .pset 8, .pclr 8, .pmovs 8 0, .pmovd 0 8, .pfirst 0 8, .pcnt 0 8,
   .vsdcmp 8 0 0]

theorem test_ill_words : ∀ i ∈ illWords, WellFormed i = false := by decide

/-- A register write that is no access of 4 or 8 bytes within the register space (R59). -/
def illReg : RegReq := ⟨.pf 0, 4, 8, 0⟩

/-- Events whose arguments leave the part's own counts. -/
theorem test_ill_events : ∀ i ∈ ([.limitReset 0, .limitReset 9, .mreset illReg, .fwhalt ⟨.pf 4, 8, 8, 0⟩, .mailboxBadcmd ⟨.vf 0 0, 8, 8, 0⟩,
   .registerWrite ⟨.vf 0 64, 8, 8, 0⟩, .qtailWrite ⟨.peer 4096, 8, 8, 0⟩, .queueEnable ⟨.pf 0, 8, 2, 0⟩,
   .queueDisable ⟨.pf 0, 0x800000, 8, 0⟩, .qctlKill illReg, .qctlReset illReg, .klrefill illReg, .leaseAdd illReg,
   .ticketRetry illReg, .ticketFail illReg, .fluxStart illReg, .peerActivate illReg, .peerDisable illReg,
   .linkPortEnable illReg, .linkPortDisable illReg, .worldTableWrite illReg, .loadfw illReg none, .worldreq illReg none,
   .enrol illReg none, .svnraise illReg none, .functionReset 4 0, .functionReset 0 64, .linkReset 4, .linkdown (.ual 48),
   .linkdown (.host 4), .poisonedRegisterWrite (.pf 4) 0 0, .poisonedRegisterWrite (.pf 0) 0x800000 0, .recordFetch 4096 ⟨[], []⟩, .recordFetch 0 ⟨[16], []⟩,
   .energyCharge 4352 0 ⟨0, false⟩, .thermalRead 4352 0, .thermalStep 4352, .ageingMeasure 4352 0 0, .ageingMeasure 0 256 0,
   .weldWavefront 0 ⟨4096, none⟩, .moveStateCopy 4096, .moveRetarget 4096, .moveAbandon 4096, .firingBoundary 4096,
   .commitContinue 4096, .slotClaimGrant 4096, .streamRunDone 4096, .uncorrectableError 4352 ⟨⟨0, 0, 0⟩, true⟩,
   .uncorrectableError 0 ⟨⟨20, 0, 0⟩, true⟩, .tileScrub 4096 none, .relocationMarker 256 ⟨0, none⟩, .rowFiring 4096 0 false,
   .rowFiring 0 4 false, .laneElementFire 4096 0, .laneElementFire 0 16, .repeatGroup 0 0 2, .siltCopyStart 256, .boundKick 256 0,
   .boundKick 0 64, .kickRegisterWrite (.pf 4) 0 0, .kickRegisterWrite (.pf 0) 0x800000 0, .mptrcRead (.pf 4) ⟨0, 8⟩, .mptrcRead (.pf 0) ⟨0x800000, 8⟩, .mptrcRead (.pf 0) ⟨0, 16⟩,
   .memportRead 256 0, .memportRead 0 64, .memportWrite 256 0, .memportNull 256 0, .replyRelease 256 0, .requesterEnd 0 64,
   .memportPerform 256 0 ⟨0, [0]⟩, .memportPerform 0 0 ⟨8, [0]⟩,
   .memportPerform 0 0 ⟨0, [8]⟩, .expanderFail 4 0, .expanderFail 0 8, .fluxEmerge ⟨256, none⟩,
   .atsInvalidate 4 0 0 12, .atsInvalidate 0 (2 ^ 20) 0 12, .atsInvalidate 0 0 0 11, .hostBar2Read 4 0 1, .hostBar2Read 0 (2 ^ 42) 1,
   .hostBar2Write 4 0 [0] false, .hostBar2Write 0 (2 ^ 42) [0] false, .peerInboundRead 4096 0 1 0, .peerInboundRead 0 0 0 0,
   .peerInboundRead 0 255 2 0, .peerInboundRead 0 0 1 16, .peerInboundWrite 4096 0 0 [some 0] false, .peerInboundWrite 0 0 0 [] false,
   .peerInboundWrite 0 255 0 [some 0, some 0] false, .peerInboundWrite 0 0 16 [some 0] false, .peerInboundAtomic 4096 0 0 .add 0 0 false,
   .peerInboundAtomic 0 4 0 .add 0 0 false, .peerInboundAtomic 0 0 16 .add 0 0 false, .peerDomainFence 4096 1, .peerDomainFence 0 65536,
   .assayRun 4352, .assayComplete 4352 false 0 0, .assayComplete 0 false 256 0, .plotWorldChange 256,
   .regionWorldChange 64, .linkTrained (.ual 48) 0 0 false false, .linkTrained (.host 0) 17 0 false false,
   .linkTrained (.host 0) 0 7 false false, .firmwareStart [0] [], .firmwareStart [2, 0, 0, 0] [], .firmwareStart [0, 3, 0, 0] [],
   .firmwareStart [0, 0, 0, 0] [(4, 0)], .bringupComplete ⟨[4352], 0, []⟩ [] [] 0 0, .bringupComplete ⟨[], 0, [(0, 256)]⟩ [] [] 0 0,
   .bringupComplete ⟨[], 0, []⟩ [] [48] 0 0, .coolingRecovery ⟨[4352], 0, []⟩, .coolingRecovery ⟨[], 0, [(0, 256)]⟩,
   .spdmMeasurement []] : List Instr), WellFormed i = false := by decide

theorem test_well_formed : ∀ e ∈ sampleWords, WellFormed e.2 = true := by decide

/-! Words of every encoding, put together from the match values and the field places of spec/opcode_table.json. -/

def words1 : List (Nat × Instr) :=
  [(0x07945000, .add 28 20 10), (0x047B8801, .sub 3 27 17), (0x0542C002, .and 10 2 24), (0x0629F803, .or 17 9 31),
   (0x07103004, .xor 24 16 6), (0x07F76805, .sll 31 23 13), (0x04DEA006, .srl 6 30 20), (0x05A5D807, .sra 13 5 27),
   (0x068C1008, .rol 20 12 2), (0x07734809, .ror 27 19 9), (0x045A800A, .slt 2 26 16), (0x0521B80B, .sltu 9 1 23),
   (0x0608F00C, .min 16 8 30), (0x06EF280D, .max 23 15 5), (0x07D6600E, .minu 30 22 12), (0x04BD980F, .maxu 5 29 19),
   (0x0584D010, .mul 12 4 26), (0x066B0811, .mulh 19 11 1), (0x07524012, .mulhu 26 18 8), (0x04397813, .div 1 25 15),
   (0x0500B014, .divu 8 0 22), (0x05E7E815, .rem 15 7 29), (0x06CE2016, .remu 22 14 4), (0x07B55817, .andn 29 21 11),
   (0x049C0018, .clz 4 28), (0x05630019, .ctz 11 3), (0x064A001A, .popc 18 10), (0x0731001B, .sextb 25 17),
   (0x0418001C, .sexth 0 24), (0x04FF001D, .sextw 7 31), (0x05C6E01E, .addw 14 6 28), (0x06AD181F, .subw 21 13 3),
   (0x0B94A4B4, .addi 28 20 0xa4b4), (0x0C7BA4BB, .andi 3 27 0xa4bb), (0x1142A4C2, .ori 10 2 0xa4c2),
   (0x1629A4C9, .xori 17 9 0xa4c9), (0x1B10A4D0, .slti 24 16 0xa4d0), (0x1FF7A4D7, .sltiu 31 23 0xa4d7),
   (0x20C0A4DB, .lui 6 0xa4db), (0x25A50009, .slli 13 5 9)]

theorem test_decode1 : ∀ e ∈ words1, decodeTableWord 32 e.1 = some e.2 := by decide

def words2 : List (Nat × Instr) :=
  [(0x268C0050, .srli 20 12 16), (0x27730097, .srai 27 19 23), (0x245A00DE, .roli 2 26 30),
   (0x2A2103DF, .beq 17 1 0x3df), (0x2F0803E6, .bne 24 8 0x3e6), (0x33EF03ED, .blt 31 15 0x3ed),
   (0x34D603F4, .bge 6 22 0x3f4), (0x39BD03FB, .bltu 13 29 0x3fb), (0x3E840402, .bgeu 20 4 0x402),
   (0x42600406, .jal 19 0x406), (0x4752A532, .jalr 26 18 0xa532), (0x48000000, .nop), (0x48000001, .commit),
   (0x48000002, .yield), (0x48000003, .aend), (0x48120004, .trap 18), (0x48800005, .ldepth 4),
   (0x4D600560, .csrr 11 0x560), (0x4E4A156A, .csrw 18 10 0x56a), (0x4F312571, .csrs 25 17 0x571),
   (0x4C183578, .csrc 0 24 0x578), (0x50FF1746, .lb 7 31 0x5d 6), (0x51C6191D, .lh 14 6 0x64 13),
   (0x52AD1AE4, .lw 21 13 0x6b 4), (0x53941CBB, .ld 28 20 0x72 11), (0x547B1E42, .lbz 3 27 0x79 2),
   (0x55422019, .lhz 10 2 0x80 9), (0x562921E0, .lwz 17 9 0x87 0), (0x5B102387, .sb 24 16 0x8e 7),
   (0x5BF7255E, .sh 31 23 0x95 14), (0x58DE2725, .sw 6 30 0x9c 5), (0x59A528FC, .sd 13 5 0xa3 12),
   (0x5E8C2A83, .lgb 20 12 0xaa 3), (0x5F732C5A, .lgh 27 19 0xb1 10), (0x5C5A2E21, .lgw 2 26 0xb8 1),
   (0x5D212FF8, .lgd 9 1 0xbf 8), (0x6208318F, .lgbz 16 8 0xc6 15), (0x62EF3356, .lghz 23 15 0xcd 6),
   (0x63D6352D, .lgwz 30 22 0xd4 13), (0x64BD36C4, .sgb 5 29 0xdb 4)]

theorem test_decode2 : ∀ e ∈ words2, decodeTableWord 32 e.1 = some e.2 := by decide

def words3 : List (Nat × Instr) :=
  [(0x6584389B, .sgh 12 4 0xe2 11), (0x666B3A62, .sgw 19 11 0xe9 2), (0x67523C39, .sgd 26 18 0xf0 9),
   (0x68393DC0, .vl 1 25 0xf7 0), (0x69003F97, .vs 8 0 0xfe 7), (0x69E7416E, .vlg 15 7 0x105 14),
   (0x6ACE4335, .vsg 22 14 0x10c 5), (0x6FA05800, .recv 29 22), (0x6C807401, .recvv 4 29), (0x6D639C02, .peek 11 3 39),
   (0x6E4AB803, .peekv 18 10 46), (0x6C0EC804, .send 14 50), (0x6C15E405, .sendv 21 57), (0x6C1C0006, .sendn 28 0),
   (0x6DC62807, .sendm 14 6 10), (0x6EAD4408, .sendmv 21 13 17), (0x6F805409, .chcnt 28 21),
   (0x6C60700A, .chfree 3 28), (0x7142C009, .aadd 10 2 24 9), (0x7229F810, .aand 17 9 31 0),
   (0x73103027, .aor 24 16 6 7), (0x73F7683E, .axor 31 23 13 14), (0x70DEA045, .amin 6 30 20 5),
   (0x71A5D85C, .amax 13 5 27 12), (0x728C1063, .aminu 20 12 2 3), (0x7373487A, .amaxu 27 19 9 10),
   (0x705A8081, .aswap 2 26 16 1), (0x7121B898, .acas 9 1 23 8), (0x7400A8C1, .fence 0 0xa8c1), (0x79A00000, .bar 13),
   (0x78130001, .subs 19), (0x781A0002, .unsubs 26), (0x8184D500, .vadd 12 4 26 (some 2)),
   (0x826B0801, .vsub 19 11 1 none), (0x83524402, .vmul 26 18 8 (some 0)), (0x80397803, .vmulh 1 25 15 none),
   (0x8100B704, .vmulhu 8 0 22 (some 6)), (0x81E7E805, .vand 15 7 29 none), (0x82CE2606, .vor 22 14 4 (some 4)),
   (0x83B55807, .vxor 29 21 11 none)]

theorem test_decode3 : ∀ e ∈ words3, decodeTableWord 32 e.1 = some e.2 := by decide

def words4 : List (Nat × Instr) :=
  [(0x809C9508, .vandn 4 28 18 (some 2)), (0x81630009, .vnot 11 3 none), (0x824A040A, .vsll 18 10 0 (some 0)),
   (0x8331380B, .vsrl 25 17 7 none), (0x8018770C, .vsra 0 24 14 (some 6)), (0x80FFA80D, .vmin 7 31 21 none),
   (0x81C6E60E, .vmax 14 6 28 (some 4)), (0x82AD180F, .vminu 21 13 3 none), (0x83945510, .vmaxu 28 20 10 (some 2)),
   (0x807B0011, .vabs 3 27 none), (0x81420692, .vneg 10 2 (some 5)), (0x8029F813, .vceq 1 9 31 none),
   (0x80103714, .vclt 0 16 6 (some 6)), (0x80F76815, .vcltu 7 23 13 none), (0x80DEA616, .vcle 6 30 20 (some 4)),
   (0x80A5D817, .vcleu 5 5 27 none), (0x828C1518, .vsel 20 12 2 (some 2)), (0x87734800, .vfadd 27 19 9 none),
   (0x845A8401, .vfsub 2 26 16 (some 0)), (0x8521B802, .vfmul 9 1 23 none), (0x8608F703, .vfdiv 16 8 30 (some 6)),
   (0x86EF2804, .vfma 23 15 5 none), (0x87D66605, .vfms 30 22 12 (some 4)), (0x84BD9806, .vfnma 5 29 19 none),
   (0x85840787, .vfsqrt 12 4 (some 7)), (0x866B0808, .vfmin 19 11 1 none), (0x87524409, .vfmax 26 18 8 (some 0)),
   (0x8439000A, .vfabs 1 25 none), (0x8500058B, .vfneg 8 0 (some 3)), (0x84E7E80C, .vfceq 7 7 29 none),
   (0x84CE260D, .vfclt 6 14 4 (some 4)), (0x84B5580E, .vfcle 5 21 11 none), (0x849C078F, .vfclass 4 28 (some 7)),
   (0x89631800, .vcvta 11 3 3 none), (0x8A4A5401, .vcvtm 18 10 10 (some 0)), (0x8B313802, .vcvts 25 17 7 none),
   (0x8818C003, .vmxe 0 24 24), (0x88FFF804, .vmxd 7 31 31), (0x89C60005, .vsde 14 6), (0x8AAD0006, .vsdd 21 13)]

theorem test_decode4 : ∀ e ∈ words4, decodeTableWord 32 e.1 = some e.2 := by decide

def words5 : List (Nat × Instr) :=
  [(0x8F940780, .vradd 28 20 (some 7)), (0x8C7B0001, .vrmin 3 27 none), (0x8D420682, .vrmax 10 2 (some 5)),
   (0x8E290003, .vrminu 17 9 none), (0x8F100584, .vrmaxu 24 16 (some 3)), (0x8FF70005, .vrand 31 23 none),
   (0x8CDE0486, .vror 6 30 (some 1)), (0x8DA50007, .vrxor 13 5 none), (0x8C0C0788, .wadd 0 12 (some 7)),
   (0x8F610009, .wrd 27 1 none), (0x8C00050A, .wclr 0 (some 2)), (0x8C21080B, .wcpy 1 1 1), (0x90003000, .pand 0 0 6),
   (0x90E72801, .por 7 7 5), (0x90C62002, .pxor 6 6 4), (0x90A51803, .pandn 5 5 3), (0x90840004, .pnot 4 4),
   (0x90600005, .pset 3), (0x90400006, .pclr 2), (0x90390007, .pmovs 1 25), (0x91000008, .pmovd 8 0),
   (0x91E70009, .pfirst 15 7), (0x92C6000A, .pcnt 22 6), (0x94120000, .vsgo 18), (0x94000001, .vswt),
   (0x9563C802, .vsdadd 11 3 25), (0x964A0003, .vsdsub 18 10 0), (0x97313804, .vsdmul 25 17 7),
   (0x9418A005, .vsdcut 0 24 20), (0x94FFA806, .vsdcmp 7 31 21), (0x95C6E007, .vjoin 14 6 28),
   (0x96AD1808, .vjoinu 21 13 3), (0x9B800000, .grit 28), (0x98600001, .gritv 3), (0x99420002, .gritc 10 2),
   (0x9A290003, .vsmpc 17 9 none), (0x9B103704, .vsmpk 24 16 6 (some 6)), (0x9BF76805, .vsmpn 31 23 13 none),
   (0x9CDE0480, .vmov 6 30 (some 1)), (0x9DA50001, .vbcast 13 5 none)]

theorem test_decode5 : ∀ e ∈ words5, decodeTableWord 32 e.1 = some e.2 := by decide

def words6 : List (Nat × Instr) :=
  [(0x9E8C1002, .vins 20 12 2), (0x9F734803, .vext 27 19 9), (0x9C5A8404, .vperm 2 26 16 (some 0)),
   (0x9D21B805, .vrot 9 1 23 none), (0x9E08F006, .vzip 16 8 30), (0x9EEF2807, .vunzip 23 15 5),
   (0xA2000000, .sclaim 16), (0xA2E00001, .srel 23), (0xA3C10002, .mctx 30 1), (0xA0AB0803, .mrow 5 11 1),
   (0xA1934004, .mrowc 12 19 8), (0xA2767805, .mrep 19 22 15), (0xA3400006, .mzero 26), (0xA027E807, .mdrain 1 7 29),
   (0xA0000008, .mwait), (0xA7B50000, .tsld 29 21), (0xA49C0001, .tsst 4 28), (0xA563C802, .tsmv 11 3 25),
   (0xA48A0003, .tsslot 4 10), (0xA5710004, .slotts 11 17), (0xA4187005, .hrts 0 24 14), (0xA4FFA806, .tshr 7 31 21),
   (0xA8030000, .sarm 3), (0xA80A0001, .sdis 10), (0xA8110002, .sbind 17), (0xA8180003, .sunbind 24),
   (0xA9420004, .skick 10 2), (0xA8060005, .swait 6), (0xAF103000, .brd 24 16 6), (0xAFF76801, .bwr 31 23 13),
   (0xACDEA002, .bfill 6 30 20), (0xAC020003, .mbrel 2), (0xB14C0000, .cfgld 10 12), (0xB0000001, .cfgdrn),
   (0xB29A0002, .cfgset 20 26), (0xB0000003, .cfgrun), (0xB608F000, .launch 16 8 30),
   (0xF5D5AA4C, .compat 1 0x1d5aa4c)]

theorem test_decode6 : ∀ e ∈ words6, decodeTableWord 32 e.1 = some e.2 := by decide


/-! States of the tests. -/

/-- Scalar registers with values, all clean. -/
def rg (l : List (Nat × Nat)) : Regs := { s := l.map (fun e => (e.1, { val := BitVec.ofNat 64 e.2 })) }

/-- The registers of most tests: s1 is 256, s2 is 7, s4 is 2^64 − 1, and s3 carries dross. -/
def r0 : Regs := { s := [(1, { val := 256 }), (2, { val := 7 }), (3, { val := 5, dross := true }), (4, { val := BitVec.allOnes 64 })],
                   v := [(3, { val := 1, dross := 1 })] }

/-- An actor with handler RAM. -/
def a0 : Actor := { loaded := true, codeLen := 4, ramLen := 16384 }

/-- A resident graph of one actor. -/
def ga (a : Actor) : Graph := { phase := .resident, used := [0], actors := [(0, a)] }

/-- A firing of that actor with the registers `r`. -/
def fr (r : Regs) : Firing := { regs := r }

/-- The state in which tile 0 runs firing `f` of graph `g`. -/
def sg (g : Graph) (f : Firing) : State :=
  { State.reset with
    graphs := [(0, g)], jobs := [(0, { st := .resident, everLoaded := true, started := true })],
    tiles := [(0, { firing := some f })], focus := .tile 0 }

/-- A resident graph of one actor with nothing running: at its tile a boundary is due. -/
def idle (g : Graph) : State := { sg g {} with tiles := [] }

/-- A copy of actor 0. -/
def c0 : Copy := { job := 0, aid := 0, tmpl := 0, uid := 9, cxid := 77, kr := 0 }

/-- The state in which the engine of port 0 runs copy `c` with the registers `r`. -/
def se (g : Graph) (r : Regs) (c : Copy) : State :=
  { State.reset with graphs := [(0, g)], ports := [(0, { eng := { regs := r, copy := some c } })], focus := .engine 0 }

theorem runs {g : Graph} {f : Firing} (h : f.phase = .running) : Executes (sg g f) 0 f :=
  ⟨rfl, rfl, fun k e hk => by rw [h] at hk; cases hk⟩

theorem copies {g : Graph} {r : Regs} {c : Copy} : Copies (se g r c) 0 c := ⟨rfl, rfl⟩

theorem get_of_all {α : Type} {P : α → Prop} {d : α} (hd : P d) (n : Nat) : ∀ {t : Tab α}, (∀ e ∈ t, P e.2) → P (Tab.get d t n)
  | [], _ => hd
  | (k, v) :: t, h => by
    simp only [Tab.get]
    split
    · exact h (k, v) (by simp)
    · exact get_of_all hd n (fun e he => h e (by simp [he]))

theorem here {r : Regs} (h : (∀ e ∈ r.s, e.2.pend = []) ∧ ∀ e ∈ r.v, e.2.pend = []) {ss vs : List (BitVec 5)} : Here r ss vs := by
  refine ⟨fun n _ => ?_, fun n _ => get_of_all (P := fun x : VReg => x.pend = []) rfl _ h.2⟩
  simp only [Regs.rd]
  split
  · rfl
  · exact get_of_all (P := fun x : SReg => x.pend = []) rfl _ h.1

/-! Steps whose results the spec gives. -/

/-- The state that an outcome answers. -/
def after (o : Host.Outcome State Fault Refusal) : State :=
  match o with
  | .next s => s
  | _ => State.reset

/-- The firing of tile 0. -/
def firing (s : State) : Firing := ((s.tile 0).firing).getD {}

/-- The state `s` with a page table for PASID 0 that maps the first GiB onto itself, writable (R224 to R227): the PASID table
stands at 0x1000, the tables of levels 4, 3 and 2 at 0x2000, 0x3000 and 0x4000. -/
def mapped (s : State) : State :=
  { s with
    mem := { cells := [(0x1000, 0x01), (0x1001, 0x20), (0x2000, 0x01), (0x2001, 0x30), (0x3000, 0x01), (0x3001, 0x40),
                       (0x4000, 0x07), (0x4001, 0x0A)] },
    board := { s.board with tren := true, trptab := 0x1000 } }

theorem runsMapped {g : Graph} {f : Firing} (h : f.phase = .running) : Executes (mapped (sg g f)) 0 f :=
  ⟨rfl, rfl, fun k e hk => by rw [h] at hk; cases hk⟩

theorem translates {s : State} {f : Firing} {e : Int} {n : Nat} {w : Bool}
    (h : f.ticket = none ∧ canonicalSpan e n = true ∧ (State.translateAll (s.pasidOf f.job) f.failed w (.firing f.job f.aid none)
      (pieces (n + 1) e.toNat n) s).1.2 = none) : ∃ ps s1, Translates s f e n w ps s1 := by
  obtain ⟨h1, h2, h3⟩ := h
  exact ⟨_, _, h1, h2, Prod.ext (Prod.ext rfl h3) rfl⟩

/-- An actor with an inbound endpoint 1 and an outbound endpoint 2, each with rate 2. -/
def aCh : Actor := { a0 with ins := [(1, 2)], inCh := [(1, 0)], outs := [(2, 2)], outCh := [(2, [1])] }

/-- A graph of that actor with its channels, 8 bytes wide: two tokens are there. -/
def gCh : Graph :=
  { ga aCh with chans := [(0, { dst := .actor 0 1, width := 8, cap := 4, buf := [{ data := 0x1122334455667788 }, { null := true }] }),
                          (1, { src := .actor 0 2, width := 8, cap := 4 })] }

/-! Lane sets. MAIN 2 is INT32 and 7 is FP32, ALT 5 has sixteen bits, and MODE 0, 1, 2 and 3 are SIMD, stream,
online and join (R186, R362). -/

/-- Sixteen elements with one configuration word. -/
def lanes (cfg : W32) : LaneSet := { cfg := (List.range 16).map (fun n => (n, cfg)) }

/-- A firing with registers `r` and a lane set. -/
def fl (r : Regs) (l : LaneSet) : Firing := { regs := r, lane := l }

theorem laneRuns {g : Graph} {f : Firing} {mode : LaneSet → Bool} (h : f.phase = .running ∧ f.drained = false ∧ mode f.lane = true) :
    LaneRuns (sg g f) 0 f mode := ⟨runs h.1, h.2.1, h.2.2⟩

theorem clean_of {f : Nat → Byte × Bool} (h : ∀ i < 64, (f i).2 = false) : ∀ b ∈ (List.range 64).map f, b.2 = false := by
  intro b hb
  obtain ⟨i, hi, rfl⟩ := List.mem_map.1 hb
  exact h i (List.mem_range.1 hi)

/-! Scalar instructions. -/

theorem witness_ScalarRegisterRules : (1 : BitVec 5) ≠ 0 ∧ (2 : BitVec 5) ≠ 1 := by decide +kernel

theorem witness_ScalarResults :
    (Executes (sg (ga a0) (fr r0)) 0 (fr r0) ∧ Here (fr r0).regs [1, 2] []) ∧
    (Copies (se (ga a0) r0 c0) 0 c0 ∧ Here ((se (ga a0) r0 c0).port 0).eng.regs [1, 2] []) :=
  ⟨⟨runs rfl, here (by decide +kernel)⟩, copies, here (by decide +kernel)⟩

theorem witness_BranchesAndJumps :
    Executes (sg (ga a0) (fr r0)) 0 (fr r0) ∧ Here (fr r0).regs [1, 2] [] ∧
    (∀ e ∈ branchRows, ∃ a b c d : BitVec 5, e.2 (r0.val a) (r0.val b) ∧ ¬ e.2 (r0.val c) (r0.val d) ∧
      r0.drossS a = false ∧ r0.drossS b = false ∧ r0.drossS c = false ∧ r0.drossS d = false) := by
  refine ⟨runs rfl, here (by decide +kernel), ?_⟩
  simp only [branchRows, List.forall_mem_cons]
  exact ⟨⟨2, 2, 1, 2, by decide +kernel⟩, ⟨1, 2, 2, 2, by decide +kernel⟩, ⟨4, 1, 1, 4, by decide +kernel⟩, ⟨1, 4, 4, 1, by decide +kernel⟩,
    ⟨1, 4, 4, 1, by decide +kernel⟩, ⟨4, 1, 1, 4, by decide +kernel⟩, by simp⟩

theorem witness_CsrAccess :
    Executes (sg (ga a0) (fr r0)) 0 (fr r0) ∧ (sg (ga a0) (fr r0)).csr 0 (fr r0) 0x022 = some 0 ∧
    Here (fr r0).regs [2] [] ∧ r0.drossS 2 = false ∧
    (FKind.completion 5 1 ≠ .ordinary ∧ ∀ x y, (fr r0).kind ≠ .completion x y) ∧ (∀ c, (fr r0).kind ≠ .fault c) :=
  ⟨runs rfl, by decide +kernel, here (by decide +kernel), by decide +kernel, ⟨by decide +kernel, by simp [fr]⟩, by simp [fr]⟩

theorem witness_ScalarTraps :
    Executes (sg (ga a0) (fr r0)) 0 (fr r0) ∧ Here (fr r0).regs [1, 2, 3] [] ∧ r0.drossS 3 = true ∧ r0.drossS 1 = false ∧
    (sg (ga a0) (fr r0)).csr 0 (fr r0) (0x023 : BitVec 12).toNat = none ∧ (0x022 : BitVec 12) ≠ 0x014 ∧ (0x022 : BitVec 12) ≠ 0x015 ∧
    (∀ n ∈ [1, 2, 4, 8], ¬ InRam (sg (ga a0) (fr r0)) (fr r0) (ea (r0.val 4) 0 n) n) ∧
    (∀ n ∈ [1, 2, 4, 8], InRam (sg (ga a0) (fr (rg [(1, 16384 - n)]))) (fr (rg [(1, 16384 - n)])) (ea ((rg [(1, 16384 - n)]).val 1) 0 n) n ∧
      ¬ InRam (sg (ga a0) (fr (rg [(1, 16384 - n)]))) (fr (rg [(1, 16384 - n)])) (ea ((rg [(1, 16384 - n)]).val 1) 1 n) n) :=
  ⟨runs rfl, here (by decide +kernel), by decide +kernel, by decide +kernel, by decide +kernel, by decide +kernel, by decide +kernel, by unfold InRam; decide +kernel, by unfold InRam; decide +kernel⟩

/-- The last bytes of handler RAM, which a load may take; no copy is under way. -/
theorem witness_HandlerRamLoads :
    let f := fr (rg [(1, 16384 - 64)])
    Executes (sg (ga a0) f) 0 f ∧ Here f.regs [1] [] ∧ f.regs.drossS 1 = false ∧
    InRam (sg (ga a0) f) f (ea (f.regs.val 1) 0 64) 64 ∧ NoInEntry (sg (ga a0) f) f (ea (f.regs.val 1) 0 64) 64 ∧
    (∀ n ∈ [1, 2, 4, 8], InRam (sg (ga a0) f) f (ea (f.regs.val 1) 1 n) n) :=
  ⟨runs rfl, here (by decide +kernel), by decide +kernel, by unfold InRam; decide +kernel, by unfold NoInEntry; decide +kernel, by unfold InRam; decide +kernel⟩

theorem witness_HandlerRamStores :
    let f := fr (rg [(1, 16384 - 64), (2, 5)])
    Executes (sg (ga a0) f) 0 f ∧ Here f.regs [1, 2] [1] ∧ f.regs.drossS 1 = false ∧ (14 : BitVec 4) ≠ 15 ∧
    InRam (sg (ga a0) f) f (ea (f.regs.val 1) 0 64) 64 ∧ NoEntry (sg (ga a0) f) f (ea (f.regs.val 1) 0 64) 64 ∧
    (∀ n ∈ [1, 2, 4, 8], InRam (sg (ga a0) f) f (ea (f.regs.val 1) 1 n) n) ∧ f.entries + 2 ≤ 64 :=
  ⟨runs rfl, here (by decide +kernel), by decide +kernel, by decide +kernel, by unfold InRam; decide +kernel, by unfold NoEntry; decide +kernel, by unfold InRam; decide +kernel, by decide +kernel⟩

/-! Global accesses, channels, atomics, fences and barriers. -/

theorem witness_GlobalLoads :
    let f := fr (rg [(1, 0x10000), (2, 0xFFC4)])
    Executes (mapped (sg (ga a0) f)) 0 f ∧ Here f.regs [1, 2] [] ∧ f.regs.drossS 1 = false ∧
    (∀ n ∈ [1, 2, 4, 8], ∃ ps s1, Translates (mapped (sg (ga a0) f)) f (ea (f.regs.val 2) 3 n) n false ps s1) ∧
    (∃ ps s1, Translates (mapped (sg (ga a0) f)) f (ea (f.regs.val 2) 0 64) 64 false ps s1) := by
  refine ⟨runsMapped rfl, here (by decide +kernel), by decide +kernel, ?_, translates (by decide +kernel)⟩
  intro n hn
  apply translates
  revert n hn
  decide +kernel

theorem witness_GlobalStores :
    let f := fr (rg [(1, 0x10000), (2, 0x12345)])
    Executes (mapped (sg (ga a0) f)) 0 f ∧ Here f.regs [1, 2] [1] ∧ f.regs.drossS 1 = false ∧ f.entries + 2 ≤ 64 ∧
    (∀ n ∈ [1, 2, 4, 8], ∃ ps s1, Translates (mapped (sg (ga a0) f)) f (ea (f.regs.val 1) 0x1FF n) n true ps s1) ∧
    (∃ ps s1, Translates (mapped (sg (ga a0) f)) f (ea (f.regs.val 1) 0 64) 64 true ps s1 ∧ ∀ p ∈ ps, ∀ off, p.tgt ≠ .reg off) := by
  refine ⟨runsMapped rfl, here (by decide +kernel), by decide +kernel, by decide +kernel, ?_, ?_⟩
  · intro n hn
    apply translates
    revert n hn
    decide +kernel
  · refine ⟨_, _, ⟨rfl, by decide +kernel, Prod.ext (Prod.ext rfl (by decide +kernel)) rfl⟩, ?_⟩
    have h : ∀ p ∈ (State.translateAll 0 [] true (.firing 0 0 none) (pieces 65 0x10000 64)
        (mapped (sg (ga a0) (fr (rg [(1, 0x10000), (2, 0x12345)]))))).1.1,
        (match p.tgt with
          | .reg _ => false
          | _ => true) = true := by decide +kernel
    intro p hp off he
    have := h p hp
    rw [he] at this
    cases this

theorem witness_ChannelReads :
    let f := fr (rg [(1, 1)])
    let s := sg gCh f
    Executes s 0 f ∧ f.kind = .ordinary ∧ (s.actor 0 0).cRate 1 = some 2 ∧ (s.actor 0 0).pRate 2 = some 2 ∧
    (s.graph 0).wIn (s.actor 0 0) 1 ≤ 8 ∧ Tab.get 0 f.ridx 1 < 2 ∧ Here f.regs [1] [] ∧ f.regs.drossS 1 = false ∧ (f.regs.val 1).toNat < 2 :=
  ⟨runs rfl, rfl, by decide +kernel, by decide +kernel, by decide +kernel, by decide +kernel, here (by decide +kernel), by decide +kernel,
    by decide +kernel⟩

theorem witness_SendResults :
    let f := fr (rg [(1, 2)])
    let s := sg gCh f
    Executes s 0 f ∧ f.kind = .ordinary ∧ (s.actor 0 0).pRate 2 = some 2 ∧ Here f.regs [1, 2] [1] ∧ f.regs.drossS 1 = false ∧
    Tab.get 0 f.sent 2 < 2 ∧ (s.graph 0).wOut (s.actor 0 0) 2 ≤ 8 ∧ Tab.get 0 f.sent 2 + (f.regs.val 1).toNat ≤ 2 :=
  ⟨runs rfl, rfl, by decide +kernel, here (by decide +kernel), by decide +kernel, by decide +kernel, by decide +kernel, by decide +kernel⟩

theorem witness_ChannelTraps :
    (let f : Firing := { kind := .completion 0 0 }; Executes (sg gCh f) 0 f ∧ Here f.regs [1, 2] [1] ∧ f.kind ≠ .ordinary) ∧
    (let f : Firing := { ridx := [(1, 2)], sent := [(2, 2)] }
     let s := sg gCh f
     Executes s 0 f ∧ Here f.regs [1, 2] [1] ∧ f.kind = .ordinary ∧ (s.actor 0 0).cRate 0 = none ∧ (s.actor 0 0).pRate 0 = none ∧
       (s.actor 0 0).cRate 1 = some 2 ∧ 2 ≤ Tab.get 0 f.ridx 1 ∧ (s.graph 0).wIn (s.actor 0 0) 1 ≤ 8 ∧
       (s.actor 0 0).pRate 2 = some 2 ∧ 2 ≤ Tab.get 0 f.sent 2) :=
  ⟨⟨runs rfl, here (by decide +kernel), by simp⟩, runs rfl, here (by decide +kernel), rfl, by decide +kernel, by decide +kernel,
    by decide +kernel, by decide +kernel, by decide +kernel, by decide +kernel, by decide +kernel⟩

theorem witness_AtomicIssue :
    let f := fr (rg [(1, 0x10000)])
    Executes (mapped (sg (ga a0) f)) 0 f ∧ Here f.regs [1, 2, 3] [] ∧ f.regs.drossS 1 = false ∧ (f.regs.val 1).toNat % 8 = 0 ∧
    f.entries + 1 ≤ 64 ∧ (3 : BitVec 5) ≠ 0 ∧ ∃ ps s1, Translates (mapped (sg (ga a0) f)) f (f.regs.val 1).toNat 8 true ps s1 :=
  ⟨runsMapped rfl, here (by decide +kernel), by decide +kernel, by decide +kernel, by decide +kernel, by decide +kernel,
    translates (by decide +kernel)⟩

theorem witness_AtomicResults :
    (8 : Nat) % 8 = 0 ∧ ({ bad := [1] } : Memory).isBad (8 / 8) = true ∧ ({} : Memory).isBad (8 / 8) = false := by decide +kernel

/-- Firings at an alloy with one barrier, whose generation 0 is open. -/
theorem witness_SyncInstructions :
    let g : Graph := { ga a0 with alloys := [(0, { members := [0], barriers := 1 })] }
    let f : Firing := fr (rg [(1, 65535), (2, 65536)])
    let b : Firing := { phase := .bar 0 false }
    let c : Firing := { phase := .bar 0 true }
    let w : State := { sg g f with inflight := [{ id := 5, src := .firing 0 0, cls := 0, kind := .store [], tgt := .none 0 }] }
    Executes (sg g f) 0 f ∧ Executes w 0 f ∧ Executes (sg g b) 0 b ∧ Executes (sg g c) 0 c ∧ Here f.regs [1, 2] [] ∧
    f.regs.drossS 1 = false ∧ f.regs.drossS 2 = false ∧ (w.own f).any Access.writes = true ∧ ((sg g f).own f).any Access.writes = false ∧
    (let al := Tab.get {} ((sg g f).graph 0).alloys ((sg g f).actor 0 0).alloy
     (0 : BitVec 5).toNat < al.barriers ∧ al.barriers ≤ (1 : BitVec 5).toNat ∧ (sg g f).flying 0 0 = [] ∧
       Tab.get 0 al.gens 0 ≤ Tab.get 0 f.gens 0) ∧
    (sg g f).matchTable 0 { f with tags := f.tags ++ [(65535, true)] } ≤ 16 ∧
    (f.regs.val 1).toNat < 65536 ∧ 65536 ≤ (f.regs.val 2).toNat := by
  refine ⟨runs rfl, ⟨rfl, rfl, fun k e h => by cases h⟩, ?_, ?_, here (by decide +kernel), ?_⟩
  · exact ⟨rfl, rfl, fun k e h => by cases h⟩
  · exact ⟨rfl, rfl, fun k e h => by cases h⟩
  · decide +kernel

/-! The lane array. -/

theorem witness_IntegerLanes :
    let f := fl r0 (lanes 0x20020000)
    LaneRuns (sg (ga a0) f) 0 f LaneSet.simd ∧ Here f.regs [] [1, 2, 3] ∧ InClass f none isIntFmt :=
  ⟨laneRuns (by decide +kernel), here (by decide +kernel), by unfold InClass; decide +kernel⟩

theorem witness_LaneCompares :
    (let f := fl r0 (lanes 0x20020000)
     LaneRuns (sg (ga a0) f) 0 f LaneSet.simd ∧ Here f.regs [] [1, 2] ∧ InClass f none isIntFmt ∧
       ∀ i ∈ enabled f none, valueX (f.regs.rdV 1) f.lane.w i = false ∧ valueX (f.regs.rdV 2) f.lane.w i = false) ∧
    (let f := fl r0 (lanes 0x70020000)
     LaneRuns (sg (ga a0) f) 0 f LaneSet.simd ∧ Here f.regs [] [1, 2] ∧ InClass f none isFloatFmt ∧
       ∀ i ∈ enabled f none, valueX (f.regs.rdV 1) f.lane.w i = false ∧ valueX (f.regs.rdV 2) f.lane.w i = false) :=
  ⟨⟨laneRuns (by decide +kernel), here (by decide +kernel), by unfold InClass; decide +kernel, by decide +kernel⟩,
    laneRuns (by decide +kernel), here (by decide +kernel), by unfold InClass; decide +kernel, by decide +kernel⟩

theorem witness_FloatResults :
    let f := fl r0 (lanes 0x70020000)
    LaneRuns (sg (ga a0) f) 0 f LaneSet.simd ∧ Here f.regs [] [1, 2, 3] ∧ InClass f none isFloatFmt ∧
    ∀ i ∈ enabled f none, 1 + (eltAt f i 0).ff.ebits + (eltAt f i 0).ff.mbits = 8 * f.lane.w :=
  ⟨laneRuns (by decide +kernel), here (by decide +kernel), by unfold InClass; decide +kernel, by decide +kernel⟩

theorem witness_Reductions :
    let f := fl r0 (lanes 0x20020000)
    LaneRuns (sg (ga a0) f) 0 f LaneSet.simd ∧ Here f.regs [] [3] ∧ InClass f none isIntFmt :=
  ⟨laneRuns (by decide +kernel), here (by decide +kernel), by unfold InClass; decide +kernel⟩

theorem witness_Predicates : Executes (sg (ga a0) (fr r0)) 0 (fr r0) ∧ Here (fr r0).regs [1] [] ∧ (fr r0).regs.drossS 1 = false :=
  ⟨runs rfl, here (by decide +kernel), by decide +kernel⟩

/-- The last of sixteen values. -/
theorem witness_MoveResults :
    let f := fl (rg [(1, 15)]) (lanes 0x70020000)
    LaneRuns (sg (ga a0) f) 0 f LaneSet.simd ∧ Here f.regs [1, 2] [1, 2, 3] ∧ f.regs.drossS 1 = false ∧ (f.regs.val 1).toNat < f.lane.n ∧
    Executes (sg (ga a0) f) 0 f ∧ f.drained = false :=
  ⟨laneRuns (by decide +kernel), here (by decide +kernel), by decide +kernel, by decide +kernel, runs rfl, rfl⟩

theorem witness_LaneModeTraps :
    (let f : Firing := { lane := lanes 0x20020000, drained := true }; Executes (sg (ga a0) f) 0 f ∧ Here f.regs [] [1, 2, 3]) ∧
    (let f := fl {} (lanes 0x200A0000); Executes (sg (ga a0) f) 0 f ∧ Here f.regs [] [1, 2, 3] ∧ LaneSet.simd f.lane = false) ∧
    (let f := fl {} (lanes 0x70020000); Executes (sg (ga a0) f) 0 f ∧ Here f.regs [] [1, 2, 3] ∧ ¬ InClass f none isIntFmt) ∧
    (let f := fl {} (lanes 0x20020000); Executes (sg (ga a0) f) 0 f ∧ Here f.regs [] [1, 2, 3] ∧ ¬ InClass f none isFloatFmt) ∧
    (let f := fl r0 (lanes 0x20020000)
     LaneRuns (sg (ga a0) f) 0 f LaneSet.simd ∧ Here f.regs [] [2, 3] ∧ InClass f none isIntFmt ∧
       ∃ i ∈ enabled f none, valueX (f.regs.rdV 3) f.lane.w i = true ∨ valueX (f.regs.rdV 2) f.lane.w i = true) :=
  ⟨⟨runs rfl, here (by decide +kernel)⟩, ⟨runs rfl, here (by decide +kernel), by decide +kernel⟩,
    ⟨runs rfl, here (by decide +kernel), by unfold InClass; decide +kernel⟩,
    ⟨runs rfl, here (by decide +kernel), by unfold InClass; decide +kernel⟩,
    laneRuns (by decide +kernel), here (by decide +kernel), by unfold InClass; decide +kernel, 0, by decide +kernel⟩

theorem witness_Conversions :
    let f := fl (rg [(1, 2 ^ 32)]) (lanes 0x75020000)
    LaneRuns (sg (ga a0) f) 0 f LaneSet.simd ∧ Here f.regs [1] [1, 2] ∧ PlainAlt f.lane ∧ PartOk 32 16 1 ∧ ¬ PartOk 32 16 2 ∧
    PartOk 16 32 1 ∧ ¬ PartOk 16 32 2 ∧ 8 * f.lane.w = 32 ∧ fmtBits (f.lane.alt 0) = 16 ∧ f.regs.drossS 1 = false ∧
    (f.regs.val 1).toNat / 2 ^ 32 = 1 :=
  ⟨laneRuns (by decide +kernel), here (by decide +kernel), by unfold PlainAlt; decide +kernel, by unfold PartOk; decide +kernel,
    by unfold PartOk; decide +kernel, by unfold PartOk; decide +kernel, by unfold PartOk; decide +kernel, by decide +kernel⟩

theorem witness_MicroscaledBlocks :
    (let f := fl r0 (lanes 0x7B020000)
     LaneRuns (sg (ga a0) f) 0 f LaneSet.simd ∧ Here f.regs [] [1, 2, 30, 31] ∧ BlockOk f.lane 0 30 ∧ ¬ BlockOk f.lane 0 31) ∧
    (let f := fl r0 (lanes 0x3C000000)
     LaneRuns (sg (ga a0) f) 0 f LaneSet.simd ∧ Here f.regs [] [1, 2, 31] ∧ BlockOk f.lane 1 31) :=
  ⟨⟨laneRuns (by decide +kernel), here (by decide +kernel), by unfold BlockOk; decide +kernel, by unfold BlockOk; decide +kernel⟩,
    laneRuns (by decide +kernel), here (by decide +kernel), by unfold BlockOk; decide +kernel⟩

/-- Group 0 holds a value with dross, and groups 8 and 16 are clean. -/
theorem witness_GroupInstructions :
    (let f := fl r0 (lanes 0x70020000)
     LaneRuns (sg (ga a0) f) 0 f LaneSet.simd ∧ GroupsHere f.regs [8] ∧ Here f.regs [] [1] ∧ (8 : BitVec 5).toNat % 8 = 0) ∧
    (let f := fl r0 (lanes 0x700A0000)
     LaneRuns (sg (ga a0) f) 0 f LaneSet.online ∧ GroupsHere f.regs [0, 8, 16] ∧ (16 : BitVec 5).toNat % 8 = 0 ∧ (0 : BitVec 5).toNat % 8 = 0 ∧
       1 ≤ (8 : BitVec 5).toNat ∧ (8 : BitVec 5).toNat ≤ 8 ∧ (∀ j < 64, groupX f.regs 8 j = false ∧ groupX f.regs 16 j = false) ∧
       ∃ j < 64, groupX f.regs 0 j = true ∨ groupX f.regs 8 j = true) :=
  ⟨⟨laneRuns (by decide +kernel), fun _ _ => here (by decide +kernel), here (by decide +kernel), by decide +kernel⟩,
    laneRuns (by decide +kernel), fun _ _ => here (by decide +kernel), by decide +kernel, by decide +kernel, by decide +kernel,
    by decide +kernel, by decide +kernel, 0, by decide +kernel⟩

theorem witness_IngotResults :
    let f := fl r0 (lanes 0x70020000)
    LaneRuns (sg (ga a0) f) 0 f LaneSet.simd ∧ Executes (sg (ga a0) f) 0 f ∧ Here f.regs [] [1, 2] ∧ InClass f none isFloatFmt ∧
    2 ≤ (2 : BitVec 5).toNat :=
  ⟨laneRuns (by decide +kernel), runs rfl, here (by decide +kernel), by unfold InClass; decide +kernel, by decide +kernel⟩

/-- v1 holds +∞ first; p0 enables that value alone and p1 none. -/
theorem witness_GritInstructions :
    let f := fl { v := [(1, { val := 0x7F800000 })], p := [(0, 1)] } (lanes 0x70020000)
    let x := fun i => decodeFmt (f.lane.main (i * f.lane.w / 4)) (value (f.regs.rdV 1).val f.lane.w i)
    let able := fun p => (enabled f p).filter (fun i => decide (x i ≠ .nan) && decide (x i ≠ .inf true))
    LaneRuns (sg (ga a0) f) 0 f LaneSet.simd ∧ Executes (sg (ga a0) f) 0 f ∧ f.drained = false ∧ Here f.regs [2] [1] ∧
    f.regs.drossS 2 = false ∧ f.regs.val 2 = 0 ∧ (able (some 0) = [0] ∧ x 0 = .inf false) ∧ able (some 1) = [] :=
  ⟨laneRuns (by decide +kernel), runs rfl, rfl, here (by decide +kernel), by decide +kernel, by decide +kernel, by decide +kernel,
    by decide +kernel⟩

/-- An actor with two inbound endpoints of 8 bytes and one outbound endpoint of 16, and inputs in ascending order. -/
def gJoin (p : Nat) : Graph :=
  { ga { a0 with ins := [(1, 2), (2, 1)], inCh := [(1, 0), (2, 1)], outs := [(3, p)], outCh := [(3, [2])] } with
    chans := [(0, { width := 8, cap := 4, buf := [{ data := 0x500000001 }, { data := 0x600000002 }] }),
              (1, { width := 8, cap := 4, buf := [{ data := 0x700000002 }] }), (2, { width := 16, cap := 4 })] }

theorem witness_JoinResults :
    let f := fl {} { cfg := (List.range 16).map (fun n => (n, if n = 15 then 0x700E0000 else 0x70020000)) }
    ∀ p ∈ [3, 2],
    let s := sg (gJoin p) f
    let g := s.graph 0
    let x := s.actor 0 0
    LaneRuns s 0 f LaneSet.join ∧ f.kind = .ordinary ∧ x.cRate 1 = some 2 ∧ x.cRate 2 = some 1 ∧ x.pRate 3 = some p ∧
    g.wIn x 1 = 8 ∧ g.wIn x 2 = 8 ∧ g.wOut x 3 = 16 ∧ (p = 3 → Tab.get 0 f.sent 3 + ((2 - 0) + (1 - 0)) ≤ p) ∧
    (p = 2 → p < Tab.get 0 f.sent 3 + ((2 - 0) + (1 - 0))) ∧
    ([g.token x 1 0, g.token x 1 1].Pairwise (fun y z => coord y < coord z)) := by
  intro f p hp
  refine ⟨laneRuns (by decide +kernel), rfl, ?_⟩
  revert p hp
  decide +kernel

/-! Stream runs, the matrix unit, tile copies and configuration. -/

/-- Element 0 runs in MODE 1 from endpoint 1 to endpoint 2, passing INT32 values on (R317, R318). -/
def passing : LaneSet :=
  { cfg := (List.range 16).map (fun n => (n, if n = 0 then 0x20060000 else 0x20020000)), sw := [(0, 0x4010), (1, 0x8200)] }

/-- The graph of `aCh` with channels 4 bytes wide. -/
def gSt : Graph := { ga aCh with chans := [(0, { width := 4, cap := 4, buf := [{ data := 7 }, { data := 8 }] }), (1, { width := 4, cap := 4 })] }

theorem witness_StreamRuns :
    (let f := { fl (rg [(1, 2)]) passing with run := some { k := 1 } }
     LaneRuns (sg gSt f) 0 f LaneSet.stream ∧ Here f.regs [1] [] ∧ ∃ r, f.run = some r ∧ r.finished f.lane = false) ∧
    (let f := { fl { s := [(1, { dross := true })] } passing with run := some { k := 0 } }
     LaneRuns (sg gSt f) 0 f LaneSet.stream ∧ Here f.regs [1] [] ∧ f.regs.drossS 1 = true ∧ ∀ r, f.run = some r → r.finished f.lane = true) ∧
    (let f := fl (rg [(1, 65536)]) passing
     LaneRuns (sg gSt f) 0 f LaneSet.stream ∧ Here f.regs [1] [] ∧ f.run = none ∧ f.regs.drossS 1 = false ∧ ¬ (f.regs.val 1).toNat < 65536) ∧
    (∀ k ∈ [2, 3],
     let f := fl (rg [(1, k)]) passing
     let s := sg gSt f
     let l := f.lane
     let g := s.graph 0
     let x := s.actor 0 0
     LaneRuns s 0 f LaneSet.stream ∧ Here f.regs [1] [] ∧ f.kind = .ordinary ∧ f.regs.drossS 1 = false ∧ (f.regs.val 1).toNat = k ∧ k < 65536 ∧
       l.insUsed = [1] ∧ l.outsUsed = [2] ∧ g.wIn x 1 = 4 ∧ g.wOut x 2 = 4 ∧
       (∀ n ∈ l.runners, opClass (l.opFp n) (l.opFunc n) (l.main n) = true) ∧ x.cRate 1 = some 2 ∧ x.pRate 2 = some 2 ∧
       (k = 2 → Tab.get 0 f.ridx 1 + k ≤ 2 ∧ Tab.get 0 f.sent 2 + k ≤ 2) ∧ (k = 3 → 2 < Tab.get 0 f.ridx 1 + k)) ∧
    (let f : Firing := {}; Executes (sg gSt f) 0 f ∧ f.drained = false ∧ f.run = none) := by
  refine ⟨⟨laneRuns (by decide +kernel), here (by decide +kernel), _, rfl, by decide +kernel⟩,
    ⟨laneRuns (by decide +kernel), here (by decide +kernel), by decide +kernel, fun r h => by cases h; decide +kernel⟩,
    ⟨laneRuns (by decide +kernel), here (by decide +kernel), by decide +kernel⟩, ?_, runs rfl, by decide +kernel⟩
  intro k hk
  refine ⟨laneRuns ?_, here ?_, rfl, ?_⟩ <;> (revert k hk; decide +kernel)

/-- An actor with one slot claimed and one not, both of FP32, a context of FP32 and one of FP16, sixteen rows, a repeat node and
an inbound endpoint of rows. -/
def aMat : Actor :=
  { a0 with
    rows := 16, slots := [(1, { fmt := 7, claimed := true }), (2, { fmt := 7 })],
    ctxs := [(0, { word := 0x77000000 })], nodes := [(3, { rowCh := 0, cntCh := 1, group := 1, toks := 4 })],
    ins := [(1, 4)], inCh := [(1, 0)] }

/-- A graph of that actor. -/
def gMat : Graph := { ga aMat with chans := [(0, { width := 64, cap := 8 })] }

/-- The tile's slots are full, and handle 24 is not claimed. -/
def aFull : Actor := { a0 with slots := (List.range 25).map (fun n => (n, { claimed := decide (n < 24) })) }

theorem witness_MatrixIssue :
    (let f : Firing := {}
     let s := sg gMat f
     Executes s 0 f ∧ (∃ y, Tab.find (s.actor 0 0).slots 1 = some y ∧ y.claimed = true ∧ y.fmt = 7) ∧
       (∃ y, Tab.find (s.actor 0 0).slots 2 = some y ∧ y.claimed = false) ∧ s.freeSlots 0 ≠ 0 ∧ Tab.find (s.actor 0 0).slots 3 = none ∧
       (∃ m, Tab.find (s.actor 0 0).ctxs 0 = some m ∧ m.bfmt = 7) ∧ Tab.find (s.actor 0 0).ctxs 1 = none) ∧
    (let f : Firing := {}
     Executes (sg (ga aFull) f) 0 f ∧ (sg (ga aFull) f).freeSlots 0 = 0 ∧
       ∃ y, Tab.find ((sg (ga aFull) f).actor 0 0).slots 24 = some y ∧ y.claimed = false) ∧
    (∀ e ∈ [(12, 4), (13, 4), (16, 0)],
     let f : Firing := { regs := rg [(1, e.1), (2, 63 * 2 ^ 16 + e.2)], bbind := [(0, 1)] }
     let s := sg gMat f
     let x := s.actor 0 0
     Executes s 0 f ∧ Here f.regs [1, 2] [] ∧ f.regs.drossS 1 = false ∧ f.regs.drossS 2 = false ∧ (Tab.find x.ctxs 0).isSome = true ∧
       Tab.find f.bbind 0 = some 1 ∧ RowDesc (f.regs.val 2) 63 e.2 ∧ f.mwork = [] ∧ (f.regs.val 1).toNat = e.1 ∧ x.rows = 16) ∧
    (∀ n ∈ [1, 2],
     let f : Firing := { regs := rg [(2, n)], bbind := [(0, 1)] }
     let s := sg gMat f
     let x := s.actor 0 0
     Executes s 0 f ∧ RowDesc (f.regs.val 2) 0 n ∧ f.kind = .ordinary ∧ x.cRate 1 = some 4 ∧ (s.graph 0).wIn x 1 = 64 ∧
       (Tab.find x.nodes 3).isSome = true ∧ (∀ e ∈ x.ctxs, rowLen e.2.afmt = rowLen 7) ∧
       (let k := n * ((8 * fmtBits 7 + 0 + 63) / 64); (n = 1 → k ≤ 4) ∧ (n = 2 → 4 < k))) := by
  refine ⟨⟨runs rfl, ⟨_, rfl, by decide +kernel⟩, ⟨_, rfl, by decide +kernel⟩, by decide +kernel, by decide +kernel,
      ⟨_, rfl, by decide +kernel⟩, by decide +kernel⟩,
    ⟨runs rfl, by decide +kernel, _, rfl, by decide +kernel⟩, ?_, ?_⟩
  · intro e he
    refine ⟨runs rfl, here ?_, ?_, ?_, ?_, rfl, ?_, rfl, ?_, rfl⟩ <;> (try unfold RowDesc) <;> (revert e he; decide +kernel)
  · intro n hn
    refine ⟨runs rfl, ?_, rfl, ?_, ?_, ?_, ?_, ?_⟩ <;> (try unfold RowDesc) <;> (revert n hn; decide +kernel)

/-- An actor of 64 rows with a context of FP32 and one of INT8, and a claimed slot. -/
def aTile : Actor :=
  { a0 with rows := 64, ctxs := [(0, { word := 0x77000000 }), (1, { word := 0x00800000 })], slots := [(1, { fmt := 7, claimed := true })] }

theorem witness_MatrixResults :
    (∀ r ∈ [0, 1], ∀ e ∈ [(0, 7), (1, 2)],
     let f := fr (rg [(1, r), (2, e.2 * 2 ^ 16 + 64 * 2 ^ 8 + 63)])
     let s := sg (ga aTile) f
     let x := s.actor 0 0
     Executes s 0 f ∧ Quiet s f ∧ Here f.regs [1, 2] [] ∧ f.regs.drossS 1 = false ∧ f.regs.drossS 2 = false ∧ e.1 < 4 ∧
       (∃ m, Tab.find x.ctxs e.1 = some m ∧ m.int = decide (e.1 = 1) ∧ (if m.int then e.2 ∈ [0, 1, 2] else e.2 ∈ [3, 4, 5, 6, 7])) ∧
       (f.regs.val 2).toNat = 0 + e.2 * 2 ^ 16 + 64 * 2 ^ 8 + 63 ∧ (f.regs.val 1).toNat = r ∧ x.rows = 64) ∧
    (let f : Firing := { mwork := [.rows 0 1 (.tstore 0) 0 1 0 0] }
     Executes (sg (ga aTile) f) 0 f ∧ f.mwork ≠ [] ∧ ∀ w ∈ f.mwork, ∃ c h src base n pc is, w = .rows c h src base n pc is) := by
  refine ⟨?_, runs rfl, by decide +kernel, ?_⟩
  · intro r hr e he
    refine ⟨runs rfl, ⟨rfl, rfl⟩, here ?_, ?_, ?_, ?_, ?_, ?_, ?_, rfl⟩
    case refine_5 =>
      simp only [List.mem_cons, List.not_mem_nil, or_false] at he
      rcases he with rfl | rfl
      · exact ⟨_, rfl, by decide +kernel⟩
      · exact ⟨_, rfl, by decide +kernel⟩
    all_goals (revert r hr e he; decide +kernel)
  · intro w hw
    simp only [List.mem_singleton] at hw
    subst hw
    exact ⟨_, _, _, _, _, _, _, rfl⟩

/-- The last 64 bytes of the tile store and the first past it; the last row; handler RAM to its end; a whole slot. -/
theorem witness_TileCopies :
    (∀ a ∈ [63 * 64 + 48, 64 * 64],
     let f := fr (rg [(1, a), (2, 0), (3, 16320)])
     let s := sg (ga aTile) f
     Executes s 0 f ∧ Here f.regs [3, 1, 2] [3] ∧ Quiet s f ∧ f.regs.drossS 1 = false ∧ f.regs.drossS 2 = false ∧ f.regs.drossS 3 = false ∧
       (∃ lo, TileAddr (f.regs.val 1) lo ∧ (f.regs.val 1).toNat % 16 = 0 ∧ (a = 63 * 64 + 48 → lo + 64 = 256 * 64) ∧
         (a = 64 * 64 → 256 * 64 < lo + 64))) ∧
    (let f := fr (rg [(1, 63), (2, 1), (3, 0)])
     let s := sg (ga aTile) f
     Executes s 0 f ∧ Here f.regs [3, 1, 2] [3] ∧ (f.regs.val 2).toNat ≤ 8192 ∧ (f.regs.val 1).toNat + (f.regs.val 2).toNat ≤ (s.actor 0 0).rows ∧
       (f.regs.val 3).toNat + (f.regs.val 2).toNat ≤ (s.actor 0 0).rows) ∧
    (let f := fr (rg [(1, 16384 - 4), (2, 4), (3, 63 * 64 + 63)])
     let s := sg (ga aTile) f
     Executes s 0 f ∧ TileAddr (f.regs.val 3) (256 * 63 + 252) ∧ (f.regs.val 1).toNat + (f.regs.val 2).toNat ≤ (s.actor 0 0).ramLen ∧
       256 * 63 + 252 + (f.regs.val 2).toNat ≤ 256 * (s.actor 0 0).rows ∧ f.entries + (f.regs.val 2).toNat / 64 + 2 ≤ 64) ∧
    (let f : Firing := {}
     let s := sg (ga aTile) f
     Executes s 0 f ∧ (∃ y, Tab.find (s.actor 0 0).slots 1 = some y ∧ y.claimed = true) ∧ (f.regs.val 1).toNat + 64 ≤ (s.actor 0 0).rows) := by
  refine ⟨?_, ⟨runs rfl, here (by decide +kernel), by decide +kernel⟩, ⟨runs rfl, by unfold TileAddr; decide +kernel, by decide +kernel⟩,
    runs rfl, ⟨_, rfl, rfl⟩, by decide +kernel⟩
  intro a ha
  refine ⟨runs rfl, here ?_, ⟨rfl, rfl⟩, ?_, ?_, ?_, 256 * (a / 64) + 4 * (a % 64), ?_⟩ <;> (try unfold TileAddr) <;>
    (revert a ha; decide +kernel)

theorem witness_ConfigurationAndLaunch :
    (let f : Firing := { run := none }; Executes (sg (ga a0) f) 0 f ∧ f.drained = false) ∧
    (∀ e ∈ [(({} : LaneSet), true), ({ cfg := [(0, 1)] }, false)],
     let f : Firing := { drained := true, staging := e.1 }
     Executes (sg (ga a0) f) 0 f ∧ f.drained = true ∧ f.staging.valid ((sg (ga a0) f).actor 0 0) = e.2) ∧
    (let f : Firing := { drained := true, regs := rg [(1, 16320)] }
     let s := sg (ga a0) f
     Executes s 0 f ∧ Here f.regs [1] [] ∧ (2 : BitVec 5).toNat ≤ 2 ∧ f.regs.drossS 1 = false ∧ InRam s f (f.regs.val 1).toNat 64 ∧ (s.graph 0).sb = [] ∧
       ∀ b ∈ (List.range 64).map (fun i => ramByte s f ((f.regs.val 1).toNat + i)), b.2 = false) ∧
    (∀ e ∈ [(0x77000000, true), (1, false)],
     let f := fr (rg [(1, e.1)])
     let s := sg (ga aTile) f
     Executes s 0 f ∧ Here f.regs [1] [] ∧ f.regs.drossS 1 = false ∧ (Tab.find (s.actor 0 0).ctxs 0).isSome = true ∧ f.mwork = [] ∧
       ctxWordOk ((f.regs.val 1).setWidth 32) = e.2) ∧
    (∀ e ∈ [(24, 0), (23, 8192), (23, 8191)],
     let f := fr (rg [(1, 16320), (2, 5)])
     let s : State := { sg (ga a0) f with jobs := [(0, { depth := e.1 })], kiln := { poolCnt := e.2 } }
     Executes s 0 f ∧ Here f.regs [1, 2] [] ∧ f.regs.drossS 1 = false ∧ f.regs.drossS 2 = false ∧ (f.regs.val 1).toNat % 8 = 0 ∧
       InRam s f (f.regs.val 1).toNat 64 ∧ (s.graph 0).sb = [] ∧
       (let bs := (List.range 64).map (fun i => ramByte s f ((f.regs.val 1).toNat + i))
        (∀ x ∈ bs, x.2 = false) ∧ (descriptor (bs.map (·.1)) (f.regs.val 2)).isSome = true) ∧
       (s.job 0).depth = e.1 ∧ s.kiln.poolCnt = e.2) := by
  refine ⟨⟨runs rfl, rfl⟩, ?_, ⟨runs rfl, here (by decide +kernel), by decide +kernel, by decide +kernel, by unfold InRam; decide +kernel, rfl,
    clean_of (by decide +kernel)⟩, ?_, ?_⟩
  · intro e he
    refine ⟨runs rfl, rfl, ?_⟩
    revert e he
    decide +kernel
  · intro e he
    refine ⟨runs rfl, here ?_, ?_, ?_, rfl, ?_⟩ <;> (revert e he; decide +kernel)
  · intro e he
    refine ⟨⟨rfl, rfl, fun k x h => by cases h⟩, here ?_, ?_, ?_, ?_, ?_, rfl, ⟨clean_of ?_, ?_⟩, rfl, rfl⟩ <;> (try unfold InRam) <;>
      (revert e he; decide +kernel)

/-! Silt, microcode, commit and traps. -/

/-- A template of actor 0 at port 5, number 63, with a declared channel, and one of actor 1. -/
def gSilt : Graph :=
  { ga { a0 with comps := [{ uid := 1, cxid := 16133, handler := 0, done := true }, { uid := 2, cxid := 7, handler := 0 }] } with
    templates := [{ port := 5, num := 63, declCh := some 0 }, { port := 6, num := 0, aid := 1 }, { port := 7, num := 0 }] }

theorem witness_SiltInstructions :
    (∀ x ∈ [63 * 2 ^ 8 + 5, 7],
     let f := fr (rg [(1, x)])
     let s := sg gSilt f
     let g := s.graph 0
     Executes s 0 f ∧ Here f.regs [1] [2] ∧ f.regs.drossS 1 = false ∧ (f.regs.val 1).toNat = x ∧ (g.template? 5 63).isSome = true ∧
       (∀ y, g.template? 5 63 = some y → y.aid = f.aid ∧ y.declCh.isSome = true) ∧
       (∀ y, g.template? 7 0 = some y → y.aid = f.aid ∧ y.declCh = none ∧ y.declQ = none) ∧ (g.template? 7 0).isSome = true ∧
       (x = 7 → (∃ y ∈ g.templates, y.port = x) ∧ f.entries < 64 ∧ s.loaded? 7 (krTemplate (f.regs.rdV 2).val) = (g.template? 7 0).map (fun y => (0, y))) ∧
       (x = 63 * 2 ^ 8 + 5 → ∀ c ∈ (s.actor 0 0).comps, c.cxid = f.regs.val 1 → c.done = true ∨ c.bound = true) ∧
       (x = 7 → ∃ c ∈ (s.actor 0 0).comps, c.cxid = f.regs.val 1 ∧ c.done = false ∧ c.bound = false)) ∧
    (∀ x ∈ [2 ^ 14, 6],
     let f := fr (rg [(1, x)])
     let s := sg gSilt f
     Executes s 0 f ∧ Here f.regs [1] [2] ∧ f.regs.drossS 1 = false ∧
       (2 ^ 14 ≤ (f.regs.val 1).toNat ∨ ∀ y, (s.graph 0).template? ((f.regs.val 1).toNat % 256) ((f.regs.val 1).toNat / 256 % 64) = some y →
         y.aid ≠ f.aid)) ∧
    (∀ x ∈ [256, 8],
     let f := fr (rg [(1, x)])
     let s := sg gSilt f
     Executes s 0 f ∧ Here f.regs [1] [2] ∧ f.regs.drossS 1 = false ∧
       (256 ≤ (f.regs.val 1).toNat ∨ ∀ y ∈ (s.graph 0).templates, y.port ≠ (f.regs.val 1).toNat % 256)) := by
  refine ⟨?_, ?_, ?_⟩
  · intro x hx
    refine ⟨runs rfl, here ?_, ?_, ?_, rfl, fun y h => by cases h; exact ⟨rfl, rfl⟩, fun y h => by cases h; exact ⟨rfl, rfl, rfl⟩, rfl,
      ?_, ?_, ?_⟩ <;> (revert x hx; decide +kernel)
  · intro x hx
    refine ⟨runs rfl, here ?_, ?_, ?_⟩
    case refine_3 =>
      simp only [List.mem_cons, List.not_mem_nil, or_false] at hx
      rcases hx with rfl | rfl
      · exact .inl (by decide +kernel)
      · refine .inr (fun y h => ?_)
        have h' : (some ({ port := 6, num := 0, aid := 1 } : Template)) = some y := h
        cases h'
        decide +kernel
    all_goals (revert x hx; decide +kernel)
  · intro x hx
    refine ⟨runs rfl, here ?_, ?_, ?_⟩ <;> (revert x hx; decide +kernel)

/-- Microcode registers: s1 is the destination, s2 the source and s3 the burst word. -/
def burst (d a sp n : Nat) : Regs := rg [(1, d), (2, a), (3, sp * 2 ^ 16 + n)]

theorem bursts {g : Graph} {r : Regs} {c : Copy} : Bursts (se g r c) 0 c :=
  ⟨copies, fun a ha => absurd ha (by simp [se, State.reset])⟩

/-- The ends of the burst buffer, of the tile store and of handler RAM, and a broadcast to actor 0. -/
theorem witness_LocalBursts :
    (∀ e ∈ [(4032, 64, 1), (4032, 16320, 2), (64, 4032, 1), (16320, 4032, 2), (0, 4032, 3), (4032, 5, 0)],
     let r := burst e.1 e.2.1 e.2.2 64
     let c : Copy := { c0 with subs := [0] }
     let s := se (ga { a0 with rows := 64 }) r c
     Bursts s 0 c ∧ Here r [1, 2, 3] [] ∧ (r.drossS 1 = false ∧ r.drossS 2 = false ∧ r.drossS 3 = false) ∧ BurstWord (r.val 3) e.2.2 64 ∧
       (r.val 1).toNat = e.1 ∧ (r.val 2).toNat = e.2.1 ∧ (spaceOf (s.actor 0 0) e.2.2).2 = 16384) ∧
    4032 + 64 ≤ 4096 ∧ 16320 + 64 ≤ 16384 := by
  refine ⟨?_, by decide⟩
  intro e he
  refine ⟨bursts, here ?_, ?_, ?_, ?_, ?_, ?_⟩ <;> (try unfold BurstWord) <;> (revert e he; decide +kernel)

theorem answered {x : (List Piece × Option (Nat × Xl)) × State} (h : x.1.2 = none) : ∃ ps s1, x = ((ps, none), s1) :=
  ⟨_, _, Prod.ext (Prod.ext rfl h) rfl⟩

theorem witness_GlobalBursts :
    (∀ w ∈ [true, false],
     let r := if w then burst 0x10000 4032 0 64 else burst 4032 0x10000 0 64
     let s := mapped (se (ga a0) r c0)
     Bursts s 0 c0 ∧ Here (s.port 0).eng.regs [1, 2, 3] [] ∧ (r.drossS 1 = false ∧ r.drossS 2 = false ∧ r.drossS 3 = false) ∧
       BurstWord (r.val 3) 0 64 ∧ c0.ticket = none ∧ 0x10000 + 64 ≤ 2 ^ 64 ∧ canonicalSpan 0x10000 64 = true ∧
       ∃ ps s1, State.translateAll (s.pasidOf c0.job) c0.failed w (.engine 0) (pieces 65 0x10000 64) s = ((ps, none), s1)) ∧
    (let r := rg [(1, 77)]
     let s := se (ga a0) r c0
     let u : State := { s with inflight := [{ id := 1, src := .engine 0 c0.uid c0.job c0.aid, cls := 0, kind := .store [], tgt := .none 0 }] }
     Bursts s 0 c0 ∧ Bursts u 0 c0 ∧ Here r [1] [] ∧ r.drossS 1 = false ∧ r.val 1 = c0.cxid ∧ (∃ x ∈ u.inflight, x.src.ofCopy 0 c0.uid = true) ∧
       (∀ x ∈ s.inflight, x.src.ofCopy 0 c0.uid = false) ∧ s.hasGraph c0.job = true) := by
  refine ⟨?_, bursts, ⟨⟨rfl, rfl⟩, ?_⟩, here (by decide +kernel), by decide +kernel⟩
  · intro w hw
    refine ⟨⟨⟨rfl, rfl⟩, fun a ha => absurd ha (by simp [mapped, se, State.reset])⟩, here ?_, ?_, ?_, rfl, by decide, by decide +kernel,
      answered ?_⟩ <;> (try unfold BurstWord) <;> (cases w <;> decide +kernel)
  · intro a ha _ lo h
    have h' : a = { id := 1, src := .engine 0 c0.uid c0.job c0.aid, cls := 0, kind := .store [], tgt := .none 0 } := List.mem_singleton.1 ha
    subst h'
    cases h

theorem witness_MicrocodeErrors :
    Copies (se (ga a0) {} c0) 0 c0 ∧
    (∀ x ∈ [2 ^ 18, 4097, 3 * 2 ^ 16 + 4096],
     let r := rg [(3, x)]
     Bursts (se (ga a0) r c0) 0 c0 ∧ Here r [1, 2, 3] [] ∧ (r.drossS 1 = false ∧ r.drossS 2 = false ∧ r.drossS 3 = false) ∧
       (2 ^ 18 ≤ (r.val 3).toNat ∨ 4096 < (r.val 3).toNat % 2 ^ 16 ∨ BurstWord (r.val 3) 3 4096) ∧ r.val 1 ≠ c0.cxid) ∧
    Executes (sg (ga a0) {}) 0 {} ∧ Here ({} : Firing).regs [1, 2, 3] [] := by
  refine ⟨copies, ?_, runs rfl, here (by decide +kernel)⟩
  intro x hx
  refine ⟨bursts, here ?_, ?_, ?_, ?_⟩ <;> (try unfold BurstWord) <;> (revert x hx; decide +kernel)

/-- A firing that has sent its one token, and a stream run and a row stream that are not over. -/
theorem witness_CommitInstructions :
    (let a : Actor := { aCh with outs := [(2, 1)] }
     let o : OutTok := { ep := 2, tok := { data := 9 }, mask := 65535 }
     let f : Firing := { sent := [(2, 1)], out := [o] }
     let s := sg { gCh with actors := [(0, a)] } f
     Executes s 0 f ∧ Settled s f ∧ (a.ins.map (fun y => Tab.get 0 a.inCh y.1)).Nodup ∧ f.out = [o] ∧ (s.graph 0).outChans a o.ep = [1] ∧
       a.deliveries = [] ∧ a.comps = []) ∧
    (let f : Firing := { mwork := [.rows 0 1 (.tstore 0) 0 1 0 0] }
     Executes (sg (ga aTile) f) 0 f ∧ f.mwork ≠ [] ∧ ∀ w ∈ f.mwork, ∃ c h src base n pc is, w = .rows c h src base n pc is) ∧
    (let f := { fl {} passing with run := some { k := 1 } }
     Executes (sg gSt f) 0 f ∧ f.mwork = [] ∧ ∃ r, f.run = some r ∧ r.finished f.lane = false) ∧
    (let f : Firing := {}
     let x : Access := { id := 0, src := .firing 0 0, cls := 0, kind := .load 8, tgt := .none 0 }
     let s := { sg (ga { aCh with outs := [] }) f with inflight := [x] }
     Executes s 0 f ∧ f.mwork = [] ∧ f.run = none ∧ f.kind = .ordinary ∧ f.mark = none ∧ (s.actor 0 0).outs = [] ∧ x ∈ s.own f) ∧
    (let f : Firing := {}
     let s := sg gCh f
     Executes s 0 f ∧ f.mwork = [] ∧ f.run = none ∧ f.kind = .ordinary ∧ (s.actor 0 0).outs = [(2, 2)] ∧ Tab.get 0 f.sent 2 ≠ 2 ∧
       (s.actor 0 0).ctxs = [] ∧ f.replay = true ∧ f.nomem = none) := by
  refine ⟨⟨runs rfl, ⟨rfl, rfl, rfl, rfl, rfl, rfl, fun x h => absurd h List.not_mem_nil, by decide +kernel⟩, by decide +kernel⟩,
    ⟨runs rfl, by decide +kernel, ?_⟩, ⟨runs rfl, rfl, _, rfl, by decide +kernel⟩,
    ⟨⟨rfl, rfl, fun k e h => by cases h⟩, by decide +kernel⟩, runs rfl, by decide +kernel⟩
  intro w hw
  simp only [List.mem_singleton] at hw
  subst hw
  exact ⟨_, _, _, _, _, _, _, rfl⟩

theorem witness_ControlInstructions :
    (let f : Firing := {}
     Executes (sg (ga a0) f) 0 f ∧ Here f.regs [1] [] ∧ f.kind = .ordinary ∧ f.replay = true ∧ f.nomem = none ∧ f.undo = [] ∧ f.ckpt = [] ∧
       f.words0 = [] ∧ f.claims = []) ∧
    (let f : Firing := { replay := false }; Executes (sg (ga a0) f) 0 f ∧ f.kind = .ordinary ∧ f.replay = false) ∧
    (let f : Firing := { kind := .completion 5 0 }; Executes (sg (ga a0) f) 0 f ∧ f.kind = .completion 5 0) :=
  ⟨⟨runs rfl, here (by decide +kernel), rfl, rfl, rfl, rfl, rfl, rfl, rfl⟩, ⟨runs rfl, rfl, rfl⟩, runs rfl, rfl⟩

theorem witness_TrapEntry :
    (let f : Firing := {}; f.kind = .ordinary ∧ f.replay = true ∧ f.nomem = none) ∧
    (let f : Firing := { replay := false }; f.kind = .ordinary ∧ f.replay = false ∧ f.nomem = none ∧ (sg (ga a0) f).hasGraph f.job = true) ∧
    (let f : Firing := { kind := .fault { code := 1 } }; f.kind = .fault { code := 1 }) := by decide +kernel

/-- A graph with a fault actor 1 that has `n` deliveries. -/
def gFault (n : Nat) : Graph :=
  { ga a0 with actors := [(0, a0), (1, { a0 with aid := 1, slot := 1, deliveries := List.replicate n { code := 8 } })],
               fault := some { aid := 1, handler := 64, area := 128 } }

theorem witness_TrapDelivery :
    (∀ n ∈ [15, 16], let s := sg (gFault n) {}
     s.hasGraph 0 = true ∧ (s.graph 0).fault = some { aid := 1, handler := 64, area := 128 } ∧ ((s.graph 0).actor 1).ended = false ∧
       ((s.graph 0).actor 1).deliveries.length = n ∧ (s.graph 0).quench = none) ∧
    (let s := sg { gFault 0 with quench := some { saved := [1] } } {}
     s.hasGraph 0 = true ∧ ((s.graph 0).actor 1).ended = false ∧ (s.graph 0).quench = some { saved := [1] }) ∧
    (let c : Cause := { code := 8 }; c.aid ≠ 1 ∧ c.suspends = true) ∧
    ((sg (ga a0) {}).hasGraph 0 = true ∧ ((sg (ga a0) {}).graph 0).fault = none) ∧
    ((sg (gFault 0) {}).trapRecord 0 { code := 8 })[0]?.isSome = true := by decide +kernel

/-! Encoding, steps and memory. -/

theorem witness_DecodeEncode : WellFormed (.add 7 7 5) = true ∧ encode (.add 7 7 5) = some 0x04E72800 := by decide +kernel

theorem witness_EncodeDecode : decodeBytes (bytesOf 0x04E72800 ++ []) = .ok (.add 7 7 5, []) := by decide +kernel

/-- Code that adds, code that is no instruction, a program counter past the code, microcode that adds, an event, a turn and an
idle tile. -/
theorem witness_StepRunsDecoded :
    (let f : Firing := {}
     let s := sg (ga { a0 with code := Memory.setBytes {} 0 [0x00, 0x28, 0xE7, 0x04] }) f
     s.agenda = [] ∧ AtCode s 0 f ∧ decodeBytes (codeBytes s f) = .ok (.add 7 7 5, [])) ∧
    (let f : Firing := {}
     let s := sg (ga a0) f
     s.agenda = [] ∧ AtCode s 0 f ∧ ∀ i rest, decodeBytes (codeBytes s f) ≠ .ok (i, rest)) ∧
    (∀ pc ∈ [(1 : Int), -4, 4], let f := fr { pc := pc }
     Executes (sg (ga a0) f) 0 f ∧ ((sg (ga a0) f).block 0).stopped = false ∧ (f.regs.pc % 4 ≠ 0 ∨ f.regs.pc < 0 ∨ (((sg (ga a0) f).actor 0 0).codeLen : Int) < f.regs.pc + 4)) ∧
    (let s : State := { State.reset with
        ports := [(0, { eng := { regs := { pc := 65532 }, mcode := Memory.setBytes {} 65532 [0x00, 0x28, 0xE7, 0x04], copy := some c0 } })],
        focus := .engine 0 }
     let e := (s.port 0).eng
     Copies s 0 c0 ∧ e.regs.pc % 4 = 0 ∧ 0 ≤ e.regs.pc ∧ e.regs.pc + 4 ≤ 65536 ∧
       decodeBytes ((List.range 4).map (fun k => e.mcode.byte (e.regs.pc.toNat + k))) = .ok (.add 7 7 5, [])) ∧
    (let s : State := { State.reset with agenda := [.event .powerOnReset] }; s.agenda = .event .powerOnReset :: []) ∧
    (let s : State := { State.reset with agenda := [.run (.tile 3)] }; s.agenda = .run (.tile 3) :: []) ∧
    (State.reset.agenda = [] ∧ State.reset.focus = .tile 0 ∧ (State.reset.tile 0).firing = none) := by
  refine ⟨⟨rfl, ⟨runs rfl, by decide +kernel⟩, by decide +kernel⟩, ⟨rfl, ⟨runs rfl, by decide +kernel⟩, ?_⟩, ?_,
    ⟨⟨rfl, rfl⟩, by decide +kernel⟩, rfl, rfl, by decide +kernel⟩
  · intro i rest h
    have h' : (match decodeBytes (codeBytes (sg (ga a0) {}) {}) with
      | .ok _ => true
      | .error _ => false) = false := by decide +kernel
    rw [h] at h'
    cases h'
  · intro pc hpc
    refine ⟨runs rfl, rfl, ?_⟩
    revert pc hpc
    decide +kernel

theorem witness_MemoryCanonicalKept : memOk State.reset ∧ Steps State.reset State.reset := ⟨rfl, rfl⟩

theorem witness_MemoryAccess :
    (let m : Memory := { bad := [1] }
     m.isBad (8 / 8) = true ∧ m.isBad (16 / 8) = false ∧ ¬ (8 ≤ 7 ∧ 7 < 8 + 1) ∧ 8 ≤ 15 / 8 * 8 ∧ 15 / 8 * 8 + 8 ≤ 8 + 8) ∧
    (let bs : List (Byte × Bool) := List.replicate 8 (0, true); bs.length = 8 ∧ ∃ b ∈ bs, b.2 = true) := by decide +kernel

/-! Events: resets, firmware and register writes. -/

/-- The part with host link 0 up. -/
def up : State := { State.reset with hostLinks := [(0, { lanes := 16, rate := 5 })] }

/-- The part with a board. -/
def board (b : Board) : State := { up with board := b }

theorem witness_ResetEvents :
    State.reset.board.held = false ∧ (board { held := true }).board.held = true ∧ (board { held := true }).board.limit = 0 ∧ up.hostServes 0 = true ∧
    (let d : W64 := 0x4D52000000000001; fld d 63 48 = 0x4D52 ∧ d.getLsbD 0 = true) ∧
    (let d : W64 := 0x4D52000000000002; fld d 63 48 = 0x4D52 ∧ d.getLsbD 0 = false ∧ d.getLsbD 1 = true) ∧
    (1 ≤ 4 ∧ 4 ≤ 4) ∧ (1 ≤ 8 ∧ 8 ≤ 8) ∧
    (let x : Queue := { head := 3, retire := 3 }
     let s : State := { up with queues := [(0, x)] }
     s.hostServes x.link = true ∧ x.fn ≤ 63 ∧ s.jobs = [] ∧ Tab.find s.queues 0 = some x ∧ x.retire = x.head) ∧
    (up.board.cooling = .ok ∧ (board { cooling := .warning }).board.cooling = .warning ∧ (board { cooling := .cap }).board.cooling = .cap) ∧
    (let s : State := { board { cooling := .cap } with graphs := [(0, ga a0)] }; Tab.find s.graphs 0 = some (ga a0) ∧ (ga a0).phase ≠ .saved) ∧
    (let s := board { cooling := .shutdown, island := true }
     s.board.cooling = .shutdown ∧ s.board.island = true ∧ ∀ g ∈ s.graphs, g.2.phase = .saved) ∧
    (let s := board { cooling := .shutdown, fwstate := 2 }
     s.board.cooling = .shutdown ∧ s.board.island = false ∧ s.board.fwstate = 2) := by decide +kernel

/-- A mailbox that names a parameter block of `n` bytes, with firmware in a state and an owner. -/
def mail (fw n : Nat) (o : Option (BitVec 256)) : State := board { fwstate := fw, owner := o, mb := { addr := 0x1000, len := BitVec.ofNat 32 n } }

/-- A parameter block of `n` zero bytes. -/
def block (n : Nat) : List Byte := List.replicate n 0

/-- A request that clears an entry of a world table: plot, port or region 5. -/
def worldBlock (kind : Byte) : List Byte := block 16 ++ [1, 0, 0, 0, 0, 0, 0, 0] ++ [kind, 0, 5, 0] ++ block 20 ++ block 2420

/-- A secure command needs a signature that verifies, and what verifies is a constant without a value
(notes/assumptions/2.md): the witness is one where it does. -/
theorem witness_MailSigned (b : List Byte) (h : 2436 ≤ b.length) (n : Nat)
    (hv : Config.ownerVerify 7 (sha3 (b.take (b.length - 2420))) (asciiBytes "ALROS-MB") (b.drop (b.length - 2420)) = true) :
    MailSigned (mail 2 n (some 7)) b ((b.take (b.length - 2420)).drop 16) := ⟨7, rfl, h, Nat.zero_le _, hv, rfl⟩

theorem witness_FirmwareEvents :
    (∀ e ∈ [(1, 0), (2, 2), (3, 2), (4, 2), (0, 2), (5, 2)], MailWrite (mail e.2 64 none) e.1 (BitVec.ofNat 64 (e.1 * 2 ^ 16 + 1)) ∧
      (mail e.2 64 none).board.fwstate = e.2) ∧
    MailBlock (mail 0 64 none) (block 64) ∧ MailBlock (mail 2 2468 (some 7)) (worldBlock 0) ∧ 2436 ≤ (worldBlock 0).length ∧
    (∀ k ∈ [0, 1, 2],
     let b := worldBlock (BitVec.ofNat 8 k)
     let p := (b.take (b.length - 2420)).drop 16
     8 ≤ p.length ∧ leNat ((p.drop 4).take 4) = 0 ∧ worldEntries (leNat (p.take 4)) (p.drop 8) = some [(k, 5, 0, 0)]) ∧
    (let p := (block 2632).drop 1312
     MailBlock (mail 2 2632 none) (block 2632) ∧ (mail 2 2632 none).board.owner = none ∧ p.length = 1320 ∧ leNat (p.take 1) ≤ 15 ∧
       leNat ((p.take 8).drop 1) = 0) ∧
    (let s := board { mb := { busy := true, result := some 3 } }; s.board.mb.busy = true ∧ s.board.mb.result = some 3) ∧
    (∀ st ∈ [0, 3], (board { fwstate := 1, fwPend := some (st, 1, 0) }).board.fwPend = some (st, 1, 0) ∧
      (board { fwstate := 1, fwPend := some (st, 1, 0) }).board.fwstate = 1) ∧
    ([1, 2, 2, 0].length = 4 ∧ [1, 2, 2, 0].headD 2 ≤ 1 ∧ (∀ m ∈ [1, 2, 2, 0], m ≤ 2) ∧
      ∀ l < 4, ((List.replicate 8 (3, 5)).filter (fun e : Nat × Nat => decide (e.1 = l))).length ≤ 8) ∧
    (let s := board { fwstate := 2 }; s.board.ready = false ∧ s.board.cooling ≠ .shutdown ∧ s.hostServes 0 = true ∧ (block 32).length = 32) ∧
    (let s : State := { board { fwstate := 2 } with queues := [(0, { cfg := 0x40000 })] }
     Tab.find s.queues 0 = some { cfg := 0x40000 }) ∧
    (let s := board { worldPend := [.plot 3 true] }; s.board.worldPend = [.plot 3 true] ∧ s.holders 3 = []) ∧
    (let s := board { worldPend := [.region 63 1 2] }; s.board.worldPend = [.region 63 1 2] ∧ s.inflight = [] ∧ ∀ e ∈ s.ports, e.2.reqs = []) := by
  refine ⟨?_, ?_, ?_, by decide +kernel, by decide +kernel, ⟨?_, by decide +kernel⟩, by decide +kernel⟩
  · unfold MailWrite; decide +kernel
  · unfold MailBlock; decide +kernel
  · unfold MailBlock; decide +kernel
  · unfold MailBlock; decide +kernel

/-- A firing that waits for ticket 0 to translate a load at 0x10000 again, over mapped memory. -/
def fAgain : Firing := { ticket := some 0, again := some (0x10000, false) }

def waitsAgain : State :=
  mapped { sg (ga a0) fAgain with
    tickets := [(0, { pasid := 0, page := 16, kind := 51, waiters := [.firing 0 0 none] })], hostLinks := [(0, { rate := 5 })] }

/-- Whether an address has been translated. -/
def isOk : Xl → Bool
  | .ok _ => true
  | _ => false

theorem witness_RegisterWrites :
    (up.hostServes 0 = true ∧ (4095 : Nat) < 4096) ∧
    (let q : Queue := { tail := 5 }
     (((16 : W32) - q.head).toNat ≤ q.size ∧ (q.tail - q.head).toNat ≤ ((16 : W32) - q.head).toNat) ∧ q.size < ((17 : W32) - q.head).toNat ∧
       (((4 : W32) - q.head).toNat ≤ q.size ∧ ((4 : W32) - q.head).toNat < (q.tail - q.head).toNat) ∧ q.cfg.getLsbD 19 = false ∧ q.st = .disabled) ∧
    (board { ready := true }).board.ready = true ∧
    (let q : Queue := { st := .running, cfg := 1 }; q.st = .running ∧ q.flr = false) ∧
    (let b : Job := { st := .waiting }
     let s : State := { up with jobs := [(3, b)] }
     s.jobs = [(3, b)] ∧ b.parent = none ∧ b.queue = 0 ∧ b.st = .waiting ∧ s.graphs = []) ∧
    (let d : W64 := 1; d.getLsbD 0 = true ∧ d.getLsbD 1 = false) ∧ (let d : W64 := 2; d.getLsbD 0 = false ∧ d.getLsbD 1 = true) ∧
    (let s : State := { up with jobs := [(3, { st := .resident, started := true, account := some 9 })] }
     s.quotaJob 0 = some 3 ∧ (s.queue 0).secure = false ∧ (s.job 3).account = some 9) ∧
    (let t : Ticket := { pasid := 0, page := 7, kind := 51, waiters := [.firing 0 0 none] }
     let f : Firing := { ticket := some 0 }
     let s : State := { sg (ga a0) f with tickets := [(0, t)], hostLinks := [(0, { rate := 5 })] }
     s.hostServes 0 = true ∧ Tab.find s.tickets 0 = some t ∧ t.world = false ∧ t.waiters = [.firing 0 0 none] ∧ s.hasGraph 0 = true ∧
       (s.actor 0 0).held = [] ∧ s.firingOf 0 0 = some (0, f) ∧ f.ticket = some 0) ∧
    (let d : W64 := 0x10000; fld d 9 0 = 0 ∧ d.getLsbD 16 = true) ∧ waitsAgain.firingOf 0 0 = some (0, fAgain) ∧
    (isOk (({ waitsAgain with tickets := Tab.erase waitsAgain.tickets 0 } : State).translate 0 0x10000 false (.firing 0 0 none)).1 = true) ∧
    (let d : W64 := 0x80000000; d.getLsbD 31 = true ∧ up.flux = none ∧ fld d 30 29 ≠ 3) ∧
    (let d : W64 := 1; fld d 1 0 = 1 ∧ (up.peer 0).st ≠ .active) ∧
    (let s : State := { up with peers := [(4095, { st := .isolated }), (7, { st := .active })] }
     fld (0 : W64) 1 0 = 0 ∧ (s.peer 4095).st = .isolated ∧ (s.peer 7).st = .active) ∧
    (let d : W64 := 4; d.getLsbD 2 = true ∧ (47 : Nat) < 48) := by decide +kernel

/-! Events: jobs, quenches and moves, power. -/

/-- The bytes that a read of the Kiln's own has found. -/
def gotBytes : Got → Option Bytes
  | .ok bs => some bs
  | _ => none

theorem got {x : Got × Bytes × State} {P : Bytes → Bool} (h : (gotBytes x.1).any P = true) :
    ∃ bs e s1, x = (.ok bs, e, s1) ∧ P bs = true := by
  obtain ⟨g, e, s1⟩ := x
  cases g with
  | ok bs => exact ⟨bs, e, s1, rfl, h⟩
  | fault _ _ => cases h
  | fail _ => cases h
  | world _ => cases h
  | wait => cases h

/-- The state `s` with the tables of `mapped` and the bytes `bs` from 0x20000 on. -/
def holding (s : State) (bs : List Byte) : State :=
  let s := mapped s
  { s with mem := Memory.setBytes s.mem 0x20000 bs }

/-- Queue 0 runs over a ring at 0x20000 with one record, of a compute job. -/
def ring (bad : List Nat) : State :=
  let s := holding State.reset [0x10]
  { s with mem := { s.mem with bad := bad }, board := { s.board with ready := true }, queues := [(0, { base := 0x20004, tail := 1, st := .running })] }

/-- A graph image of one variant with a shape of one plot (R81, R90, R328): its header, its table of sections and its shape
record. -/
def image : List Byte :=
  [0x49, 0x47, 0x4D, 0x4E, 1, 0, 1, 0, 0xC0, 0x0A, 0, 0, 0, 1, 3, 0] ++ List.replicate 16 0 ++
    [1, 0, 0, 0, 0x20, 1, 0, 0, 24, 0, 0, 0, 0, 0, 0, 0, 3, 0, 0, 0, 0x20, 1, 0, 0, 0, 0, 0, 0, 0, 0, 0, 0,
     4, 0, 0, 0, 0x20, 1, 0, 0, 0, 0, 0, 0, 0, 0, 0, 0] ++ List.replicate 208 0 ++ [24, 0, 0, 0, 1, 1]

/-- A fetched job whose image the bytes at 0x20000 are, and the key of its slot. -/
def verifying (bs : List Byte) (key : List Byte := []) : State :=
  let s := holding State.reset bs
  { s with board := { s.board with keys := [(0, key)] }, jobs := [(3, { jr := { image := 0x20000 } })] }

/-- The image as verification leaves it. -/
def verified : Image :=
  { shapes := [{ wp := 1, hp := 1, n := [0] }],
    sects := [⟨1, 0, [24, 0, 0, 0, 1, 1, 0, 0, 0, 0, 0, 0, 0, 0, 0, 0, 0, 0, 0, 0, 0, 0, 0, 0]⟩, ⟨3, 0, []⟩, ⟨4, 0, []⟩] }

/-- A ready part under a power cap with one job, and its graph if it was saved. -/
def kiln (cap : Nat) (gs : Tab Graph) (b : Job) : State :=
  { State.reset with board := { fwstate := 2, ready := true, island := true }, kiln := { cap := cap }, graphs := gs, jobs := [(3, b)] }

/-- Whether a placement was made that changes a graph. -/
def placed (gs : Tab Graph) : Placed → Bool
  | .ok s => decide (s.graphs ≠ gs)
  | _ => false

theorem placed_ok {gs : Tab Graph} {x : Placed} (h : placed gs x = true) : ∃ s1, x = .ok s1 ∧ s1.graphs ≠ gs := by
  cases x with
  | ok s => exact ⟨s, rfl, of_decide_eq_true h⟩
  | no _ => cases h
  | gone _ => cases h

/-- A retirement that has written its status. -/
def putDone (b : Job) (j q : Nat) : Put → Bool
  | .done s => decide (s.job j = b) && !(s.queue q).flr
  | _ => false

/-- A graph whose only actor has ended. -/
def gEnded : Graph := ga { a0 with ended := true }

/-- A graph whose only actor waits for a token that nothing will send. -/
def gStuck (n : Nat) (fault : Option FaultActor) : Graph :=
  { ga { a0 with ins := [(1, 1)], inCh := [(1, 0)] } with
    actors := [(0, { a0 with ins := [(1, 1)], inCh := [(1, 0)] }), (1, { a0 with aid := 1, slot := 1, ins := [(1, 1)], inCh := [(1, 0)] })],
    chans := [(0, { dst := .actor 0 1 })], fault := if n = 0 then none else fault }

/-- Whether a record was found that makes a job. -/
def goodRecord (sec : Bool) (bs : Bytes) : Bool :=
  !anyDross bs && (recordOf (bs.map (·.1)) sec).2 && !(recordOf (bs.map (·.1)) sec).1.nop && !(recordOf (bs.map (·.1)) sec).1.dep

/-- What a turn reads of the record at QHEAD, of all its doublewords. -/
def fresh16 (t : Tab Bytes) : List Nat := ((List.range 16).filter (fun i => decide (i < 16) && (Tab.find t i).isNone)).dedup

/-- The Kiln's read of the record at queue 0's QHEAD. -/
def readRecord (s : State) : Got × Bytes × State :=
  s.readVa (s.queue 0).pasid (s.queue 0).secure (.ring 0) [] ((s.queue 0).slot (s.queue 0).head) 128 []

theorem witness_Fetches :
    (((ring []).queue 0).st = .running ∧ (ring []).board.ready = true ∧ ((ring []).queue 0).head ≠ ((ring []).queue 0).tail ∧ ((ring []).queueJobs 0).length < 16 ∧
      fresh16 ((ring []).queue 0).got = List.range 16 ∧ fresh16 ((ring []).queue 0).got ≠ []) ∧
    (∃ bs e s1, readRecord (ring []) = (.ok bs, e, s1) ∧ goodRecord ((ring []).queue 0).secure bs = true) ∧
    (∃ bs e s1, readRecord (ring [0x4000]) = (.ok bs, e, s1) ∧ anyDross bs = true) := by
  refine ⟨by decide +kernel, ?_, ?_⟩
  · apply got; decide +kernel
  · apply got; decide +kernel

/-- The Kiln's read of the first `n` bytes of job 3's image. -/
def readImage (s : State) (n : Nat) : Got × Bytes × State := s.readFor 3 (.verify 3) (s.job 3).jr.image.toNat n []

/-- The room for a copy is a constant without a value (notes/assumptions/2.md, 16.md); that some signature verifies under some key is
taken as it is, since no signature is at hand. -/
theorem witness_Verifications :
    (∀ bs ∈ [[0x49], image], Tab.find (verifying bs).jobs 3 = some ((verifying bs).job 3) ∧ ((verifying bs).job 3).st = .fetched ∧
      (verifying bs).waits (.verify 3) = false) ∧
    (∃ h e s1, readImage (verifying [0x49]) 256 = (.ok h, e, s1) ∧ decide (Machine.field (h.map (·.1)) 8 4 < 2752) = true) ∧
    (∃ h e s1, readImage (verifying image) 256 = (.ok h, e, s1) ∧ (!anyDross h && Machine.field (h.map (·.1)) 8 4 == 2752) = true) ∧
    (Config.copyRoom < 2752 → (verifying image).copyFits 2752 = false) ∧ (2752 ≤ Config.copyRoom → (verifying image).copyFits 2752 = true) ∧
    (∃ bs e s2, readImage (verifying image) 2752 = (.ok bs, e, s2) ∧
      (!anyDross bs && (imageOf (bs.map (·.1))).any (fun m => !m.secure)) = true) ∧
    ∀ key bs : List Byte, Machine.field bs 0xC 1 = 0 →
      mldsaVerify key (sha3 (bs.take (bs.length - 2432))) ("ALROS-GI".toList.map (fun c => BitVec.ofNat 8 c.toNat))
        ((bs.drop (bs.length - 2432)).take 2420) = true → (verifying image key).signedImage bs = true := by
  refine ⟨by decide +kernel, ?_, ?_, fun h => ?_, fun h => ?_, ?_, ?_⟩
  · apply got (P := fun h => decide (Machine.field (h.map (·.1)) 8 4 < 2752)); decide +kernel
  · apply got (P := fun h => !anyDross h && Machine.field (h.map (·.1)) 8 4 == 2752); decide +kernel
  · have e : sumOf (verifying image).jobs (fun e => (e.2.image.map (·.bytes)).getD 0) = 0 := by decide +kernel
    exact decide_eq_false (by omega)
  · have e : sumOf (verifying image).jobs (fun e => (e.2.image.map (·.bytes)).getD 0) = 0 := by decide +kernel
    exact decide_eq_true (by omega)
  · apply got (P := fun bs => !anyDross bs && (imageOf (bs.map (·.1))).any (fun m => !m.secure)); decide +kernel
  intro key bs h0 hv
  have hk : Tab.find (verifying image key).board.keys 0 = some key := rfl
  simp only [State.signedImage, h0, hk]
  exact hv

theorem witness_Decisions :
    (let s := kiln 0 [] { st := .waiting, image := some verified }
     s.kiln.halt = false ∧ s.board.fwstate ≠ 5 ∧ s.board.ready = true ∧ s.kiln.cap = 0 ∧ s.graphs = [] ∧ (s.job 3).image.isSome = true ∧
       (s.job 3).parent = none ∧ (s.job 3).jr.dep = false ∧ (s.variants 3).any (s.placeable 3) = true) ∧
    (let s := kiln 10500 [] { st := .candidate, image := some verified, everLoaded := true }
     let r := s.settleEarmarks.refresh
     let binds := decide (r.capNow < r.charged + r.chargeOf (r.shape 3 ((r.variants 3).headD 0)))
     s.kiln.halt = false ∧ s.board.fwstate ≠ 5 ∧ s.board.ready = true ∧ s.kilnPending = false ∧ r.candidates = [3] ∧
       r.offered = [3] ∧ (r.job 3).held = none ∧ (r.job 3).eff ≤ 7 ∧
       ∃ s1, State.place1 { r with kiln := { r.kiln with capBind := binds } } 3 = .ok s1 ∧ s1.graphs ≠ s.graphs) :=
  ⟨by decide +kernel, by decide +kernel, by decide +kernel, by decide +kernel, by decide +kernel, by decide +kernel, by decide +kernel,
    by decide +kernel, by decide +kernel, placed_ok (by decide +kernel)⟩

/-- A graph whose actors are all loaded, with its arguments or without. -/
def loading (done : Bool) : State :=
  kiln 10500 [(3, { ga a0 with phase := .loading, argsDone := done })] { st := .loading, image := some verified }

/-- A weld of graph 3 onto graph 2. -/
def welding (p : Graph) : State :=
  { State.reset with
    graphs := [(2, p), (3, { ga { a0 with loaded := false } with phase := .loading })], jobs := [(3, { welded := some 2 })] }

theorem witness_Loads :
    (∀ done ∈ [true, false], ((loading done).job 3).image = some verified ∧ (loading done).hasGraph 3 = true ∧
      ((loading done).graph 3).phase = .loading ∧ (loading done).waits (.load 3) = false ∧ ((loading done).graph 3).quench = none ∧
      ((loading done).graph 3).parked = [] ∧ (loading done).accountOf 3 ≠ some 0 ∧
      (((loading done).graph 3).actors.all (fun e => e.2.loaded)) = true ∧
      ((loading done).job 3).jr.argLen = 0 ∧ ((loading done).graph 3).streams = []) ∧
    (∀ p ∈ [{ phase := .saved }, gEnded], (welding p).hasGraph 3 = true ∧ ((welding p).graph 3).phase = .loading ∧
      ((welding p).job 3).welded = some 2 ∧
      (((welding p).graph 3).actors.any (fun e => e.2.tile = 0 && !e.2.loaded)) = true ∧
      (((welding p).graph 2).phase = .saved ∨ (((welding p).graph 2).actors.all (fun e => e.2.tile ≠ 0 || e.2.ended)) = true)) := by
  decide +kernel

/-- A graph with an actor that waits for ever. -/
def waiting (n : Nat) : State := kiln 10500 [(3, gStuck n (some { aid := 1, handler := 64, area := 128 }))] { st := .resident }

/-- A job that has ended, and its parent. -/
def bEnded : Job := { st := .ended, parent := some 2, fail := some (3, 7) }

def retiring : State := { State.reset with jobs := [(2, {}), (3, bEnded)] }

def retiringQueue : State :=
  { mapped State.reset with jobs := [(3, { st := .ended })], queues := [(0, { base := 0x20004, head := 1, tail := 1, st := .running })] }

theorem witness_Ends :
    retiring.ownDone 3 = true ∧ retiringQueue.ownDone 3 = true ∧ retiringQueue.queueJobs 0 = [3] ∧
    ((kiln 10500 [(3, gEnded)] { st := .resident }).hasGraph 3 = true ∧
      ((kiln 10500 [(3, gEnded)] { st := .resident }).graph 3).phase = .resident ∧
      (kiln 10500 [(3, gEnded)] { st := .resident }).allEnded 3 = true) ∧
    (∀ n ∈ [0, 1], (waiting n).hasGraph 3 = true ∧ ((waiting n).graph 3).phase = .resident ∧ (waiting n).stuck 3 = true) ∧
    ((waiting 0).graph 3).fault = none ∧ ((waiting 1).graph 3).fault = some { aid := 1, handler := 64, area := 128 } ∧
    (((waiting 1).graph 3).actor 1).ended = false ∧ (((waiting 1).graph 3).actor 1).deliveries.length < 16 ∧
    (Tab.find retiring.jobs 3 = some bEnded ∧ bEnded.st = .ended ∧ retiring.children 3 = [] ∧ retiring.effectsDone 3 = true ∧
      bEnded.jr.sigOp = 0 ∧ (retiring.job 2).fail = none) ∧
    (Tab.find retiringQueue.jobs 3 = some { st := .ended } ∧ retiringQueue.children 3 = [] ∧ retiringQueue.effectsDone 3 = true ∧
      (∀ k ∈ retiringQueue.queueJobs 0, 3 ≤ k) ∧ putDone { st := .ended } 3 0 (retiringQueue.writeStatus 3) = true) := by
  decide +kernel

theorem witness_QuenchAndMoveEvents :
    (let g : Graph := { ga a0 with phase := .quenching, quench := some {} }
     let s := kiln 10500 [(3, g)] { st := .resident }
     s.hasGraph 3 = true ∧ (s.graph 3).phase = .quenching ∧ (s.graph 3).quench = some {} ∧ Tab.find (s.graph 3).actors 0 = some a0 ∧
       s.inMove a0.tile = false ∧ (s.graph 3).markersIn {} 0 = true ∧ (∀ c ∈ (s.tile a0.tile).causes, ¬ (c.1 = 3 ∧ c.2.aid = 0)) ∧
       s.firingOf 3 0 = none ∧ ∀ e ∈ [(⟨1, 0, 8⟩ : ErrSite)], e.aid = 0 ∧ (e.mem = 1 ∨ e.mem = 2 ∨ e.mem = 3 ∨ e.mem = 4 ∨ e.mem = 5 ∨ e.mem = 8)) ∧
    (let g : Graph := { ga a0 with phase := .quenching, quench := some { saved := [0] } }
     let s := kiln 10500 [(3, g)] { st := .resident }
     s.quenched 3 = true) ∧
    (let m : Move := { dst := 9 }
     let s : State := { State.reset with tiles := [(0, { move := some m })] }
     (s.tile 0).move = some m ∧ m.step = 1 ∧ (s.tile 0).firing = none ∧ (s.tile m.dst).firing = none) ∧
    (let m : Move := { dst := 9, step := 4 }
     let s : State := { State.reset with tiles := [(0, { move := some m })], graphs := [(0, ga a0)] }
     (s.tile 0).move = some m ∧ m.step = 4 ∧ m.swap = false ∧ m.dst ≠ 0 ∧ s.ports = [] ∧ s.residents 0 = [(0, 0, a0)] ∧ m.forAssay = false ∧
       m.rebal = false) ∧
    (let s : State := { State.reset with ports := [(5, { reloc := [(31, {})], markers := [((0, 7), (0, 8))] })] }
     0 < (s.port 5).markers.length ∧ (31, {}) ∈ (s.port 5).reloc ∧ ({} : Reloc).copies = [] ∧ ({} : Reloc).tags = []) := by decide +kernel

/-- The frequency step of a tile whose graph runs alone, at a thermal step. -/
def hot (step : Nat) (b : Job) : State :=
  { State.reset with graphs := [(0, ga a0)], jobs := [(0, b)], blocks := [(0, { tstep := step })] }

/-- A ready job has a lease; the common step of its tile is then the tile's ceiling, which is at least 44 (R120, R121). -/
theorem commonStep_hot (b : Job) (h : 0 < (hot 68 b).leaseOf 0) (h1 : (hot 68 b).linked 4096 [0] = [0])
    (h2 : (hot 68 b).residents 0 = [(0, 0, a0)]) : (hot 68 b).commonStep 0 = min 68 (min ((hot 68 b).fceil 0) 68) := by
  have h4 : (Tab.get ({} : Alloy) ((hot 68 b).graph 0).alloys a0.alloy).limit = 68 := rfl
  have h5 : ((hot 68 b).block 0).tstep = 68 := rfl
  simp [State.commonStep, State.allowedStep, h1, h2, h4, h5, h]

theorem commonStep_cold (b : Job) (h1 : (hot 0 b).linked 4096 [0] = [0])
    (h2 : (hot 0 b).residents 0 = [(0, 0, a0)]) : (hot 0 b).commonStep 0 ≤ 44 := by
  have h5 : ((hot 0 b).block 0).tstep = 0 := rfl
  simp [State.commonStep, State.allowedStep, h1, h2, h5]

/-- Its first hypothesis on a step above 44 needs a tile whose fused ceiling, a constant without a value, is above 44
(notes/assumptions/2.md). -/
theorem witness_PowerEvents :
    (∀ e ∈ [(68, ({} : Job)), (0, {}), (0, { account := some 10 }), (0, { account := some 0 })],
     ((hot e.1 e.2).lowest 0).any (fun x => decide (x.1 = 0)) = true ∧
       let s : State := { hot e.1 e.2 with tiles := [(0, { last := 0 })] }
       (s.residents 0).any (fun x => decide (x.1 = 0 ∧ x.2.2.slot = (s.tile 0).last)) = true) ∧
    ((se (ga a0) {} c0).port 0).eng.copy.any (fun c => decide (c.job = 0)) = true ∧
    (44 < (hot 68 { lease := 1 }).fceil 0 → 44 < (hot 68 { lease := 1 }).commonStep 0) ∧
    ((hot 0 {}).commonStep 0 ≤ 44 ∧ ((hot 0 {}).job 0).account = none) ∧
    (let s := hot 0 { account := some 10 }
     s.commonStep 0 ≤ 44 ∧ (s.job (s.root 0)).account = some 10 ∧ 9 < 10 ∧ 10 ≤ 10 ∧ s.graphs = [(0, s.graph 0)] ∧ (s.graph 0).phase = .resident ∧
       (s.graph 0).quench = none) ∧
    (let s : State := { State.reset with blocks := [(1, { stopped := true }), (2, { temp := 96 }), (3, { temp := 89, tstep := 67 })] }
     (110 ≤ 110 ∧ (s.block 0).stopped = false) ∧ (99 < 100 ∧ (s.block 1).stopped = true) ∧ (109 < 110 ∧ 100 ≤ 100) ∧
       s.tthrot 2 ≤ (s.block 2).temp ∧ 0 < (s.block 2).tstep ∧ (s.block 3).temp + 5 < s.tthrot 3 ∧
       (s.block 3).tstep < 68) ∧
    (let al : Alloy := { members := [0], limit := 67 }
     let s : State := { hot 68 {} with graphs := [(0, { ga a0 with alloys := [(0, al)] })], kiln := { calm := 10 } }
     (∃ r, s.ranked = [r] ∧ (s.graph r.job).large = false ∧ Tab.find (s.graph r.job).alloys r.alloy = some al) ∧ s.kiln.cap < 10501 ∧ 0 < al.limit ∧
       100 * 9974 < 95 * s.kiln.cap ∧ 10 ≤ s.kiln.calm ∧ al.limit < 68) ∧
    (State.reset.residents 4095 = [] ∧ (State.reset.block 4095).hist.length < 30) ∧
    (let s : State := { State.reset with blocks := [(7, { assaying := true }), (8, { assaying := true, running := true })] }
     (s.block 7).assaying = true ∧ (s.block 7).running = false ∧ s.residents 7 = [] ∧ s.inMove 7 = false ∧ (s.block 8).assaying = true ∧
       (s.block 8).running = true) ∧
    (let k : Bank := { rank := 0, unit := 0, assay := 1, cause := 1, addr := 0, synd := 0 }
     Tab.find ({ banks := [(0, k)] } : Block).banks 0 = some k ∧ k.assay = 1) := by
  refine ⟨by decide +kernel, by decide +kernel, fun h => ?_, ⟨commonStep_cold _ (by decide +kernel) (by decide +kernel), rfl⟩, ⟨commonStep_cold _ (by decide +kernel) (by decide +kernel), by decide +kernel⟩, by decide +kernel,
    ⟨⟨_, rfl, by decide +kernel⟩, by decide +kernel⟩,
    by decide +kernel, by decide +kernel, by decide +kernel⟩
  rw [commonStep_hot _ (by decide +kernel) (by decide +kernel) (by decide +kernel)]
  omega

/-! Events: tiles, Silt engines and memory ports. -/

/-- The fault actor of the tests below is the graph's own actor. -/
def gTrap : Graph := { ga { a0 with deliveries := [{ code := 98 }] } with fault := some { aid := 0, handler := 64, area := 128 } }

/-- A copy of the actor is over. -/
def gDone : Graph := ga { a0 with comps := [{ uid := 9, cxid := 77, handler := 64, released := true, done := true }] }

theorem witness_Boundaries :
    (∀ g ∈ [gTrap, gDone, gCh], ((idle g).tile 0).firing = none ∧ (idle g).inMove 0 = false ∧ ((idle g).block 0).stopped = false ∧
      ((idle g).block 0).assaying = false ∧ ((((idle g).takeCauses 0).endExhausted 0).nextActor 0).isSome = true) ∧
    ((gTrap.actor 0).faultPending = true ∧ (gTrap.actor 0).deliveries.head? = some { code := 98 }) ∧
    ((gDone.actor 0).faultPending = false ∧ (gDone.actor 0).suspended = false ∧ (gDone.actor 0).compPending = true) ∧
    ((gCh.actor 0).faultPending = false ∧ (gCh.actor 0).compPending = false) ∧
    after (exec (.firingBoundary 0) (idle gDone)) ≠ State.reset := by decide +kernel

/-- An element of a stream run whose token is there. -/
def fElem : Firing := { fl {} passing with run := some { k := 2 } }

theorem witness_FiringGoesOn :
    ((∀ g ∈ [ga a0, gSt], ((sg g {}).block 0).stopped = false) ∧ let f : Firing := { phase := .commit 3 false, mark := some 0 }
     let s := sg (ga a0) f
     (s.tile 0).firing = some f ∧ s.hasGraph f.job = true ∧ f.cbuf = [] ∧ f.out = [] ∧ f.eff6 = [] ∧ f.launches = []) ∧
    (let al : Alloy := { members := [0], barriers := 1 }
     let s : State := { sg { ga a0 with alloys := [(0, al)] } { phase := .bar 0 false } with kiln := { anctl := 0 } }
     s.hasGraph 0 = true ∧ Tab.find (s.graph 0).alloys 0 = some al ∧ 0 < al.barriers ∧ s.kiln.anctl.getLsbD 0 = false ∧
       s.kiln.anctl.getLsbD 1 = false ∧ (∀ m ∈ al.members, s.arrived 0 0 0 m = true) ∧ ∃ m ∈ al.members, (s.actor 0 m).ended = false) ∧
    (let f : Firing := { phase := .claim 1 }
     let s := sg (ga { a0 with slots := [(1, {})] }) f
     (s.tile 0).firing = some f ∧ s.freeSlots 0 ≠ 0 ∧ Tab.find (s.actor 0 0).slots 1 = some {}) ∧
    ((sg gSt fElem).tile 0).firing = some fElem ∧
    (fElem.run.any (fun r => r.ready gSt aCh fElem.lane 0) = true ∧ fElem.lane.dest 0 = 2) ∧
    (∀ d ∈ [0x0200, 0x4200], let l : LaneSet := { passing with sw := [(0, 0x4010), (1, BitVec.ofNat 16 d)] }
      ({ k := 2 } : Run).ready gSt aCh l 0 = true ∧ l.dest 0 = d / 0x4000) ∧
    (let f := { fl {} passing with run := some { k := 1, fired := [(0, 1)] }, phase := .vswt }
     ((sg gSt f).tile 0).firing = some f ∧ f.run.any (fun r => r.finished f.lane) = true) := by decide +kernel

theorem witness_RowFirings :
    let f : Firing := { mwork := [.rows 0 1 (.tstore 0) 63 2 0 0] }
    let s := sg gMat f
    (s.block 0).stopped = false ∧ (s.tile 0).firing = some f ∧ (∃ m, Tab.find (s.actor 0 0).ctxs 0 = some m ∧
      (s.graph 0).meets 0 true (256 * 0) (rowLen m.afmt) true false = false) :=
  ⟨rfl, rfl, _, rfl, by decide +kernel⟩

/-- A graph whose channel has tokens of 8 bytes on their way to its one actor. -/
def gTransit (ts : List Token) (ended : Bool) : Graph :=
  { ga { aCh with ended := ended } with chans := [(0, { dst := .actor 0 1, width := 8, cap := 100, transit := ts })] }

/-- A graph with a repeat node and a count to take. -/
def gNode (w : Token) : Graph :=
  { ga { a0 with nodes := [(3, { rowCh := 0, cntCh := 1, group := 1, toks := 1 })] } with
    chans := [(0, { buf := [{ data := 5 }] }), (1, { buf := [w] })] }

/-- What the check code of a flit is, is a constant without a value (notes/assumptions/2.md): one of two codes is wrong. -/
theorem witness_flit : flitOk 0 = false ∨ flitOk 1 = false := by
  have h0 : fld (0 : W64) 63 8 = 0 ∧ fld (1 : W64) 63 8 = 0 ∧ fld (0 : W64) 7 0 = 0 ∧ fld (1 : W64) 7 0 = 1 := by decide
  simp only [flitOk, h0, decide_eq_false_iff_not]
  omega

theorem witness_Arrivals :
    (∀ ts ∈ [List.replicate 8 ({ data := 7 } : Token), List.replicate 64 { null := true }], ∀ e ∈ [true, false],
      let s := idle (gTransit ts e)
      let x := (s.graph 0).chan 0
      s.hasGraph 0 = true ∧ (s.graph 0).phase ≠ .saved ∧ x.transit = ts ∧ x.dst.aid? = some 0 ∧ s.midMove ((s.graph 0).actor 0).tile = false ∧
        (((∀ k ∈ ts, k.null = true) ∧ ts.length ≤ 64) ∨ ((∀ k ∈ ts, k.null = false) ∧ ts.length * x.width ≤ 64))) ∧
    (let s := idle { ga a0 with chans := [(0, { ending := true })] }
     s.hasGraph 0 = true ∧ ((s.graph 0).chan 0).ending = true ∧ ((s.graph 0).chan 0).ended = false ∧ ((s.graph 0).chan 0).transit = []) ∧
    (∀ w ∈ [({ data := 65535 } : Token), { data := 65536 }, { data := 1, dross := true }, { null := true }],
      let s := sg (gNode w) {}
      let n : RepNode := { rowCh := 0, cntCh := 1, group := 1, toks := 1 }
      Tab.find (s.actor 0 0).nodes 3 = some n ∧ n.cur = none ∧ ((s.graph 0).chan n.cntCh).buf[n.taken]? = some w ∧
        n.group * n.toks + n.taken * n.group * n.toks ≤ ((s.graph 0).chan n.rowCh).buf.length ∧ (s.firingOf 0 0).isSome = true) := by
  decide +kernel

theorem witness_TileErrors :
    ((idle (ga a0)).owner 0 0 = some (0, a0) ∧ ((idle (ga a0)).tile 0).firing = none) ∧
    (∀ r ∈ [true, false], ((sg (ga a0) { replay := r }).tile 0).firing = some { replay := r } ∧ (sg (ga a0) { replay := r }).hasGraph 0 = true) ∧
    (let f : Firing := { phase := .commit 1 false, run := some { k := 1 } }
     ((sg (ga a0) f).tile 0).firing = some f ∧ f.phase = .commit 1 false ∧ f.run = some { k := 1 } ∧ f.replay = true) ∧
    ((se (ga a0) {} c0).port 0).eng.copy = some c0 := by decide +kernel

/-- A template of engine 0 for actor 0. -/
def tm : Template := { params := List.replicate 16 0, armed := true, bound := true, declCh := some 0 }

/-- A graph with that template and a token on the channel that it is bound to. -/
def gBound (x : Token) : Graph := { ga a0 with templates := [tm], chans := [(0, { buf := [x] })] }

theorem witness_CopyStart :
    let k : Kick := { job := 0, aid := 0, kr := 0, tmpl := 0, uid := 9 }
    let s : State := { idle { ga a0 with templates := [tm] } with ports := [(0, { eng := { kicks := [k] } })] }
    (s.port 0).eng.copy = none ∧ (s.port 0).eng.kicks = [k] ∧ (s.graph k.job).template? 0 k.tmpl = some tm ∧ s.copiesRun k 0 = true := by
  decide +kernel

/-- Four counts of one. -/
def ones4 : V512 := 0x00000001000000010000000100000001

theorem witness_BoundKick :
    (∀ x ∈ [({ null := true } : Token), { dross := true }, {}],
      let s := idle (gBound x)
      s.loaded? 0 0 = some (0, tm) ∧ (s.graph 0).quench = none ∧ ((s.graph 0).chan 0).buf = [x] ∧ (s.graph 0).template? 0 0 = some tm ∧
        (s.port 0).eng.late = [] ∧ (s.port 0).eng.kicks.length < 16) ∧
    tm.armed = true ∧ tm.bound = true ∧ tm.declCh = some 0 ∧ krBad 0 = false ∧ tm.skind ∉ [1, 2] ∧ tm.dkind ∉ [1, 2, 3] ∧
    krCount 0 0 = 0 ∧ krBad (ones4 <<< 192) = false ∧ ∀ d < 4, krCount (ones4 <<< 192) d ≠ 0 := by
  decide +kernel

theorem witness_KickRegister :
    ∀ w ∈ [false, true],
      let s : State := { State.reset with hostLinks := [(0, { rate := 5 })], board := { wport := [(0, BitVec.ofNat 64 w.toNat)] } }
      s.hostUp 0 = true ∧ s.portSecure 0 = w ∧ (Tab.get [] (s.port 0).eng.named 0).length < 16 := by decide +kernel

theorem witness_Mailbox :
    let k : Completion := { uid := 9, cxid := 77, handler := 64, released := true }
    let s := idle (ga { a0 with comps := [k] })
    (s.graph 0).mailbox 77 = some (0, k) ∧ s.midMove (s.actor 0 0).tile = false := by decide +kernel

/-- A requester of port 0, with the tokens of its request channel and the requests that it has taken. -/
def asking (buf : List Token) (done : Bool) (tags : List TagEntry) : State :=
  { idle { ga a0 with streams := [(2, { kind := .requester, chan := 0 })], chans := [(0, { src := .actor 0 2, dst := .stream 2, buf := buf, ended := done }),
                                   (1, { src := .stream 2, dst := .actor 0 1, cap := 4 })] } with
    ports := [(0, { reqs := [(0, { job := 0, stream := 2, tags := tags })] })] }

theorem witness_Takes :
    (∀ b ∈ [[({} : Token)], [{ data := 2 ^ 64 }, { data := 9 }], [{ data := 2 ^ 64 }, { null := true }], [{ null := true }], []],
      let s := asking b (b.isEmpty) []
      let q : Requester := { job := 0, stream := 2 }
      Requests s 0 0 q b ∧ (∀ x ∈ q.tags, x.tag ≠ q.nextTag) ∧
        ((s.graph q.job).chan ((s.graph q.job).stream q.stream).chan).ended = b.isEmpty) ∧
    hdrOp {} = 0 ∧ hdrOp { data := 2 ^ 64 } = 1 := by
  unfold Requests
  decide +kernel

/-- A request of that requester. -/
def taken (w : Bool) (reply : Option Token) : TagEntry := { tag := 0, seq := 0, write := w, mask := 3, tgt := some (.loc 64), reply := reply }

theorem witness_Replies :
    (∀ w ∈ [true, false],
      let s := asking [] false [taken w none]
      let q : Requester := { job := 0, stream := 2, tags := [taken w none] }
      Tab.find (s.port 0).reqs 0 = some q ∧ s.hasGraph q.job = true ∧
        q.tags.find? (fun x => decide (x.tag = (taken w none).tag) && x.reply.isNone) = some (taken w none) ∧
        q.tags.any (fun x => x.holds (taken w none)) = false ∧ s.serves 0 64 = true ∧ s.secureAt 64 = false ∧ s.inExpander 64 = none ∧
        s.mem.isBad 8 = false ∧ 64 % 64 = 0 ∧ (taken w none).ticket = none ∧ (taken w none).bad = none ∧ (taken w none).part = [] ∧
        (taken w none).data.dross = false) ∧
    (let s := asking [] false [taken false (some {})]
     let q : Requester := { job := 0, stream := 2, tags := [taken false (some {})] }
     let x := (s.graph 0).chan 1
     Tab.find (s.port 0).reqs 0 = some q ∧ (s.graph 0).phase = .resident ∧ (s.graph 0).quench = none ∧ q.oldest = some (taken false (some {})) ∧
       (s.graph 0).outsOf q.stream = [1] ∧ x.dst.aid? = some 0 ∧ ((s.graph 0).actor 0).ended = false ∧
       x.buf.length + x.transit.length < x.cap) := by decide +kernel

theorem witness_PortUpkeep :
    (let s : State := { State.reset with ports := [(memTile 207, { trace := [(1, 2, 3)] })] }
     (s.port (memTile 207)).trace = [(1, 2, 3)] ∧ (s.port (memTile 0)).trace = []) ∧
    regAligned (8 + 0) 8 = true ∧ regAligned (8 + 4) 4 = true ∧ regAligned (8 + 1) 8 = false ∧
    (let s : State := { State.reset with board := { expanders := [(0x20000000000, 64, 1, 2, false)] } }
     0x18000000000 ≤ 8 * 0x4000000001 ∧ s.inLpddr (8 * 0x4000000001) = none ∧ (s.inExpander (8 * 0x4000000001)).isSome = true) ∧
    8 * 0x2FFFFFFFFF < 0x18000000000 ∧
    (0x20000000000, 64, 1, 2, false) ∈ ({ expanders := [(0x20000000000, 64, 1, 2, false)] } : Board).expanders := by decide +kernel

/-! Events: global accesses, translation, streams, hosts and peers. -/

/-- A state in which access 5 of actor 0's firing travels. -/
def flying (k : AKind) (t : Target) (sent : Bool) : State :=
  { sg (ga a0) { regs := { s := [(1, { pend := [5] })] } } with
    hostLinks := [(0, { rate := 5 })],
    inflight := [{ id := 5, src := .firing 0 0, cls := 0, kind := k, tgt := t, dest := .scalar 1 0 4 true, sent := sent }] }

/-- That access. -/
def acc (k : AKind) (t : Target) (sent : Bool) : Access :=
  { id := 5, src := .firing 0 0, cls := 0, kind := k, tgt := t, dest := .scalar 1 0 4 true, sent := sent }

theorem witness_Performs :
    (∀ e ∈ [(AKind.load 4, Target.loc 64), (.store [(7, false)], .loc 64), (.atomic .add 1 0 false 4, .loc 64), (.load 4, .host 0 64),
        (.load 4, .none 0)],
      (flying e.1 e.2 false).access? 5 = some (acc e.1 e.2 false) ∧ (flying e.1 e.2 false).free (acc e.1 e.2 false) = true ∧
        (flying e.1 e.2 false).carried (acc e.1 e.2 false) = false) ∧
    (let s := flying (.load 4) (.none 0) false
     s.secureAt 64 = false ∧ s.inExpander 64 = none ∧ s.hostUp 0 = true ∧
       (acc (.load 4) (.none 0) false).quiet = false ∧ ∃ t f, s.firingOf 0 0 = some (t, f) ∧ f.first ≤ 5 ∧ f.nomem = none ∧ (Tab.get {} f.regs.s 1).pend = [5]) :=
  ⟨by decide +kernel, by decide +kernel, by decide +kernel, by decide +kernel, by decide +kernel, _, _, rfl, by decide +kernel⟩

theorem witness_HostCompletions :
    (flying (.load 4) (.host 0 64) true).access? 5 = some (acc (.load 4) (.host 0 64) true) ∧
      (acc (.load 4) (.host 0 64) true).sent = true ∧ (acc (.load 4) (.host 0 64) true).fwd = [] := by decide +kernel

theorem witness_ExpanderCompletions :
    let a := acc (.load 4) (.loc 0x20000000008) false
    let s : State := { flying (.load 4) (.loc 0x20000000008) false with board := { expanders := [(0x20000000000, 64, 1, 2, false)] } }
    s.access? 5 = some a ∧ s.free a = true ∧ a.fwd = [] ∧ s.inExpander 0x20000000008 = some (1, 2, false) ∧ s.secureAt 0x20000000008 = false := by
  decide +kernel

/-- A translation that a host is asked for. -/
def asked (pri : Bool) : AtsReq := { id := 4, link := 0, pasid := 0, page := 16, write := false, who := .firing 0 0 none, pri := pri }

theorem witness_Fluxes :
    (∀ ps ∈ [[7], [7, 8]], ∀ n ∈ [none, some 0],
      let x : Flux := { scope := 0, pasid := 0, va := 0x10000, sh := 16, left := ps, ats := n }
      let s : State := { State.reset with flux := some x }
      s.flux = some x ∧ 7 ∈ x.left ∧ s.follows x 7 = false) ∧
    (let s : State := { State.reset with hostLinks := [(0, { ats := true })] }
     s.flux = none ∧ (s.hostLink 0).ats = true) ∧
    (∀ p ∈ [true, false],
      let s : State := { State.reset with ats := [asked p] }
      (p = false → s.ats.find? (fun x => decide (x.id = 4) && !x.pri && !x.denied) = some (asked p)) ∧
        (p = true → s.ats.find? (fun x => decide (x.id = 4) && x.pri && !x.denied) = some (asked p))) := by decide +kernel

/-- An affine stream of four tokens of 8 bytes. -/
def affine (k : StreamKind) (base : Nat) (w : List Elem) : Stream :=
  { kind := k, base := base, count := [4], stride := [8], window := w, chan := 0 }

/-- A resident graph with that stream, over mapped memory. -/
def streaming (st : Stream) : State :=
  mapped (idle { ga a0 with streams := [(2, st)], chans := [(0, { src := .stream 2, dst := .actor 0 1, width := 8, cap := 4 })] })

/-- The element that the stream issues next. -/
def nextElem (st : Stream) : Elem := { idx := st.next, va := (st.address st.next).toNat, len := 8, st := .spilled noTicket }

/-- The bound of an address is an element of a stream near 2^64. -/
theorem witness_StreamElements :
    (∀ b ∈ [0x10000, 2 ^ 64],
      let st := affine .read b []
      let s := streaming st
      s.hasGraph 0 = true ∧ (s.graph 0).phase = .resident ∧ (s.graph 0).quench = none ∧ (Tab.find (s.graph 0).streams 2).isSome = true ∧
        (s.graph 0).stream 2 = st ∧ st.next < st.total ∧ (s.graph 0).streamWidth st = 8 ∧ (b = 2 ^ 64 → 2 ^ 64 ≤ st.address st.next) ∧
        (b = 0x10000 → 0 ≤ st.address st.next ∧ st.address st.next < 2 ^ 64 ∧ (s.place 0 2 st (nextElem st)).1.isSome = true ∧
          (s.place 0 2 st (nextElem st)).2.graphs = s.graphs)) ∧
    (∀ k ∈ [StreamKind.read, .write],
      let e : Elem := { idx := 0, va := 0x10000, len := 8, st := .issued [(.loc 0x10000, 8)] }
      let st := affine k 0x10000 [e]
      let s := streaming st
      ((s.graph 0).stream 2).window.find? (fun x => decide (x.idx = 0)) = some e ∧ (s.graph 0).mayPerform st e = true) ∧
    (∀ e ∈ [(StreamKind.read, AKind.load 8), (.write, .store [(7, false)])],
      let x : Elem := { idx := 0, va := 0x10000, len := 8, st := .external [none] [(.loc 0x10000, 8)] }
      let a : Access := { id := 5, src := .stream 0 2 0 0, cls := 0, kind := e.2, tgt := .loc 0x10000 }
      let s := { streaming (affine e.1 0x10000 [x]) with inflight := [a] }
      s.access? 5 = some a ∧ s.free a = true ∧ s.carried a = false ∧ s.secureAt 0x10000 = false ∧ s.inExpander 0x10000 = none ∧
        s.hasGraph 0 = true ∧ x ∈ ((s.graph 0).stream 2).window) ∧
    (∀ k ∈ [StreamKind.read, .write],
      let e : Elem := { idx := 0, va := 0x10000, len := 8, st := .external [some [(7, false)]] [(.loc 0x10000, 8)] }
      let s := streaming (affine k 0x10000 [e])
      s.hasGraph 0 = true ∧ (s.graph 0).phase = .resident ∧
        ((s.graph 0).stream 2).window.find? (fun x => decide (x.idx = 0)) = some e) ∧
    (let e : Elem := { idx := 0, va := 0x10000, len := 8, st := .read {} }
     let st := affine .read 0x10000 [e]
     let s := streaming st
     let x := (s.graph 0).chan 0
     (s.graph 0).outsOf 2 = [0] ∧ x.buf.length + x.transit.length < x.cap ∧ ∀ y ∈ st.window, e.idx ≤ y.idx) := by decide +kernel

/-- A served host link, and one secure region. -/
def served : State :=
  { State.reset with hostLinks := [(0, { rate := 5 })], board := { wrega := [(0, 0xC000000000000001)], wregb := [(0, 1)] } }

theorem witness_HostAccesses :
    served.hostServes 0 = true ∧ served.board.expanders = [] ∧ served.mem.bad = [] ∧ served.secureAt 0x200000 = true ∧
      (∀ i ∈ List.range 16, served.secureAt (0x1FFFF0 + i) = false) ∧ 0x1FFFF0 + 16 ≤ 0x18000000000 ∧ 16 ≤ 512 := by decide +kernel

/-- A reduction of two parts over one token. -/
def reducing (ops : List ReduceOp) : State :=
  idle { ga a0 with
    streams := [(2, { kind := .reduce, mode := 1, count := [16], stride := [3], members := [0, 5], chan := 0, ops := ops })],
    chans := [(0, { src := .actor 0 2, dst := .stream 2, buf := [{ null := true }, { data := 9 }] }),
              (1, { src := .stream 2, dst := .actor 0 1, cap := 2 })] }

/-- An operation of it. -/
def op0 : ReduceOp := { idx := 0, own := List.replicate 64 (1, false) }

theorem witness_Reduces :
    (let s := reducing []
     let st := (s.graph 0).stream 2
     s.hasGraph 0 = true ∧ (s.graph 0).phase = .resident ∧ (s.graph 0).quench = none ∧ st.kind = .reduce ∧ st.ended = false ∧
       gather (st.contribution - st.got.length) ((s.graph 0).chan st.chan).buf = (2, [{ data := 9 }]) ∧
       st.contribution ≤ st.got.length + 1 ∧ gather 2 ((s.graph 0).chan st.chan).buf = (2, [{ data := 9 }]) ∧
       ({ st with count := [32] } : Stream).contribution = 2 ∧ st.got.length + 1 < 2) ∧
    (let s := reducing [op0]
     let st := (s.graph 0).stream 2
     let x := (s.graph 0).chan 1
     let m : Nat × List (Byte × Bool) := (5, List.replicate 64 (2, false))
     st.results = [] ∧ st.ops = [op0] ∧ (s.graph 0).outsOf 2 = [1] ∧ x.buf.length + x.transit.length + st.contribution ≤ x.cap ∧
       (m.1 ∈ st.members ∧ m.1 ≠ s.board.domid ∧ m.2.length = 2 ^ (st.mode + 1) * st.count.headD 0) ∧
       ∀ q ∈ st.members, q ≠ s.board.domid → q = m.1) := by decide +kernel

theorem witness_Links :
    (let s : State := { State.reset with
       linkPorts := [(47, { lanes := 4, rate := 3, en := true })], hostLinks := [(3, { lanes := 16, rate := 6 })] }
     (s.linkPort 47).lanes ≠ 0 ∧ (s.hostLink 3).rate ≠ 0 ∧ s.board.held = false ∧ (s.linkPort 47).en = true ∧
       ∀ k < 4, (s.block (portBlock (64 * 3 + 30 + k))).spent = false) := by decide +kernel

/-- Peer 5 as the tests have it. -/
def peered (p : Peer) : State := { State.reset with peers := [(5, p)] }

theorem witness_InboundRequests :
    ((peered { st := .active }).peer 5).st = .active ∧ ((peered { st := .active }).peer 5).icount < ((peered { st := .active }).peer 5).ibudget ∧
    ((peered { st := .active, icount := 64 }).peer 5).ibudget ≤ ((peered { st := .active, icount := 64 }).peer 5).icount ∧
    ((peered { st := .isolated }).peer 5).st = .isolated ∧ ((peered {}).peer 5).st = .disabled ∧ 0xF8 % 256 + 8 ≤ 256 ∧ 0xF8 + 8 ≤ 2 ^ 42 := by decide +kernel

/-- A request to peer 5 for access 5 of actor 0's firing; port 0 is the one that is up. -/
def outbound (sent : Bool) : State :=
  let s := flying (.load 4) (.peer 5 64) sent
  { s with peers := [(5, { st := .active })], linkPorts := [(0, { lanes := 4, rate := 3, en := true })],
           outreqs := [{ id := 8, accs := [5], peer := 5, cls := 0, sent := sent, read := true }] }

/-- That request. -/
def req8 (sent : Bool) : OutReq := { id := 8, accs := [5], peer := 5, cls := 0, sent := sent, read := true }

theorem witness_OutboundRequests :
    ((outbound false).outreqs.find? (fun x => decide (x.id = 8) && !x.sent) = some (req8 false) ∧
      ((outbound false).peer 5).st = .active ∧ ((outbound false).peer 5).ocount < ((outbound false).peer 5).obudget ∧
      (outbound false).orderOk (req8 false) = true ∧ (∀ a ∈ (outbound false).accsOf (req8 false), a.dross = false) ∧
      ∀ x ∈ (outbound false).outreqs, x.sent = false) ∧
    (outbound false).portOf 5 0 = some 0 ∧
    ((outbound true).outreqs.find? (fun x => decide (x.id = 8) && x.sent) = some (req8 true) ∧
      (outbound true).accsOf (req8 true) = [acc (.load 4) (.peer 5 64) true] ∧ ((outbound true).peer 5).st = .active) := by
  refine ⟨by decide +kernel, ?_, by decide +kernel⟩
  have h : (outbound false).usablePorts = [0] := by decide +kernel
  simp [State.portOf, h, Nat.mod_one]

/-! The spec's worked examples, and small cases of its rules. -/

/-- Words of the worked examples of 14. -/
theorem test_wordsOfOnes : ∀ e ∈ [((0x08A03F80 : Nat), (.addi 5 0 0x3F80 : Instr)), (0x9C250001, .vbcast 1 5 none), (0xA4200001, .tsst 1 0),
    (0x2D07FFFE, .bne 8 7 0xFFFE), (0xA0000000, .sclaim 0), (0xA4090003, .tsslot 0 9), (0xA0200002, .mctx 1 0), (0xA0200006, .mzero 1),
    (0xA0203003, .mrow 1 0 6), (0x21000007, .lui 8 7), (0x11080100, .ori 8 8 0x100), (0xA0274007, .mdrain 1 7 8), (0xA0000008, .mwait)],
    decodeTableWord 32 e.1 = some e.2 := by decide

/-- Words of the worked examples of 11, 12 and 13, with words of R345, R410 and R413. -/
theorem test_wordsOfSums : ∀ e ∈ [((0x68200000 : Nat), (.vl 1 0 0 0 : Instr)), (0x6C010005, .sendv 1 0), (0x6C200001, .recvv 1 0),
    (0x8C00000A, .wclr 0 none), (0x8C010008, .wadd 0 1 none), (0x8C00080B, .wcpy 0 0 1), (0x8C400009, .wrd 2 0 none),
    (0x9CA20003, .vext 5 2 0), (0x50C000A0, .lw 6 0 2 0), (0x04A53010, .mul 5 5 6), (0x24C60050, .srli 6 6 16), (0x5CE80030, .lgd 7 8 0 0),
    (0x4CA00014, .csrr 5 0x014), (0x70A63802, .aadd 5 6 7 2), (0x74400008, .fence 2 8)],
    decodeTableWord 32 e.1 = some e.2 := by decide

/-- The clause of R379 on a source with dross: s3 of `r0` carries it. -/
theorem witness_PredicateDross :
    Executes (sg (ga a0) { regs := r0 }) 0 { regs := r0 } ∧ Here r0 [3] [] ∧ r0.drossS 3 = true :=
  ⟨runs rfl, here (by decide +kernel), by decide +kernel⟩

/-- R311, R314, R315: the forbidden words of the worked example of 11. -/
theorem test_wordsRefused : ∀ w ∈ [(0x54C000B0 : Nat), 0x6CA10000, 0x8C41000B], decodeTableWord 32 w = none := by decide

/-- One step of the word `w` by a firing with the registers `r`. -/
def ran (w : Nat) (r : Regs) : State :=
  after (step { State.reset.withFetchWord 32 w with tiles := [(0, { firing := some { regs := r } })] })

/-- The value of scalar register `n` after it, with its dross. -/
def scalar (w : Nat) (r : Regs) (n : BitVec 5) : W64 × Bool :=
  let x := (firing (ran w r)).regs
  (x.val n, x.drossS n)

/-- 12's prose after R341: rem of −7 by 2 is −1, and div of −7 by 2 is −3; a remainder by zero is 0, and so is div of 0 by 0. -/
theorem test_div :
    scalar 0x04853013 (rg [(5, 2 ^ 64 - 7), (6, 2)]) 4 = (BitVec.ofInt 64 (-3), false) ∧
    scalar 0x04853015 (rg [(5, 2 ^ 64 - 7), (6, 2)]) 4 = (BitVec.ofInt 64 (-1), false) ∧
    scalar 0x04853015 (rg [(5, 9)]) 4 = (0, false) ∧ scalar 0x04853013 (rg [(6, 0)]) 4 = (0, false) ∧
    scalar 0x04853013 (rg [(5, 2 ^ 63), (6, 2 ^ 64 - 1)]) 4 = (0x7FFFFFFFFFFFFFFF, false) := by decide +kernel

/-- 12's prose after R342: lui s8, 0x8000 writes 0xFFFF_FFFF_8000_0000; R341: a sum wraps, and dross goes to the result. -/
theorem test_scalar :
    scalar 0x21008000 {} 8 = (0xFFFFFFFF80000000, false) ∧ scalar 0x08A5FFFF (rg [(5, 84)]) 5 = (83, false) ∧
    scalar 0x04A53000 (rg [(5, 2 ^ 64 - 1), (6, 2)]) 5 = (1, false) ∧
    scalar 0x04A32000 r0 5 = (4, true) := by decide +kernel

/-- The worked example of 11: scale reads 7 from bytes 8 to 11 of its handler RAM. -/
theorem test_lw :
    let s := State.reset.withFetchWord 32 0x50C000A0
    let a : Actor := { s.actor 0 0 with hram := Memory.setBytes {} 8 [7, 0, 0, 0] }
    ((firing (after (step (s.setActor 0 0 a)))).regs.val 6 = 7) := by decide +kernel

/-- 12's filter example: chcnt returns RATE 1, RIDX 1 and LNULL 0; a branch on a negative number is taken by 6 words. -/
theorem test_filter :
    (let a : Actor := { a0 with ins := [(0, 1)], inCh := [(0, 0)], code := Memory.setBytes {} 0 (bytesOfWord 0x6CC00009) }
     let s := sg { ga a with chans := [(0, { width := 8 })] } { ridx := [(0, 1)], lnull := [(0, false)] }
     (firing (after (step s))).regs.val 6 = 0x101) ∧
    (firing (ran 0x30050006 (rg [(5, 2 ^ 64 - 3)]))).regs.pc = 24 ∧ (firing (ran 0x30050006 (rg [(5, 9)]))).regs.pc = 4 := by decide +kernel

/-- 13's exact sum: 2^24 + 1 − 2^24 is 1 without a flag (R273, R274). -/
theorem test_ingot :
    let v := fun c => fp32.decode c
    let g := ((({} : Ingot).add (v 0x4B800000) false).add (v 0x3F800000) false).add (v 0xCB800000) false
    g.readOut 0 false 0 = { code := 0x3F800000, flags := 0 } := by decide +kernel

/-- 09's example of R270: two row firings of +600,000 and −700,000 on 2,147,000,000, with ISAT 0 and with ISAT 1. -/
theorem test_saturate :
    let row := fun n : Int => [(XV.ofInt n, (0 : BitVec 5))]
    let m : Mctx := { word := 0x00800000 }
    let sat : Mctx := { word := 0x00C00000 }
    m.int = true ∧ m.isat = false ∧ sat.int = true ∧ sat.isat = true ∧
      (combine m (combine m 2147000000 (row 600000)).1 (row (-700000))).1 = 2146900000 ∧
      combine sat 2147000000 (row 600000) = (2147483647, flOF) ∧ (combine sat 2147483647 (row (-700000))).1 = 2146783647 := by
  decide +kernel

/-- 09's prose after R265: 1/3 into BF16 under mode 0 is 0x3EAB. -/
theorem test_scaled : (scaledNarrow 6 0 false 0 (decodeFmt 7 0x3F800000) (decodeFmt 7 0x40400000)).code = 0x3EAB := by decide +kernel

/-- 01's example of R14: port tile 173 is side 2, position 45, a memory port of stack 15, the sixth of its eight. -/
theorem test_port : portKind 173 = .mem (8 * 15 + 5) := by decide
/-! Clauses that a witness above does not meet. -/

/-- R347: a span of 64 bytes that ends one byte past handler RAM. -/
theorem witness_VectorSpans :
    let f := fr (rg [(1, 16384 - 64)])
    Executes (sg (ga a0) f) 0 f ∧ Here f.regs [1] [2] ∧ f.regs.drossS 1 = false ∧ InRam (sg (ga a0) f) f (ea (f.regs.val 1) 0 64) 64 ∧
    ¬ InRam (sg (ga a0) f) f (ea (f.regs.val 1) 1 64) 64 :=
  ⟨runs rfl, here (by decide +kernel), by decide +kernel, by unfold InRam; decide +kernel, by unfold InRam; decide +kernel⟩

/-- R356, R357: a peek at the index that is the rate, and sends past the rate, one by its count. -/
theorem witness_PastRates :
    let f : Firing := { regs := rg [(1, 2), (2, 1)], sent := [(2, 2)] }
    let s := sg gCh f
    Executes s 0 f ∧ Here f.regs [1, 2] [1] ∧ f.kind = .ordinary ∧ f.regs.drossS 1 = false ∧ f.regs.drossS 2 = false ∧
    (s.actor 0 0).cRate 1 = some 2 ∧ 2 ≤ (f.regs.val 1).toNat ∧ (s.graph 0).wIn (s.actor 0 0) 1 ≤ 8 ∧
    (s.actor 0 0).pRate 2 = some 2 ∧ 2 ≤ Tab.get 0 f.sent 2 ∧ (s.graph 0).wOut (s.actor 0 0) 2 ≤ 8 ∧
    (∀ sent ∈ [0, 1], let h : Firing := { f with sent := [(2, sent)] }; Executes (sg gCh h) 0 h ∧
      (sent = 0 → ¬ 2 < Tab.get 0 h.sent 2 + (h.regs.val 1).toNat) ∧ (sent = 1 → 2 < Tab.get 0 h.sent 2 + (h.regs.val 1).toNat)) := by
  refine ⟨runs rfl, here (by decide +kernel), rfl, by decide +kernel, by decide +kernel, by decide +kernel, by decide +kernel,
    by decide +kernel, by decide +kernel, by decide +kernel, by decide +kernel, ?_⟩
  intro n hn
  refine ⟨runs rfl, ?_⟩
  revert n hn
  decide +kernel

/-- R362: a SIMD array has none of the other three modes, a comparison of values out of each class, and values with dross. -/
theorem witness_OtherModes :
    (let f := fl r0 (lanes 0x20020000)
     Executes (sg (ga a0) f) 0 f ∧ Here f.regs [1, 2] [1, 2, 3, 8, 16] ∧ f.lane.online = false ∧ f.lane.stream = false ∧ f.lane.join = false ∧
       ∀ e ∈ (laneForms 1 2 3 none).take 18, e.1 f.lane = false ∨ e.1 (lanes 0x200A0000) = false) ∧
    (let f := fl { v := [(3, { val := 1, dross := 1 })] } (lanes 0x70020000)
     LaneRuns (sg (ga a0) f) 0 f LaneSet.simd ∧ Here f.regs [] [2, 3] ∧ InClass f none isFloatFmt ∧ ¬ InClass f none isIntFmt ∧
       ∃ i ∈ enabled f none, valueX (f.regs.rdV 3) f.lane.w i = true ∨ valueX (f.regs.rdV 2) f.lane.w i = true) :=
  ⟨⟨runs rfl, here (by decide +kernel), by decide +kernel, by decide +kernel, by decide +kernel, by decide +kernel⟩,
    laneRuns (by decide +kernel), here (by decide +kernel), by unfold InClass; decide +kernel, by unfold InClass; decide +kernel, 0,
    by decide +kernel⟩

/-- R395: an srel of a handle that is not held; R397: a context of the first one's row length and one of another. -/
theorem witness_MrepRows :
    let f : Firing := { regs := rg [(2, 1)], bbind := [(0, 1), (1, 1)] }
    let g : Graph := { gMat with actors := [(0, { aMat with ctxs := [(0, { word := 0x77000000 }), (1, { word := 0x00800000 })] })] }
    let s := sg g f
    let x := s.actor 0 0
    Executes s 0 f ∧ Here f.regs [0, 2] [] ∧ (Tab.find x.slots 2).any (fun y => !y.claimed) = true ∧ RowDesc (f.regs.val 2) 0 1 ∧
    (Tab.find x.nodes 3).isSome = true ∧ x.ctxs = (0, { word := 0x77000000 }) :: [(1, { word := 0x00800000 })] ∧
    (Tab.find x.ctxs 0).any (fun m => rowLen 7 = rowLen m.afmt) = true ∧ (Tab.find x.ctxs 1).any (fun m => rowLen 7 ≠ rowLen m.afmt) = true :=
  ⟨runs rfl, here (by decide +kernel), by decide +kernel, by unfold RowDesc; decide +kernel, by decide +kernel, by decide +kernel,
    by decide +kernel, by decide +kernel⟩

/-- R419: a context word whose register carries dross. -/
theorem witness_ContextWord :
    let f := fr { s := [(1, { val := 0x77000000, dross := true })] }
    let s := sg (ga aTile) f
    Executes s 0 f ∧ Here f.regs [1] [] ∧ f.regs.drossS 1 = true ∧ (Tab.find (s.actor 0 0).ctxs 0).isSome = true ∧ f.mwork = [] ∧
    ctxWordOk ((f.regs.val 1).setWidth 32) = true ∧ (s.actor 0 0).ctxs = (0, { word := 0x77000000 }) :: [(1, { word := 0x00800000 })] :=
  ⟨runs rfl, here (by decide +kernel), by decide +kernel, by decide +kernel, rfl, by decide +kernel, rfl⟩

/-- R407: a fill whose data carries dross, to the end of the buffer. -/
theorem witness_BurstFill :
    let r : Regs := { s := [(1, { val := 4032 }), (2, { val := 5, dross := true }), (3, { val := 64 })] }
    Bursts (se (ga a0) r c0) 0 c0 ∧ Here r [1, 2, 3] [] ∧ r.drossS 1 = false ∧ r.drossS 2 = true ∧ r.drossS 3 = false ∧
    BurstWord (r.val 3) 0 64 ∧ 4032 + 64 ≤ 4096 :=
  ⟨bursts, here (by decide +kernel), by decide +kernel, by decide +kernel, by decide +kernel, by unfold BurstWord; decide +kernel, by decide⟩

/-- R316, R408: a word outside the subset; loads before and past the parameters; a burst past byte 4095 of the buffer, one past
address 2^64 − 1, and one past each local space. -/
theorem witness_MicrocodeBounds :
    (∀ e ∈ [(Instr.commit, (0x48000001 : W32)), (.recv 29 22, 0x6FA05800)], encode e.1 = some e.2 ∧ ¬ MicrocodeWord e.2) ∧
    (let r := rg [(1, 0x2040 - 4), (2, 2)]
     Copies (se (ga a0) r c0) 0 c0 ∧ Here r [1, 2] [] ∧ r.drossS 1 = false ∧ r.drossS 2 = false ∧ ea (r.val 1) 0 4 + 4 = 0x2040 ∧
       0x2040 < ea (r.val 1) 1 4 + 4 ∧ ea (r.val 2) (-1) 4 < 0) ∧
    (∀ e ∈ [(4033, 4033, 0), (0, 2 ^ 64 - 63, 0), (2 ^ 64 - 63, 0, 0), (0, 16321, 2), (16321, 0, 1)],
     let r := burst e.1 e.2.1 e.2.2 64
     let s := se (ga { a0 with rows := 64 }) r c0
     Bursts s 0 c0 ∧ Here r [1, 2, 3] [] ∧ (r.drossS 1 = false ∧ r.drossS 2 = false ∧ r.drossS 3 = false) ∧ BurstWord (r.val 3) e.2.2 64 ∧
       (r.val 1).toNat = e.1 ∧ (r.val 2).toNat = e.2.1 ∧ (e.2.2 = 0 ∨ (spaceOf (s.actor 0 0) e.2.2).2 = 16384)) := by
  refine ⟨?_, ⟨copies, here (by decide +kernel), by decide +kernel⟩, ?_⟩
  · unfold MicrocodeWord; decide +kernel
  · intro e he
    refine ⟨bursts, here ?_, ?_, ?_, ?_, ?_, ?_⟩ <;> (try unfold BurstWord) <;> (revert e he; decide +kernel)

/-- R155, R331: no load of these firings is on its way, and in the last one a load of it is on its way to no memory. -/
theorem witness_Unperformed :
    (∀ f ∈ [({} : Firing), { replay := false }, { kind := .fault { code := 1 } }],
      (sg (ga a0) f).unperformed f = [] ∧ (sg (ga a0) f).lateFoul f = none) ∧
    (sg gCh {}).unperformed {} = [] ∧
    (let f : Firing := {}
     let x : Access := { id := 5, src := .firing 0 0, cls := 0, kind := .load 4, tgt := .none 64, dest := .scalar 1 0 4 true }
     let s : State := { sg (ga a0) f with inflight := [x] }
     s.unperformed f = [x] ∧ f.kind = .ordinary ∧ f.replay = true ∧ f.nomem = none) := by decide +kernel

/-- R123: no port tile of these states is stopped. -/
theorem witness_PortRuns : (se (ga a0) {} c0).portStopped 0 = false := by decide +kernel

/-- R61, R108: a live job of a Running queue of the function that is reset. -/
theorem witness_FunctionResetLive :
    let b : Job := { st := .waiting }
    let x : Queue := { st := .running, head := 1, tail := 1 }
    let s : State := { up with jobs := [(3, b)], queues := [(0, x)] }
    s.hostServes 0 = true ∧ s.jobs = [(3, b)] ∧ b.parent = none ∧ b.queue = 0 ∧ b.st = .waiting ∧ s.graphs = [] ∧ s.queues = [(0, x)] ∧
      x.link = 0 ∧ x.fn ≤ 63 ∧ x.st = .running ∧ x.retire ≠ x.head := by decide +kernel

/-- R62: a block that cannot be read, within its limits. -/
theorem witness_LoadfwFails :
    MailWrite (mail 0 64 none) 1 0x10001 ∧ (mail 0 64 none).board.fwstate = 0 ∧ (mail 0 64 none).board.mb.addr.toNat % 4096 = 0 ∧
      (mail 0 64 none).board.mb.len.toNat ≤ 2 ^ 24 := by
  unfold MailWrite
  decide +kernel

/-- R167: a marker flit whose check fails. -/
theorem witness_MarkerFlit :
    ∃ w, flitOk w = false ∧ ∃ u, exec (.weldWavefront 3 ⟨0, some (w, 0)⟩) (welding gEnded) = .next u := by
  rcases witness_flit with h | h
  all_goals exact ⟨_, h, _, by simp only [exec, execWeldWavefront, State.takeMark, h]; rfl⟩

/-- R305: the actor whose memories a quench finds uncorrectable. -/
theorem witness_QuenchFound :
    let s := kiln 10500 [(3, { ga a0 with phase := .quenching, quench := some {} })] { st := .resident }
    s.owner 0 0 = some (3, a0) ∧ a0.tile = 0 := by decide +kernel

/-- R137: energy during a quench that it has caused, and without one. -/
theorem witness_Stalling :
    (let s : State := { hot 0 { account := some 10 } with graphs := [(0, { ga a0 with phase := .quenching, quench := some { stall := true } })] }
     s.root 0 = 0 ∧ s.stalling 0 = true ∧ (s.lowest 0).any (fun x => decide (x.1 = 0)) = true) ∧
    (∀ step ∈ [0, 68], (hot step { account := some 10 }).stalling 0 = false) := by decide +kernel

/-- R155: nothing of these firings is on its way. -/
theorem witness_Own : (sg (ga a0) { phase := .commit 3 false, mark := some 0 }).own { phase := .commit 3 false, mark := some 0 } = [] := by
  decide +kernel

/-- R184: groups of the repeat node of `gNode`. -/
theorem witness_Groups :
    let s := sg (gNode { data := 65535 }) {}
    let n : RepNode := { rowCh := 0, cntCh := 1, group := 1, toks := 1 }
    (s.graph 0).phase = .resident ∧ (s.block (s.actor 0 0).tile).stopped = false ∧
      n.gone + n.group * n.toks ≤ ((s.graph 0).chan n.rowCh).buf.length ∧ 0 < n.group * n.toks := by decide +kernel

/-- R201: the oldest kick that nothing holds back, at a port tile that runs. -/
theorem witness_CopyQueue :
    let k : Kick := { job := 0, aid := 0, kr := 0, tmpl := 0, uid := 9 }
    let s : State := { idle { ga a0 with templates := [tm] } with ports := [(0, { eng := { kicks := [k], regs := r0 } })] }
    ((s.port 0).eng.kicks ++ (s.port 0).eng.late).find? (fun x => !s.kickWaits x 0) = some k ∧ s.portStopped 0 = false ∧
      (∀ e ∈ (s.port 0).eng.regs.s, e.2.pend = []) ∧ (idle (gBound {})).portStopped 0 = false := by decide +kernel

/-- R46, R56: a request all of whose granules are performed, and one of which some are. -/
theorem witness_Granules :
    (∀ w ∈ [true, false],
      let t : TagEntry := { taken w none with part := (List.range 8).map (fun g => (g, [])) }
      let s := asking [] false [t]
      let q : Requester := { job := 0, stream := 2, tags := [t] }
      Tab.find (s.port 0).reqs 0 = some q ∧ q.tags.find? (fun x => decide (x.tag = t.tag) && x.reply.isNone) = some t ∧ t.part.length = 8 ∧
        s.portStopped 0 = false ∧ 0 < 64 ∧ (s.port 0).trace.length < 64) ∧
    (let t : TagEntry := { taken false none with part := [(7, [])] }
     Tab.find t.part 0 = none ∧ t.part.length ≠ 8) := by decide +kernel

/-- R56, R59: a read of MPTRC and one of another register. -/
theorem witness_RegisterReads :
    up.hostServes 0 = true ∧ up.present (.pf 0) = true ∧ mptrcAt 0x10 = none ∧ mptrcAt (0x400000 + 0x1000 * 207 + 8) = some 207 ∧
      regAligned 0x10 8 = true ∧ regAligned 0x14 4 = true ∧ regAligned 0x11 2 = false := by decide +kernel

/-- What an address leads to, as a number: 0 a cell, 1 a host, 2 a peer, 3 a register, 4 nothing. -/
def targetKind : Target → Nat
  | .loc _ => 0
  | .host _ _ => 1
  | .peer _ _ => 2
  | .reg _ => 3
  | .none _ => 4

/-- R291: rings in memory, at a host, in the window of a peer that is Active or not, and in the register space; one that is full. -/
theorem witness_FaultRecords :
    (∀ e ∈ [((0x10000 : Nat), 0), (0x1000000000000, 1), (0x40000000000000 + 5 * 2 ^ 42, 2), (0x18000000000, 3)],
      let q : FaultQueue := { base := BitVec.ofNat 64 (e.1 + 4), en := true, tail := 7, head := 3 }
      ∀ st ∈ [PeerState.active, .isolated],
      let s : State := { State.reset with fq := q, peers := [(5, { st := st })], hostLinks := [(0, { rate := 5 })] }
      let pa := 4096 * fld q.base 54 12 + 32 * (q.tail.toNat % 2 ^ fld q.base 3 0)
      (s.faultQ false).wait = [] ∧ q.en = true ∧ (q.tail - q.head).toNat ≠ 2 ^ fld q.base 3 0 ∧ targetKind (s.target pa) = e.2 ∧
        s.inExpander pa = none ∧ (s.peer 5).st = st) ∧
    (let q : FaultQueue := { en := true, tail := 16 }
     (q.tail - q.head).toNat = 2 ^ fld q.base 3 0) := by decide +kernel

/-- R297: a block with one bank, with banks of every rank, and with four of the highest. -/
theorem witness_BankRecords :
    let r : Bank := { rank := 2, unit := 5, cause := 9, addr := 64, synd := 0 }
    let same := fun e : Nat × Bank => decide (e.2.rank = r.rank ∧ e.2.unit = r.unit ∧ e.2.addr = r.addr)
    let b1 : Block := { banks := [(0, r)] }
    let b2 : Block := { banks := [(0, { r with addr := 0 })] }
    let b3 : Block := { banks := (List.range 4).map (fun i => (i, { r with rank := i % 2, addr := 0, stamp := i })) }
    let b4 : Block := { banks := (List.range 4).map (fun i => (i, { r with rank := 3, addr := 0, stamp := i })) }
    b1.banks.find? same = some (0, r) ∧
    (b2.banks.find? same = none ∧ Tab.find b2.banks 1 = none ∧ ∀ j < 1, Tab.find b2.banks j ≠ none) ∧
    (b3.banks.find? same = none ∧ (∀ i < 4, Tab.find b3.banks i ≠ none) ∧ (0, { r with rank := 0, addr := 0 }) ∈ b3.banks ∧
      ∀ e ∈ b3.banks, e.2.rank < r.rank → e = (0, { r with rank := 0, addr := 0 }) ∨ 0 < e.2.stamp) ∧
    (b4.banks.find? same = none ∧ (∀ i < 4, Tab.find b4.banks i ≠ none) ∧ ∀ e ∈ b4.banks, r.rank ≤ e.2.rank) := by decide +kernel

/-- R348, R219: a load of four bytes on its way to no memory, for a scalar register that holds nothing yet and for a vector register. -/
def foul (v : Bool) : State :=
  let d : Dest := if v then .vector 3 0 else .scalar 1 0 4 true
  let r : Regs := if v then { v := [(3, { pend := [5] })] } else { s := [(1, { pend := [5] })] }
  { sg (ga a0) { regs := r } with inflight := [{ id := 5, src := .firing 0 0, cls := 0, kind := .load 4, tgt := .none 64, dest := d }] }

theorem witness_Foul :
    ∀ v ∈ [true, false],
      let s := foul v
      (s.access? 5).any (fun a => s.free a && !a.sent && !s.carried a && !a.quiet && decide (a.fwd = [])) = true ∧
        (s.firingOf 0 0).any (fun f => decide (f.2.first ≤ 5 ∧ f.2.nomem = none ∧
          (if v then (Tab.get {} f.2.regs.v 3).pend = [5] else (Tab.get {} f.2.regs.s 1).pend = [5] ∧ (Tab.get {} f.2.regs.s 1).val = 0))) = true ∧
        (flying (.load 4) (.host 0 64) false).nonPosted 0 < 1024 := by decide +kernel

/-- The last granule of a host's request, or the first of two, on its way to address `pa`. -/
def bar2 (read : Bool) (pa : Nat) (last bad err : Bool) : State :=
  let k : AKind := if read then .load 8 else .store [(7, false)]
  let r : InReq := { id := 4, peer := 4096, addr := pa, read := read, parts := [(5, 8, none)] ++ (if last then [] else [(6, 8, none)]), err := err }
  { served with
    mem := { bad := if bad then [pa / 8] else [] }, inreqs := [r],
    inflight := [{ id := 5, src := .inbound 4096 4, cls := 0, kind := k, tgt := .loc pa }] }

theorem witness_HostRequests :
    (∀ read ∈ [true, false], ∀ pa ∈ [0x1FFFF8, 0x200000], ∀ last ∈ [true, false], ∀ bad ∈ [true, false], ∀ err ∈ [true, false],
      let s := bar2 read pa last bad err
      (s.access? 5).any (fun a => s.free a && !a.sent && !s.carried a && decide (a.fwd = [])) = true ∧ s.inExpander pa = none ∧
        s.secureAt pa = decide (pa = 0x200000) ∧ (s.inreqs.find? (fun x => decide (x.id = 4))).any (fun r => decide (r.read = read)) = true ∧
        anyDross (s.mem.reads pa 8) = bad ∧ s.board.hpctl.getLsbD 0 = false) ∧
    (let s : State := { served with board := { hpctl := 1 } }
     s.board.hpctl.getLsbD 0 = true) ∧
    4096 < 4097 ∧ 0x100 + 4097 ≤ 2 ^ 42 ∧ (List.replicate 513 (0 : Byte)).length = 513 := by decide +kernel

/-- R61: a peer's request to an expander of the link that is reset. -/
def expanding : State :=
  { peered { st := .active } with
    board := { expanders := [(0x20000000000, 64, 1, 2, false)] },
    inreqs := [{ id := 4, peer := 5, addr := 0, read := true, parts := [(6, 8, none)] }],
    inflight := [{ id := 6, src := .inbound 5 4, cls := 0, kind := .load 8, tgt := .loc 0x20000000000 }] }

theorem witness_LinkResetPeer :
    (expanding.access? 6).any (fun a => decide (a.src = .inbound 5 4 ∧ a.tgt = .loc 0x20000000000) && expanding.free a) = true ∧
      expanding.inExpander 0x20000000000 = some (1, 2, false) ∧
      expanding.inreqs.find? (fun x => decide (x.id = 4)) = some { id := 4, peer := 5, addr := 0, read := true, parts := [(6, 8, none)] } := by
  decide +kernel

/-- A host link with a spent port, which trains with eight lanes. -/
theorem witness_SpentLink :
    let s : State := { State.reset with blocks := [(portBlock 30, { spent := true })] }
    s.board.held = false ∧ (∃ k < 4, (s.block (portBlock (64 * 0 + 30 + k))).spent = true) ∧ 8 ∈ [1, 2, 4, 8, 16] ∧
      after (exec (.linkTrained (.host 0) 8 5 true true) s) ≠ State.reset := by decide +kernel

/-- Tables of one PASID: a table of level 4 with `e` as its entry. -/
def tables (d0 e : W64) : State :=
  { State.reset with
    mem := Memory.setBytes (Memory.setBytes {} 0x1000 (leBytes 8 d0.toNat)) 0x2000 (leBytes 8 e.toNat),
    board := { tren := true, trptab := 0x1000 } }

/-- R224, R225: PASIDs beyond the table, entries that are good and not, and their poison. -/
theorem witness_Pasids :
    State.reset.board.tren = false ∧
    (let s := tables 0x2001 0
     s.board.tren = true ∧ 0 < 2 ^ fld s.board.trptab 4 0 ∧ 2 ^ fld s.board.trptab 4 0 ≤ 1 ∧ s.tableOk 0x1000 = true ∧
       s.inExpander 0x1000 = none ∧ s.inExpander 0x1008 = none ∧ s.mem.isBad 0x200 = false ∧ s.mem.isBad 0x201 = false ∧
       s.mem.word 0x1000 = 0x2001 ∧ s.mem.word 0x1008 = 0) ∧
    (tables 0x2000 0).mem.word 0x1000 % 2 = 0 ∧ bitsOf ((tables 0x2003 0).mem.word 0x1000) 11 1 ≠ 0 ∧
    bitsOf ((tables 0x8000000000002001 0).mem.word 0x1000) 63 55 ≠ 0 ∧
    ({ (tables 0x2001 0).mem with bad := [0x200] } : Memory).isBad 0x200 = true := by decide +kernel

/-- R226 to R228: entries of each kind at each level, none of them in a group: without V, malformed, the next table, a page, a page of a
host; one poisoned. -/
theorem witness_Entries :
    (∀ x ∈ [((0 : Nat), (0 : W64)), (4, 0x9), (4, 0x3001), (0, 0x503), (1, 0x200507), (2, 0xC0001A03), (0, 0x3023)],
      let s := tables 0x2001 x.2
      (∀ j < 513, groupOf x.1 (s.walkRead (0x2000 + 8 * j)) = none) ∧ s.inExpander 0x2000 = none ∧ s.mem.isBad 0x400 = false ∧
        s.mem.word 0x2000 = x.2.toNat) ∧
    (let e := (0x200507 : W64).toNat
     e % 2 = 1 ∧ e.testBit 1 = true ∧ e.testBit 5 = false ∧ bitsOf e 11 8 = 5 ∧ 4096 * bitsOf e 54 12 % 2 ^ 21 = 0) ∧
    (let e := (0x9 : W64).toNat
     e % 2 = 1 ∧ bitsOf e 4 3 ≠ 0) ∧
    (let e := (0x3023 : W64).toNat
     bitsOf e 63 55 = 0 ∧ bitsOf e 4 3 = 0 ∧ e % 2 = 1 ∧ e.testBit 1 = true ∧ e.testBit 5 = true ∧ bitsOf e 11 8 = 0 ∧
       4096 * bitsOf e 54 12 % 2 ^ 12 = 0) ∧
    (let e := (0xC0001A03 : W64).toNat
     bitsOf e 11 8 = 10 ∧ 4096 * bitsOf e 54 12 % 2 ^ 30 ≠ 0) ∧
    (let e := (0x3001 : W64).toNat
     e % 2 = 1 ∧ e.testBit 1 = false ∧ (tables 0x2001 0).tableOk (4096 * bitsOf e 54 12) = true) ∧
    ({ (tables 0x2001 0).mem with bad := [0x400] } : Memory).isBad 0x400 = true := by decide +kernel

/-- What a walk gives, as a number: 0 a fault, 1 a page with W and 2 without, 3 a page of a host with W and 4 without. -/
def walkKind : Walk → Nat
  | .fault _ => 0
  | .page _ _ w => if w then 1 else 2
  | .host _ w => if w then 3 else 4

/-- Walks that nothing cached stands before: of a page with W and without, of a host without, and a fault. -/
theorem witness_Walked :
    ∀ e ∈ [((0xA07 : W64), 1), (0xA03, 2), (0xA23, 4), (0, 0)],
      let s : State := { State.reset with
        mem := Memory.setBytes (mapped State.reset).mem 0x4000 (leBytes 8 e.1.toNat), board := (mapped State.reset).board }
      s.cached 3 0 0x10000 = [] ∧ walkKind (s.walk 0 0x10000).1 = e.2 := by decide +kernel

end Sys2Proof.Tests
end

section
/-! The canonical form of memory is kept (log 1). Per function of the model, in the order of its files: `f_mem` says that `f` leaves
memory as it was, `f_wf` that `f` keeps its canonical form. They rest on the rules of `Memory` (`write_wf`, `store_wf`, …), and a lemma
cites those of the functions that its own calls. -/

namespace Sys2Proof.Machine

/-- Where an instruction goes on, memory has the canonical form. -/
def MemWf (o : Res) : Prop := ∀ u, o = .next u → u.mem.wf = true

theorem memWf_next {u : State} (h : u.mem.wf = true) : MemWf (.next u) := fun _ e => by cases e; exact h
theorem memWf_disabled (row) : MemWf (disabled row) := fun _ e => by cases e

/-- The state that a step of commit leaves. -/
def CStep.state : CStep → State
  | .wait s _ => s
  | .on s _ => s
  | .over s => s

/-- The state that an attempt to place a job leaves. -/
def Placed.state : Placed → State
  | .no s => s
  | .gone s => s
  | .ok s => s

/-- The state that a write of the Kiln's own leaves. -/
def Put.state : Put → State
  | .done s => s
  | .dropped s => s
  | .world s => s
  | .wait s => s

theorem State.foldl_wf {α : Type} {k : State → α → State} {l : List α} {s : State} (h : s.mem.wf = true)
    (hk : ∀ s x, s.mem.wf = true → (k s x).mem.wf = true) : (l.foldl k s).mem.wf = true := by
  induction l generalizing s with
  | nil => exact h
  | cons x t ih => exact ih (hk _ x h)
theorem State.foldl_mem {α : Type} {k : State → α → State} {l : List α} {s : State} (hk : ∀ s x, (k s x).mem = s.mem) :
    (l.foldl k s).mem = s.mem := by
  induction l generalizing s with
  | nil => rfl
  | cons x t ih => exact ih.trans (hk s x)
theorem foldl_snd_wf {α β : Type} {k : β × State → α → β × State} {l : List α} {x : β × State} (h : x.2.mem.wf = true)
    (hk : ∀ x y, x.2.mem.wf = true → (k x y).2.mem.wf = true) : (l.foldl k x).2.mem.wf = true := by
  induction l generalizing x with
  | nil => exact h
  | cons y t ih => exact ih (hk _ y h)
theorem foldl_snd_mem {α β : Type} {k : β × State → α → β × State} {l : List α} {x : β × State}
    (hk : ∀ x y, (k x y).2.mem = x.2.mem) : (l.foldl k x).2.mem = x.2.mem := by
  induction l generalizing x with
  | nil => rfl
  | cons y t ih => exact ih.trans (hk x y)
variable {s : State}
theorem foldl_none_bind {α : Type} {k : State → α → Option State} (l : List α) :
    l.foldl (fun o x => o.bind (fun s => k s x)) none = none := by
  induction l with
  | nil => rfl
  | cons x t ih => exact ih
theorem foldl_bind_mem {α : Type} {k : State → α → Option State} {l : List α} {s u : State}
    (hk : ∀ s x u, k s x = some u → u.mem = s.mem) (e : l.foldl (fun o x => o.bind (fun s => k s x)) (some s) = some u) :
    u.mem = s.mem := by
  induction l generalizing s with
  | nil => cases e; rfl
  | cons x t ih =>
    rw [List.foldl_cons, Option.bind_some] at e
    rcases hx : k s x with _ | v
    · rw [hx, foldl_none_bind] at e; cases e
    · rw [hx] at e; exact (ih e).trans (hk s x v hx)

/-! Machine/Ops.lean -/

theorem orWait_wf {row s'} (hs' : s'.mem.wf = true) : MemWf (orWait row s s') := by
  grind [MemWf, disabled, orWait]
@[simp] theorem State.newId_mem (s : State) : s.newId.2.mem = s.mem := rfl
@[simp] theorem State.choose_mem (s : State) (n) : (s.choose n).2.mem = s.mem := rfl
@[simp] theorem State.freeValue_mem (s : State) : s.freeValue.2.mem = s.mem := rfl
@[simp] theorem State.setFaultQ_mem (s : State) (sec q) : (s.setFaultQ sec q).mem = s.mem := by
  grind [State.setFaultQ]
@[simp] theorem State.ownAsk_mem (s : State) (job q addr kind read at?) : (s.ownAsk job q addr kind read at?).2.mem = s.mem := rfl
@[simp] theorem State.ownSend_mem (s : State) (job q addr kind at?) : (s.ownSend job q addr kind at?).mem = s.mem := by
  grind [State.ownSend, State.ownAsk_mem]
theorem State.ownWrite_wf (h : s.mem.wf = true) {job pa bs at? u} (e : s.ownWrite job pa bs at? = some u) : u.mem.wf = true := by
  grind [State.ownWrite, State.emit_mem, State.ownSend_mem, Memory.write_wf]
@[simp] theorem State.loseRecord_mem (s : State) (sec) : (s.loseRecord sec).mem = s.mem := by
  grind [State.loseRecord, State.setFaultQ_mem]
@[simp] theorem State.recordIn_mem (s : State) (sec r) : (s.recordIn sec r).mem = s.mem := by
  grind [State.recordIn, State.setFaultQ_mem, State.emit_mem]
theorem State.pushRecord_wf (h : s.mem.wf = true) (sec r) : (s.pushRecord sec r).mem.wf = true := by
  grind [State.pushRecord, State.setFaultQ_mem, State.loseRecord_mem, State.ownAsk_mem, State.recordIn_mem, State.ownWrite_wf]
theorem State.settleRecord_wf (h : s.mem.wf = true) (sec id ok) : (s.settleRecord sec id ok).mem.wf = true := by
  grind [State.foldl_mem, State.foldl_wf, State.settleRecord, State.setFaultQ_mem, State.recordIn_mem, State.loseRecord_mem,
    State.pushRecord_wf]
theorem State.settleRecords_wf (h : s.mem.wf = true) (id ok) : (s.settleRecords id ok).mem.wf = true := by
  grind [State.settleRecords, State.settleRecord_wf]
theorem State.notice_wf (h : s.mem.wf = true) (sec code tval) : (s.notice sec code tval).mem.wf = true := by
  grind [State.notice, State.pushRecord_wf]
theorem State.blockNotice_wf (h : s.mem.wf = true) (b code) : (s.blockNotice b code).mem.wf = true := by
  grind [State.blockNotice, State.notice_wf]
theorem State.jobNotice_wf (h : s.mem.wf = true) (j c) : (s.jobNotice j c).mem.wf = true := by
  grind [State.jobNotice, State.pushRecord_wf]
theorem foldl_performGranule_wf (h : s.mem.wf = true) (t) (l : List Nat) :
    (l.foldl (fun x g => State.performGranule x.2 x.1 g) (t, s)).2.mem.wf = true :=
  foldl_snd_wf h fun x g h => State.performGranule_wf h x.1 g
theorem State.performDead_wf (h : s.mem.wf = true) (p r job t) : (State.performDead p r job s t).mem.wf = true := by
  grind [State.performDead, State.setPort_mem, State.pushRecord_wf, foldl_performGranule_wf]
theorem State.performTaken_wf (h : s.mem.wf = true) (j) : (s.performTaken j).mem.wf = true :=
  State.foldl_wf h fun _ _ h => State.foldl_wf h fun _ _ h => State.foldl_wf h fun _ _ h => State.performDead_wf h _ _ _ _
@[simp] theorem State.clearReloc_mem (s : State) (p) : (s.clearReloc p).mem = s.mem := rfl
@[simp] theorem State.dropIf_mem (s : State) (p) : (s.dropIf p).mem = s.mem := rfl
@[simp] theorem State.stopMoves_mem (s : State) : s.stopMoves.mem = s.mem := rfl
theorem State.dropGraph_wf (h : s.mem.wf = true) (j) : (s.dropGraph j).mem.wf = true :=
  State.foldl_wf (State.performTaken_wf h j) fun _ _ h => h
@[simp] theorem State.failJob_mem (s : State) (j status cause) : (s.failJob j status cause).mem = s.mem := by
  grind [State.failJob, State.freeLaunches_mem, State.setJob_mem]
theorem State.abortGraph_wf (h : s.mem.wf = true) (j status c) : (s.abortGraph j status c).mem.wf = true := by
  grind [State.abortGraph, State.failJob_mem, State.pushRecord_wf, State.dropGraph_wf]
@[simp] theorem State.rollback_mem (s : State) (t f) : (s.rollback t f).mem = s.mem := rfl
theorem State.lateNotices_wf (h : s.mem.wf = true) (f) : (s.lateNotices f).mem.wf = true :=
  State.foldl_wf h fun _ _ h => State.jobNotice_wf h _ _
theorem State.raiseC_wf (h : s.mem.wf = true) (t f c) : (s.raiseC t f c).mem.wf = true := by
  grind [State.raiseC, State.postCause_mem, State.rollback_mem, State.abortGraph_wf, State.lateNotices_wf]
theorem State.raiseWrite_wf (h : s.mem.wf = true) (t f ea) : (s.raiseWrite t f ea).mem.wf = true := by
  grind [State.raiseWrite, State.raiseC_wf]
theorem State.raise_wf (h : s.mem.wf = true) (t f code tval) : (s.raise t f code tval).mem.wf = true := by
  grind [State.raise, State.raiseC_wf]
theorem State.raiseConfig_wf (h : s.mem.wf = true) (f) : (s.raiseConfig f).mem.wf = true := by
  grind [State.raiseConfig, State.abortGraph_wf]
theorem State.takeCause_wf (h : s.mem.wf = true) (j c) : (s.takeCause j c).mem.wf = true := by
  grind [State.takeCause, State.setGraph_mem, State.abortGraph_wf]
@[simp] theorem State.releaseTrapped_mem (s : State) (j c) : (s.releaseTrapped j c).mem = s.mem := by
  grind [State.releaseTrapped, State.setActor_mem]
@[simp] theorem State.settle_mem (s : State) (j aid c) : (s.settle j aid c).mem = s.mem := by
  grind [State.settle, State.setActor_mem, State.releaseTrapped_mem]
@[simp] theorem State.startFault_mem (s : State) (t j fa c) : (s.startFault t j fa c).mem = s.mem := rfl
@[simp] theorem State.settleEnding_mem (s : State) (p uid) : (s.settleEnding p uid).mem = s.mem := by
  grind [State.settleEnding, State.setEngine_mem, State.setActor_mem]
@[simp] theorem State.endCopy_mem (s : State) (p c st) : (s.endCopy p c st).mem = s.mem := by
  grind [State.endCopy, State.dropIf_mem, State.settleEnding_mem, State.setEngine_mem]
@[simp] theorem State.postCopyCause_mem (s : State) (j aid code tval wr) : (s.postCopyCause j aid code tval wr).mem = s.mem := rfl
@[simp] theorem State.breakCopy_mem (s : State) (p c code tval wr) : (s.breakCopy p c code tval wr).mem = s.mem := by
  grind [State.breakCopy, State.postCopyCause_mem, State.endCopy_mem]
@[simp] theorem State.mcode_mem (s : State) (p c) : (s.mcode p c).mem = s.mem := by
  grind [State.mcode, State.breakCopy_mem]
theorem onRegs_wf (h : s.mem.wf = true) {ss k} : MemWf (onRegs s ss k) := by
  grind [MemWf, disabled, onRegs, State.stepFiring_mem, State.stepEngine_mem]
theorem onTwo_wf (h : s.mem.wf = true) {d a b k} : MemWf (onTwo s d a b k) := onRegs_wf h
theorem onOne_wf (h : s.mem.wf = true) {d a k} : MemWf (onOne s d a k) := onRegs_wf h
theorem onSeq_wf (h : s.mem.wf = true) {ss vs k} (hk : ∀ t f, MemWf (k t f)) : MemWf (onSeq s ss vs k) := by
  grind [onSeq, MemWf, State.mcode_mem]
theorem onEither_wf (h : s.mem.wf = true) {ss vs k m} (hk : ∀ t f, MemWf (k t f)) (hm : ∀ p c r, MemWf (m p c r)) :
    MemWf (onEither s ss vs k m) := by
  grind [onEither, MemWf]
theorem trapAt_wf (h : s.mem.wf = true) {t f code tval} : MemWf (trapAt s t f code tval) := by
  grind [MemWf, disabled, trapAt, State.raise_wf]
theorem drossUse_wf (h : s.mem.wf = true) {w} : MemWf (drossUse s w) := by
  grind [MemWf, disabled, drossUse, State.breakCopy_mem, trapAt_wf]
theorem onRegsClean_wf (h : s.mem.wf = true) {w ss k} : MemWf (onRegsClean w s ss k) := by
  grind [MemWf, disabled, onRegsClean, State.stepFiring_mem, State.breakCopy_mem, State.stepEngine_mem, trapAt_wf]

/-! Machine/Flags.lean -/

@[simp] theorem State.addRecord_mem (s : State) (blk rank unit cause aid addr synd) :
    (s.addRecord blk rank unit cause aid addr synd).mem = s.mem := rfl

/-! Machine/Fetch.lean -/

theorem State.fetch_wf (h : s.mem.wf = true) {u} (e : s.fetch = .outside u) : u.mem.wf = true := by
  grind [State.fetch, State.raise_wf, State.mcode_mem]

/-! Machine/Alu.lean -/

theorem onBranch_wf (h : s.mem.wf = true) {w a b o k} : MemWf (onBranch w s a b o k) := by
  grind [MemWf, disabled, onBranch, onRegsClean_wf]

/-! Machine/Xlate.lean -/

@[simp] theorem State.pick_mem {α : Type} (s : State) (d : α) (l) : (s.pick d l).2.mem = s.mem := by
  unfold State.pick; split <;> rfl
@[simp] theorem State.walkFrom_mem (s : State) (va n t) : (s.walkFrom va n t).2.mem = s.mem := by
  induction n generalizing s t with
  | zero => grind [State.walkFrom, State.pick_mem]
  | succ n ih => grind [State.walkFrom, State.pick_mem]
@[simp] theorem State.walk_mem (s : State) (pasid va) : (s.walk pasid va).2.mem = s.mem := by
  grind [State.walk, State.walkFrom_mem]
@[simp] theorem State.outcomes_mem (s : State) (node pasid va write) : (s.outcomes node pasid va write).2.mem = s.mem := by
  grind [State.outcomes, State.walk_mem]
@[simp] theorem State.cache_mem (s : State) (e) : (s.cache e).mem = s.mem := by
  grind [State.cache]
@[simp] theorem State.askHost_mem (s : State) (link pasid va write who) : (s.askHost link pasid va write who).2.mem = s.mem := by
  grind [State.askHost, State.newId_mem, State.emit_mem]
@[simp] theorem State.translateAt_mem (s : State) (node pasid va write who) : (s.translateAt node pasid va write who).2.mem = s.mem := by
  grind [State.translateAt, State.outcomes_mem, State.pick_mem, State.cache_mem, State.askHost_mem]
@[simp] theorem State.translate_mem (s : State) (pasid va write who) : (s.translate pasid va write who).2.mem = s.mem := by
  grind [State.translate, State.translateAt_mem]
theorem State.translate_wf (h : s.mem.wf = true) {pasid va write who x} {u : State} (e : s.translate pasid va write who = (x, u)) :
    u.mem.wf = true := by
  have ht := State.translate_mem s pasid va write who
  rw [e] at ht
  exact ht ▸ h
@[simp] theorem State.translateAll_mem (s : State) (pasid failed write who l) :
    (State.translateAll pasid failed write who l s).2.mem = s.mem := by
  induction l generalizing s with
  | nil => rfl
  | cons p t ih => grind [State.translateAll, State.freeValue_mem, State.translate_mem]
@[simp] theorem State.noMemory_mem (s : State) (l) : (State.noMemory l s).2.mem = s.mem := by
  induction l generalizing s with
  | nil => rfl
  | cons p t ih => exact ih _
theorem State.joinTicket_wf (h : s.mem.wf = true) {j pasid va code write who n u}
    (e : s.joinTicket j pasid va code write who = some (n, u)) : u.mem.wf = true := by
  grind [State.joinTicket, State.pushRecord_wf]

/-! Machine/Access.lean -/

@[simp] theorem State.askPeer_mem (s : State) (a) : (s.askPeer a).mem = s.mem := by
  grind [State.askPeer, State.newId_mem]
@[simp] theorem State.sendAccess_mem (s : State) (a) : (s.sendAccess a).mem = s.mem := by
  grind [State.sendAccess, State.askPeer_mem]
@[simp] theorem State.sendAccesses_mem (s : State) (as) : (s.sendAccesses as).mem = s.mem :=
  State.foldl_mem State.sendAccess_mem
@[simp] theorem State.number_mem {α : Type} (s : State) (l : List α) : (State.number l s).2.mem = s.mem := by
  induction l generalizing s with
  | nil => rfl
  | cons p t ih => exact ih _
@[simp] theorem State.handBack_mem (s : State) (a bs) : (s.handBack a bs).mem = s.mem := by
  grind [State.handBack, State.setFiring_mem, State.setEngine_mem, State.setGraph_mem]
@[simp] theorem State.dropAccess_mem (s : State) (id) : (s.dropAccess id).mem = s.mem := rfl
theorem State.settleCopy_wf (h : s.mem.wf = true) (a) : (s.settleCopy a).mem.wf = true := by
  grind [State.settleCopy, State.settleEnding_mem, State.settleRecords_wf]
theorem State.finish_wf (h : s.mem.wf = true) (a bs) : (s.finish a bs).mem.wf = true := by
  grind [State.finish, State.dropAccess_mem, State.handBack_mem, State.settleCopy_wf]
theorem State.finishError_wf (h : s.mem.wf = true) (a) : (s.finishError a).mem.wf = true := by
  grind [State.finishError, State.finish_wf, State.settleRecords_wf]
@[simp] theorem State.hush_mem (s : State) (a) : (s.hush a).mem = s.mem := rfl
theorem State.raiseNomem_wf (h : s.mem.wf = true) (a pa) : (s.raiseNomem a pa).mem.wf = true := by
  grind [State.raiseNomem, State.hush_mem, State.setFiring_mem, State.postCause_mem, State.jobNotice_wf]
theorem State.blocked_wf (h : s.mem.wf = true) (t f va write x) : (s.blocked t f va write x).mem.wf = true := by
  cases x <;> grind [State.blocked, State.setFiring_mem, State.rollback_mem, State.setActor_mem, State.raiseC_wf, State.joinTicket_wf]
theorem onGlobal_wf (h : s.mem.wf = true) {t f ea size write k} (hk : ∀ s f ps, s.mem.wf = true → MemWf (k s f ps)) :
    MemWf (onGlobal s t f ea size write k) := by
  grind [onGlobal, MemWf, State.raiseC_wf, State.noMemory_mem, State.translateAll_mem, State.blocked_wf]
@[simp] theorem State.issue_mem (s : State) (src cls world after nps kind dest fwd) :
    (s.issue src cls world after nps kind dest fwd).mem = s.mem := by
  grind [State.issue, State.sendAccesses_mem]
@[simp] theorem State.issueLoad_mem (s : State) (t f ps cls dest) : (s.issueLoad t f ps cls dest).mem = s.mem := by
  grind [State.issueLoad, State.number_mem, State.issue_mem, State.stepFiring_mem]
theorem State.issueStore_wf (h : s.mem.wf = true) (t f ps cls bs) : (s.issueStore t f ps cls bs).mem.wf = true := by
  grind [State.issueStore, State.number_mem, State.issue_mem, State.stepFiring_mem, State.newId_mem, State.raise_wf]
theorem State.storeRam_wf (h : s.mem.wf = true) (t f a cls bs) : (s.storeRam t f a cls bs).mem.wf = true := by
  grind [State.storeRam, State.setActor_mem, State.stepFiring_mem, State.raise_wf, Memory.store_wf]
@[simp] theorem State.setCopy_mem (s : State) (p c) : (s.setCopy p c).mem = s.mem := rfl
theorem State.blockedE_wf (h : s.mem.wf = true) (p c va write x) : (s.blockedE p c va write x).mem.wf = true := by
  cases x <;> grind [State.blockedE, State.setCopy_mem, State.joinTicket_wf]
theorem onGlobalE_wf (h : s.mem.wf = true) {p c ea size write k} (hk : ∀ s c ps, s.mem.wf = true → MemWf (k s c ps)) :
    MemWf (onGlobalE s p c ea size write k) := by
  grind [onGlobalE, MemWf, State.breakCopy_mem, State.freeValue_mem, State.noMemory_mem, State.translateAll_mem, State.blockedE_wf]
@[simp] theorem State.issueLoadE_mem (s : State) (p c r ps cls dest) : (s.issueLoadE p c r ps cls dest).mem = s.mem := by
  grind [State.issueLoadE, State.number_mem, State.issue_mem, State.stepEngine_mem, State.setCopy_mem]
@[simp] theorem State.issueStoreE_mem (s : State) (p c r ps cls bs) : (s.issueStoreE p c r ps cls bs).mem = s.mem := by
  grind [State.issueStoreE, State.number_mem, State.issue_mem, State.stepEngine_mem, State.setCopy_mem]

/-! Machine/Atom.lean -/

theorem atomic_wf (h : s.mem.wf = true) {w op d a b k} : MemWf (atomic w op s d a b k) := by
  grind [MemWf, disabled, atomic, State.stepFiring_mem, State.number_mem, State.issue_mem, State.mcode_mem, State.stepEngine_mem,
    State.setCopy_mem, onEither_wf, trapAt_wf, onGlobal_wf, drossUse_wf, onGlobalE_wf]
@[simp] theorem State.fencePeers_mem (s : State) (src mask before) : (s.fencePeers src mask before).2.mem = s.mem := by
  grind [State.fencePeers, State.number_mem, State.sendAccesses_mem]
@[simp] theorem State.fenceOf_mem (s : State) (src first mask domain) : (s.fenceOf src first mask domain).2.mem = s.mem := by
  grind [State.fenceOf, State.fencePeers_mem]
theorem execFence_wf (h : s.mem.wf = true) {sc m} : MemWf (execFence sc m s) := by
  grind [MemWf, disabled, execFence, State.stepFiring_mem, State.fenceOf_mem, State.stepEngine_mem, State.setCopy_mem,
    onEither_wf]

/-! Machine/Kick.lean -/

theorem State.kick_mem {s : State} {j aid p bound kr dross u} (e : s.kick j aid p bound kr dross = some u) : u.mem = s.mem := by
  grind [State.kick, State.newId_mem, State.setActor_mem, State.postCopyCause_mem, State.setGraph_mem, State.setEngine_mem]
theorem State.pushNamed_mem {s : State} {p q kr dross u} (e : s.pushNamed p q kr dross = some u) : u.mem = s.mem := by
  grind [State.pushNamed, State.setEngine_mem]
theorem State.effect_wf (h : s.mem.wf = true) {j aid x u} (e : s.effect j aid x = some u) : u.mem.wf = true := by
  cases x <;> grind [State.effect, State.setGraph_mem, State.kick_mem, State.pushNamed_mem, State.abortGraph_wf]
@[simp] theorem State.spawn_mem (s : State) (j aid l) : (s.spawn j aid l).mem = s.mem := rfl

/-! Machine/Move.lean -/

@[simp] theorem State.startMove_mem (s : State) (t m) : (s.startMove t m).mem = s.mem := rfl
@[simp] theorem State.rotate_mem (s : State) (j k) : (s.rotate j k).mem = s.mem := by
  grind [State.rotate, State.startMove_mem]
@[simp] theorem State.rebalance_mem (s : State) (j k t) : (s.rebalance j k t).mem = s.mem := by
  grind [State.rebalance, State.startMove_mem]
@[simp] theorem State.pressures_mem (s : State) (j k) : (s.pressures j k).mem = s.mem := by
  grind [State.pressures, State.foldl_mem, State.setActor_mem, State.rebalance_mem]
@[simp] theorem State.round_mem (s : State) (j k) : (s.round j k).mem = s.mem := by
  grind [State.round, State.setGraph_mem, State.rotate_mem, State.pressures_mem]

/-! Machine/Chan.lean -/

theorem onChan_wf (h : s.mem.wf = true) {ss vs k} (hk : ∀ t f a, MemWf (k t f a)) : MemWf (onChan s ss vs k) :=
  onSeq_wf h fun t f => by grind [trapAt_wf]
theorem receive_wf (h : s.mem.wf = true) {w d n index} : MemWf (receive w s d n index) := by
  grind [MemWf, disabled, receive, State.stepFiring_mem, onChan_wf, trapAt_wf]
theorem receiveV_wf (h : s.mem.wf = true) {w d n index} : MemWf (receiveV w s d n index) := by
  grind [MemWf, disabled, receiveV, State.stepFiring_mem, onChan_wf, trapAt_wf]
@[simp] theorem State.sendTokens_mem (s : State) (t f n mask toks) : (s.sendTokens t f n mask toks).mem = s.mem := rfl
theorem transmit_wf (h : s.mem.wf = true) {w n ss vs scalar mask tok} : MemWf (transmit w s n ss vs scalar mask tok) := by
  grind [MemWf, disabled, transmit, State.sendTokens_mem, onChan_wf, trapAt_wf]
theorem execSendn_wf (h : s.mem.wf = true) {a n} : MemWf (execSendn a n s) := by
  grind [MemWf, disabled, execSendn, State.sendTokens_mem, onChan_wf, trapAt_wf]
theorem execChcnt_wf (h : s.mem.wf = true) {d n} : MemWf (execChcnt d n s) := by
  grind [MemWf, disabled, execChcnt, State.stepFiring_mem, onChan_wf, trapAt_wf]
theorem execChfree_wf (h : s.mem.wf = true) {d n} : MemWf (execChfree d n s) := by
  grind [MemWf, disabled, execChfree, State.stepFiring_mem, onChan_wf, trapAt_wf]

/-! Machine/Lane.lean -/

theorem onLane_wf (h : s.mem.wf = true) {w ss vs mode k} (hk : ∀ t f, MemWf (k t f)) : MemWf (onLane w s ss vs mode k) :=
  onSeq_wf h fun t f => by grind [trapAt_wf]
theorem laneV_wf (h : s.mem.wf = true) {w d vs p cls draws op} : MemWf (laneV w s d vs p cls draws op) := by
  grind [MemWf, disabled, laneV, State.stepFiring_mem, onLane_wf, trapAt_wf]
theorem vint1_wf (h : s.mem.wf = true) {w d a p cls op} : MemWf (vint1 w s d a p cls op) := laneV_wf h
theorem vint2_wf (h : s.mem.wf = true) {w d a b p cls op} : MemWf (vint2 w s d a b p cls op) := laneV_wf h
theorem vfp3_wf (h : s.mem.wf = true) {w d a b p op} : MemWf (vfp3 w s d a b p op) := laneV_wf h
theorem laneP_wf (h : s.mem.wf = true) {w d vs p cls op} : MemWf (laneP w s d vs p cls op) := by
  grind [MemWf, disabled, laneP, State.stepFiring_mem, onLane_wf, trapAt_wf]
theorem vintP_wf (h : s.mem.wf = true) {w d a b p cls op} : MemWf (vintP w s d a b p cls op) := laneP_wf h
theorem vfpP_wf (h : s.mem.wf = true) {w d a b p op} : MemWf (vfpP w s d a b p op) := laneP_wf h
theorem laneS_wf (h : s.mem.wf = true) {w d a p cls red} : MemWf (laneS w s d a p cls red) := by
  grind [MemWf, disabled, laneS, State.stepFiring_mem, onLane_wf, trapAt_wf]

/-! Machine/Vcvt.lean -/

theorem cvt_wf (h : s.mem.wf = true) {w t f d a q p down op} : MemWf (cvt w s t f d a q p down op) := by
  grind [MemWf, disabled, cvt, State.stepFiring_mem, trapAt_wf]
theorem execVcvta_wf (h : s.mem.wf = true) {d a q p} : MemWf (execVcvta d a q p s) := by
  grind [MemWf, disabled, execVcvta, onLane_wf, trapAt_wf, cvt_wf]
theorem execVcvtm_wf (h : s.mem.wf = true) {d a q p} : MemWf (execVcvtm d a q p s) := by
  grind [MemWf, disabled, execVcvtm, onLane_wf, trapAt_wf, cvt_wf]
theorem execVcvts_wf (h : s.mem.wf = true) {d a b p} : MemWf (execVcvts d a b p s) := by
  grind [MemWf, disabled, execVcvts, onLane_wf, trapAt_wf, cvt_wf]
theorem execVmxe_wf (h : s.mem.wf = true) {d a q} : MemWf (execVmxe d a q s) := by
  grind [MemWf, disabled, execVmxe, State.stepFiring_mem, onLane_wf, trapAt_wf]
theorem execVmxd_wf (h : s.mem.wf = true) {d a q} : MemWf (execVmxd d a q s) := by
  grind [MemWf, disabled, execVmxd, State.stepFiring_mem, onLane_wf, trapAt_wf]
@[simp] theorem State.encodeGroup_mem (s : State) (t f g e unit vs dross) : (s.encodeGroup t f g e unit vs dross).mem = s.mem := rfl
theorem execVsde_wf (h : s.mem.wf = true) {d a} : MemWf (execVsde d a s) := by
  grind [MemWf, disabled, execVsde, State.encodeGroup_mem, onLane_wf, trapAt_wf]
theorem execVsdd_wf (h : s.mem.wf = true) {d a} : MemWf (execVsdd d a s) := by
  grind [MemWf, disabled, execVsdd, State.stepFiring_mem, onLane_wf, trapAt_wf]

/-! Machine/Vint.lean -/

theorem execVsel_wf (h : s.mem.wf = true) {d a b p} : MemWf (execVsel d a b p s) := by
  grind [MemWf, disabled, execVsel, State.stepFiring_mem, onLane_wf]

/-! Machine/Vstrm.lean -/

theorem execVsgo_wf (h : s.mem.wf = true) {a} : MemWf (execVsgo a s) := by
  grind [MemWf, disabled, execVsgo, State.stepFiring_mem, onLane_wf, trapAt_wf]
theorem execVswt_wf (h : s.mem.wf = true) : MemWf (execVswt s) := by
  grind [MemWf, disabled, execVswt, State.setFiring_mem, State.stepFiring_mem, onLane_wf]
theorem online_wf (h : s.mem.wf = true) {w d a b op} : MemWf (online w s d a b op) := by
  grind [MemWf, disabled, online, State.encodeGroup_mem, onLane_wf, trapAt_wf]
theorem execVsdcut_wf (h : s.mem.wf = true) {d a m} : MemWf (execVsdcut d a m s) := by
  grind [MemWf, disabled, execVsdcut, State.stepFiring_mem, onLane_wf, trapAt_wf]
theorem execVsdcmp_wf (h : s.mem.wf = true) {d a b} : MemWf (execVsdcmp d a b s) := by
  grind [MemWf, disabled, execVsdcmp, State.stepFiring_mem, onLane_wf, trapAt_wf]
theorem join_wf (h : s.mem.wf = true) {w d a b union} : MemWf (join w s d a b union) := by
  grind [MemWf, disabled, join, State.sendTokens_mem, onLane_wf, trapAt_wf]

/-! Machine/Mat.lean -/

@[simp] theorem State.tsWrite_mem (s : State) (f lo bs) : (s.tsWrite f lo bs).1.mem = s.mem := rfl
@[simp] theorem State.slotWrite_mem (s : State) (f h lo bs) : (s.slotWrite f h lo bs).1.mem = s.mem := rfl
@[simp] theorem State.drainRow_mem (s : State) (f c row base fmt sat) : (s.drainRow f c row base fmt sat).1.mem = s.mem := rfl
theorem State.doHead_mem {s u : State} {f c g} (e : s.doHead f c = some (u, g)) : u.mem = s.mem := by
  grind [State.doHead, State.setActor_mem, State.drainRow_mem]
@[simp] theorem State.settleWork_mem (s : State) (n f) : (State.settleWork n s f).1.mem = s.mem := by
  induction n generalizing s f with
  | zero => rfl
  | succ n ih =>
    unfold State.settleWork
    split
    · next heq =>
      obtain ⟨c, -, hc⟩ := List.exists_of_findSome?_eq_some heq
      exact (ih _ _).trans (State.doHead_mem hc)
    · rfl
@[simp] theorem State.addWork_mem (s : State) (f w) : (s.addWork f w).1.mem = s.mem := by
  grind [State.addWork, State.settleWork_mem]
theorem State.uncorr_wf (h : s.mem.wf = true) (t f) : (s.uncorr t f).mem.wf = true := by
  grind [State.uncorr, State.rollback_mem, State.abortGraph_wf]
theorem State.recheckMiss_wf (h : s.mem.wf = true) (t f unit pc) : (s.recheckMiss t f unit pc).mem.wf = true := by
  grind [State.recheckMiss, State.addRecord_mem, State.uncorr_wf, State.blockNotice_wf]
@[simp] theorem State.mergeFlags_mem (s : State) (f) : (s.mergeFlags f).1.mem = s.mem := rfl
@[simp] theorem State.rowMode_mem (s : State) (t j) : (s.rowMode t j).mem = s.mem := by
  grind [State.rowMode, State.setBlock_mem]
theorem execRowFiring_wf (h : s.mem.wf = true) {tile ctx mismatch} : MemWf (execRowFiring tile ctx mismatch s) := by
  grind [MemWf, disabled, execRowFiring, State.rowMode_mem, State.setActor_mem, State.settleWork_mem, State.setFiring_mem,
    State.recheckMiss_wf]
theorem execRepeatGroup_wf (h : s.mem.wf = true) {job aid node} : MemWf (execRepeatGroup job aid node s) := by
  grind [MemWf, disabled, execRepeatGroup, State.setGraph_mem]
theorem onCtx_wf (h : s.mem.wf = true) {w ss c k} (hk : ∀ t f a m, MemWf (k t f a m)) : MemWf (onCtx w s ss c k) :=
  onSeq_wf h fun t f => by grind [trapAt_wf]
theorem withWork_wf (h : s.mem.wf = true) {t f w} : MemWf (withWork s t f w) := by
  grind [MemWf, disabled, withWork, State.addWork_mem, State.stepFiring_mem]
@[simp] theorem State.claim_mem (s : State) (t f h) : (s.claim t f h).mem = s.mem := rfl
theorem execSclaim_wf (hs : s.mem.wf = true) {h} : MemWf (execSclaim h s) := by
  grind [MemWf, disabled, execSclaim, State.stepFiring_mem, State.setFiring_mem, State.claim_mem, onSeq_wf, trapAt_wf]
theorem execSlotClaimGrant_wf (h : s.mem.wf = true) {tile} : MemWf (execSlotClaimGrant tile s) := by
  grind [MemWf, disabled, execSlotClaimGrant, State.claim_mem]
theorem execSrel_wf (hs : s.mem.wf = true) {h} : MemWf (execSrel h s) := by
  grind [MemWf, disabled, execSrel, State.stepFiring_mem, onSeq_wf, trapAt_wf]
theorem execMctx_wf (hs : s.mem.wf = true) {c h} : MemWf (execMctx c h s) := by
  grind [MemWf, disabled, execMctx, State.stepFiring_mem, onCtx_wf, trapAt_wf]
theorem execMrow_wf (h : s.mem.wf = true) {c a b} : MemWf (execMrow c a b s) := by
  grind [MemWf, disabled, execMrow, State.stepFiring_mem, onCtx_wf, trapAt_wf, withWork_wf]
theorem execMrowc_wf (h : s.mem.wf = true) {c n b} : MemWf (execMrowc c n b s) := by
  grind [MemWf, disabled, execMrowc, State.stepFiring_mem, onCtx_wf, trapAt_wf, withWork_wf]
theorem execMrep_wf (h : s.mem.wf = true) {c r b} : MemWf (execMrep c r b s) := by
  grind [MemWf, disabled, execMrep, State.stepFiring_mem, onCtx_wf, trapAt_wf, withWork_wf]
theorem execMzero_wf (h : s.mem.wf = true) {c} : MemWf (execMzero c s) := by
  grind [MemWf, disabled, execMzero, onCtx_wf, withWork_wf]
theorem execMdrain_wf (h : s.mem.wf = true) {c a b} : MemWf (execMdrain c a b s) := by
  grind [MemWf, disabled, execMdrain, onCtx_wf, trapAt_wf, withWork_wf]
theorem execMwait_wf (h : s.mem.wf = true) : MemWf (execMwait s) := by
  grind [MemWf, disabled, execMwait, State.settleWork_mem, State.setFiring_mem, State.mergeFlags_mem, State.stepFiring_mem,
    onSeq_wf]

/-! Machine/Commit.lean -/

theorem State.endActor_wf (h : s.mem.wf = true) (j aid) : (s.endActor j aid).mem.wf = true := by
  grind [State.foldl_mem, State.foldl_wf, State.endActor, State.setGraph_mem, State.takeCause_wf]
theorem State.commit1_wf (h : s.mem.wf = true) (f) : (s.commit1 f).state.mem.wf = true := by
  grind [State.commit1, CStep.state, State.settleWork_mem, State.mergeFlags_mem]
theorem State.commit2_wf (h : s.mem.wf = true) (t f) : (s.commit2 t f).state.mem.wf = true := by
  grind [State.commit2, CStep.state, State.raise_wf]
@[simp] theorem Issue.item_mem (f) (q : Issue) (x) : (Issue.item f q x).s.mem = q.s.mem := by
  unfold Issue.item
  grind [State.fenceOf_mem, State.setActor_mem, State.newId_mem, State.sendAccess_mem]
theorem Issue.foldl_item_mem (f) (l : List CItem) (q : Issue) : (l.foldl (Issue.item f) q).s.mem = q.s.mem := by
  induction l generalizing q with
  | nil => rfl
  | cons x t ih => exact (ih _).trans (Issue.item_mem f q x)
theorem State.commit3_wf (h : s.mem.wf = true) (f) : (s.commit3 f).state.mem.wf = true := by
  grind [State.commit3, CStep.state, Issue.foldl_item_mem]
theorem State.commit4_wf (h : s.mem.wf = true) (f) : (s.commit4 f).state.mem.wf = true := h
theorem State.commit5_wf (h : s.mem.wf = true) (f) : (s.commit5 f).state.mem.wf = true := by
  grind [State.commit5, CStep.state, State.setGraph_mem]
theorem State.effects_wf (h : s.mem.wf = true) (j aid l) : (s.effects j aid l).1.mem.wf = true := by
  induction l generalizing s with
  | nil => exact h
  | cons e t ih => grind [State.effects, State.effect_wf]
theorem State.commit6_wf (h : s.mem.wf = true) (t f) : (s.commit6 t f).state.mem.wf = true := by
  grind [State.commit6, CStep.state, State.effects_wf, State.setFiring_mem, State.foldl_mem, State.spawn_mem]
@[simp] theorem State.logOrigin_mem (s : State) (t f) : (s.logOrigin t f).mem = s.mem := by
  grind [State.logOrigin, State.addRecord_mem]
theorem State.endTrap_wf (h : s.mem.wf = true) (t f) : (s.endTrap t f).mem.wf = true := by
  grind [State.endTrap, State.settle_mem, State.postCause_mem, State.abortGraph_wf]
@[simp] theorem State.firingRound_mem (s : State) (f) : (s.firingRound f).mem = s.mem := by
  grind [State.firingRound, State.round_mem]
theorem State.close_wf (h : s.mem.wf = true) (f ends) : (s.close f ends).mem.wf = true := by
  grind [State.close, State.setActor_mem, State.endActor_wf]
theorem State.commit7_wf (h : s.mem.wf = true) (t f ends) : (s.commit7 t f ends).mem.wf = true := by
  grind [State.commit7, State.logOrigin_mem, State.setGraph_mem, State.setTile_mem, State.firingRound_mem, State.endTrap_wf,
    State.close_wf]
theorem State.commitRun_wf (h : s.mem.wf = true) (n t f step ends) : (State.commitRun n s t f step ends).mem.wf = true := by
  induction n generalizing s f step with
  | zero => exact h
  | succ n ih =>
    unfold State.commitRun
    grind [CStep.state, State.commit1_wf, State.commit2_wf, State.commit3_wf, State.commit4_wf, State.commit5_wf,
      State.commit6_wf, State.commit7_wf, State.setFiring_mem]
theorem State.startCommit_wf (h : s.mem.wf = true) (t f ends) : (s.startCommit t f ends).mem.wf = true := by
  grind [State.startCommit, State.commitRun_wf]
theorem execCommitContinue_wf (h : s.mem.wf = true) {tile} : MemWf (execCommitContinue tile s) := by
  grind [MemWf, disabled, execCommitContinue, State.commitRun_wf]
theorem execCommit_wf (h : s.mem.wf = true) : MemWf (execCommit s) := by
  grind [MemWf, disabled, execCommit, onSeq_wf, State.startCommit_wf]
theorem execAend_wf (h : s.mem.wf = true) : MemWf (execAend s) := by
  grind [MemWf, disabled, execAend, onSeq_wf, State.startCommit_wf]
theorem execYield_wf (h : s.mem.wf = true) : MemWf (execYield s) := by
  grind [MemWf, disabled, execYield, State.postCause_mem, State.rollback_mem, State.setActor_mem, onSeq_wf, State.abortGraph_wf,
    trapAt_wf, State.lateNotices_wf]
theorem execTrap_wf (h : s.mem.wf = true) {a} : MemWf (execTrap a s) := by
  grind [MemWf, disabled, execTrap, onSeq_wf, trapAt_wf]
theorem execLdepth_wf (h : s.mem.wf = true) {d} : MemWf (execLdepth d s) := by
  grind [MemWf, disabled, execLdepth, State.stepFiring_mem, onSeq_wf]
theorem execCompat_wf (h : s.mem.wf = true) {m x} : MemWf (execCompat m x s) := by
  grind [MemWf, disabled, execCompat, onSeq_wf, trapAt_wf]
theorem execIllegalInstruction_wf (h : s.mem.wf = true) {w} : MemWf (execIllegalInstruction w s) := by
  grind [MemWf, disabled, execIllegalInstruction, onSeq_wf, trapAt_wf]

/-! Machine/Sync.lean -/

@[simp] theorem State.passBar_mem (s : State) (t f b) : (s.passBar t f b).mem = s.mem := rfl
theorem execBar_wf (h : s.mem.wf = true) {n} : MemWf (execBar n s) := by
  grind [MemWf, disabled, execBar, State.passBar_mem, State.setFiring_mem, onSeq_wf, trapAt_wf]
theorem execBarrierPass_wf (h : s.mem.wf = true) {job alloy bar} : MemWf (execBarrierPass job alloy bar s) := by
  unfold execBarrierPass
  grind [MemWf, disabled, State.foldl_mem, State.foldl_wf, State.setGraph_mem, State.setFiring_mem, State.round_mem]
theorem subscription_wf (h : s.mem.wf = true) {w a on} : MemWf (subscription w s a on) := by
  grind [MemWf, disabled, subscription, State.stepFiring_mem, onSeq_wf, trapAt_wf, State.raiseConfig_wf]
theorem execCfgdrn_wf (h : s.mem.wf = true) : MemWf (execCfgdrn s) := by
  grind [MemWf, disabled, execCfgdrn, State.stepFiring_mem, State.setFiring_mem, onSeq_wf]
theorem execCfgld_wf (h : s.mem.wf = true) {k a} : MemWf (execCfgld k a s) := by
  grind [MemWf, disabled, execCfgld, State.stepFiring_mem, onSeq_wf, trapAt_wf]
theorem execCfgrun_wf (h : s.mem.wf = true) : MemWf (execCfgrun s) := by
  grind [MemWf, disabled, execCfgrun, State.stepFiring_mem, onSeq_wf, trapAt_wf, State.raiseConfig_wf]
theorem execCfgset_wf (h : s.mem.wf = true) {c a} : MemWf (execCfgset c a s) := by
  grind [MemWf, disabled, execCfgset, State.settleWork_mem, State.setFiring_mem, State.setActor_mem, State.stepFiring_mem,
    onCtx_wf, State.raiseConfig_wf]
theorem execLaunch_wf (h : s.mem.wf = true) {d a b} : MemWf (execLaunch d a b s) := by
  grind [MemWf, disabled, execLaunch, State.setJob_mem, State.stepFiring_mem, onSeq_wf, trapAt_wf]

/-! Machine/Flit.lean -/

theorem State.flitError_wf (h : s.mem.wf = true) (block aid chan) : (s.flitError block aid chan).mem.wf = true := by
  grind [State.flitError, State.addRecord_mem, State.blockNotice_wf]
theorem State.takeMark_wf (h : s.mem.wf = true) {block aid m flit u} (e : s.takeMark block aid m flit = some u) : u.mem.wf = true := by
  cases flit <;> grind [State.takeMark, State.flitError_wf]

/-! Machine/Silt.lean -/

theorem onTemplate_wf (h : s.mem.wf = true) {w a ok e} : MemWf (onTemplate w s a ok e) := by
  grind [MemWf, disabled, onTemplate, State.stepFiring_mem, onSeq_wf, trapAt_wf]
theorem execSkick_wf (h : s.mem.wf = true) {d a} : MemWf (execSkick d a s) := by
  grind [MemWf, disabled, execSkick, State.stepFiring_mem, onSeq_wf, trapAt_wf]
theorem execSwait_wf (h : s.mem.wf = true) {a} : MemWf (execSwait a s) := by
  grind [MemWf, disabled, execSwait, State.setFiring_mem, State.stepFiring_mem, onSeq_wf, trapAt_wf]
theorem onBurst_wf (h : s.mem.wf = true) {w ss k} (hk : ∀ p c r, MemWf (k p c r)) : MemWf (onBurst w s ss k) :=
  onEither_wf h (fun _ _ => trapAt_wf h) fun p c r => by grind [drossUse_wf, MemWf]
theorem execBrd_wf (h : s.mem.wf = true) {d a b} : MemWf (execBrd d a b s) := by
  grind [MemWf, disabled, execBrd, State.mcode_mem, State.stepEngine_mem, State.number_mem, State.sendAccesses_mem,
    State.setCopy_mem, State.breakCopy_mem, onBurst_wf, onGlobalE_wf, Memory.store_wf]
@[simp] theorem State.broadcast_mem (s : State) (c ad bs) : (s.broadcast c ad bs).mem = s.mem := by
  unfold State.broadcast
  grind [State.foldl_mem, State.setActor_mem]
theorem execBwr_wf (h : s.mem.wf = true) {d a b} : MemWf (execBwr d a b s) := by
  grind [MemWf, disabled, execBwr, State.mcode_mem, State.stepEngine_mem, State.setCopy_mem, State.number_mem,
    State.sendAccesses_mem, State.broadcast_mem, State.breakCopy_mem, State.setActor_mem, onBurst_wf, onGlobalE_wf]
theorem execBfill_wf (h : s.mem.wf = true) {d a b} : MemWf (execBfill d a b s) := by
  grind [MemWf, disabled, execBfill, State.mcode_mem, State.stepEngine_mem, State.setCopy_mem, onBurst_wf, Memory.store_wf]
theorem execMbrel_wf (h : s.mem.wf = true) {a} : MemWf (execMbrel a s) := by
  grind [MemWf, disabled, execMbrel, State.mcode_mem, State.endCopy_mem, onBurst_wf]

/-! Machine/Save.lean -/

@[simp] theorem State.modReq_mem (s : State) (j stream k) : (s.modReq j stream k).mem = s.mem := rfl
@[simp] theorem State.poisonSite_mem (s : State) (t e) : (s.poisonSite t e).mem = s.mem := by
  grind [State.poisonSite, State.setActor_mem, State.setFiring_mem, State.setGraph_mem, State.modReq_mem]
@[simp] theorem State.tileRecord_mem (s : State) (t e rank) : (s.tileRecord t e rank).mem = s.mem := rfl
theorem State.ctxWrite_wf (h : s.mem.wf = true) (j off bs) : (s.ctxWrite j off bs).mem.wf = true := by
  grind [State.foldl_mem, State.foldl_wf, State.ctxWrite, Memory.setByte_wf]
theorem State.saveImage_wf (h : s.mem.wf = true) (j order) : (s.saveImage j order).mem.wf = true := by
  grind [State.foldl_mem, State.foldl_wf, State.saveImage, State.ctxWrite_wf, Memory.clearRange_wf]
@[simp] theorem State.strike_mem (s : State) (j h) : (s.strike j h).mem = s.mem := by
  unfold State.strike
  grind [State.foldl_mem, State.poisonSite_mem, State.setActor_mem, State.setGraph_mem, State.modReq_mem]
@[simp] theorem State.restoreDross_mem (s : State) (j es) : (s.restoreDross j es).mem = s.mem := by
  unfold State.restoreDross
  grind [State.foldl_mem, State.strike_mem]

/-! Machine/Quench.lean -/

@[simp] theorem State.askQuench_mem (s : State) (j) : (s.askQuench j).mem = s.mem := by
  grind [State.askQuench, State.setGraph_mem]
@[simp] theorem State.beginQuench_mem (s : State) (j) : (s.beginQuench j).mem = s.mem := by
  unfold State.beginQuench
  grind [State.foldl_mem, State.askQuench_mem]
@[simp] theorem State.saveNode_mem (s : State) (j aid q) : (s.saveNode j aid q).mem = s.mem := by
  unfold State.saveNode
  grind [State.foldl_mem, State.releaseTrapped_mem, State.setGraph_mem]
@[simp] theorem State.saveFound_mem (s : State) (j aid tile q found) : (s.saveFound j aid tile q found).mem = s.mem := by
  unfold State.saveFound
  grind [State.foldl_mem, State.saveNode_mem, State.tileRecord_mem, State.poisonSite_mem]
theorem execQuenchMarker_wf (h : s.mem.wf = true) {job x} : MemWf (execQuenchMarker job x s) := by
  unfold execQuenchMarker
  grind [MemWf, disabled, State.foldl_mem, State.foldl_wf, State.saveFound_mem, State.rollback_mem, State.takeMark_wf,
    State.abortGraph_wf]
@[simp] theorem State.parkEngine_mem (s : State) (j p) : (s.parkEngine j p).2.mem = s.mem := rfl
@[simp] theorem State.parkEngines_mem (s : State) (j) : (s.parkEngines j).2.mem = s.mem :=
  foldl_snd_mem fun _ _ => State.parkEngine_mem _ _ _
theorem State.finishQuench_wf (h : s.mem.wf = true) (j) : (s.finishQuench j).mem.wf = true := by
  grind [State.finishQuench, State.parkEngines_mem, State.setJob_mem, State.setGraph_mem, State.saveImage_wf]

/-! Machine/Engine.lean -/

@[simp] theorem State.freeVector_mem (s : State) : s.freeVector.2.mem = s.mem := rfl
@[simp] theorem State.keptRegs_mem (s : State) (r) : (s.keptRegs r).2.mem = s.mem := by
  unfold State.keptRegs
  refine (foldl_snd_mem fun x y => ?_).trans (foldl_snd_mem fun x y => ?_)
  · grind [State.freeVector_mem]
  · grind [State.freeValue_mem]
@[simp] theorem State.startCopy_mem (s : State) (p k t rest) : (s.startCopy p k t rest).mem = s.mem := by
  grind [State.startCopy, State.keptRegs_mem, State.setEngine_mem]
theorem execSiltCopyStart_wf (h : s.mem.wf = true) {port} : MemWf (execSiltCopyStart port s) := by
  grind [MemWf, disabled, execSiltCopyStart, State.startCopy_mem]
theorem execBoundKick_wf (h : s.mem.wf = true) {port template} : MemWf (execBoundKick port template s) := by
  unfold execBoundKick
  grind [MemWf, disabled, → State.kick_mem, State.setGraph_mem, State.setEngine_mem]
theorem execKickRegisterWrite_wf (h : s.mem.wf = true) {who off data} : MemWf (execKickRegisterWrite who off data s) := by
  unfold execKickRegisterWrite
  split
  · exact memWf_disabled _
  split
  · extract_lets p
    split
    · exact memWf_disabled _
    split
    · exact memWf_next h
    split
    · exact memWf_next (State.pushRecord_wf h _ _)
    split
    next e => exact memWf_next (State.pushNamed_mem e ▸ h)
    · exact memWf_disabled _
  · exact memWf_next h
theorem execMailboxEvent_wf (h : s.mem.wf = true) {job cxid} : MemWf (execMailboxEvent job cxid s) := by
  grind [MemWf, disabled, execMailboxEvent, State.setGraph_mem]

/-! Machine/Queues.lean -/

@[simp] theorem State.settleQueue_mem (s : State) (n q) : (s.settleQueue n q).mem = s.mem := rfl
@[simp] theorem State.writeQueue_mem (s : State) (w off size data) : (s.writeQueue w off size data).mem = s.mem := by
  unfold State.writeQueue
  grind [State.foldl_mem, State.setQueue_mem, State.settleQueue_mem]
@[simp] theorem State.poisonQueue_mem (s : State) (off) : (s.poisonQueue off).mem = s.mem := by
  grind [State.poisonQueue, State.setQueue_mem]

/-! Machine/Perform.lean -/

theorem State.accessNotice_wf (h : s.mem.wf = true) (a code tval) : (s.accessNotice a code tval).mem.wf = true := by
  grind [State.accessNotice, State.jobNotice_wf, State.pushRecord_wf]
theorem State.worldViolation_wf (h : s.mem.wf = true) (a pa) : (s.worldViolation a pa).mem.wf = true := by
  grind [State.worldViolation, State.setJob_mem, State.finishError_wf, State.abortGraph_wf, State.pushRecord_wf]
theorem State.performLocal_wf (h : s.mem.wf = true) (a pa) : (s.performLocal a pa).mem.wf = true := by
  grind [State.performLocal, State.worldViolation_wf, State.finishError_wf, State.accessNotice_wf, State.finish_wf,
    Memory.writePiece_wf, Memory.atomic_wf]
theorem State.performReg_wf (h : s.mem.wf = true) (a off) : (s.performReg a off).mem.wf = true := by
  grind [State.performReg, State.poisonQueue_mem, State.writeQueue_mem, State.finish_wf, State.finishError_wf]
theorem State.performHost_wf (h : s.mem.wf = true) (a link addr) : (s.performHost a link addr).mem.wf = true := by
  grind [State.foldl_mem, State.foldl_wf, State.performHost, State.emit_mem, State.finishError_wf, State.raiseNomem_wf,
    State.finish_wf, State.accessNotice_wf]
theorem State.answerHost_wf (h : s.mem.wf = true) (link r bs) : (s.answerHost link r bs).mem.wf = true := by
  grind [State.answerHost, State.emit_mem, State.notice_wf]
theorem State.answer_wf (h : s.mem.wf = true) (id) : (s.answer id).mem.wf = true := by
  grind [State.answer, State.setPeer_mem, State.emit_mem, State.answerHost_wf, State.notice_wf]
@[simp] theorem State.abortInbound_mem (s : State) (id) : (s.abortInbound id).mem = s.mem := rfl
theorem State.performInbound_wf (h : s.mem.wf = true) (a q id) : (s.performInbound a q id).mem.wf = true := by
  grind [State.performInbound, State.abortInbound_mem, State.performLocal_wf, State.finishError_wf, State.worldViolation_wf,
    State.finish_wf, State.performReg_wf, State.answer_wf]
theorem execGlobalAccessPerform_wf (h : s.mem.wf = true) {id} : MemWf (execGlobalAccessPerform id s) := by
  grind [MemWf, disabled, execGlobalAccessPerform, State.performInbound_wf, State.performLocal_wf, State.performReg_wf,
    State.performHost_wf, State.finishError_wf, State.raiseNomem_wf]
theorem State.performAt_wf (h : s.mem.wf = true) (a pa) : (s.performAt a pa).mem.wf = true := by
  grind [State.performAt, State.performInbound_wf, State.performLocal_wf]
theorem execHostCompletion_wf (h : s.mem.wf = true) {id data status} : MemWf (execHostCompletion id data status s) := by
  grind [MemWf, disabled, execHostCompletion, State.finish_wf, State.finishError_wf, State.performAt_wf, Memory.setBad_wf]

/-! Machine/Streams.lean -/

theorem State.walkElem_mem (pasid slot failed affine write who ps l s) :
    (State.walkElem pasid slot failed affine write who ps l s).2.mem = s.mem := by
  induction ps generalizing l s with
  | nil => rfl
  | cons p t ih =>
    unfold State.walkElem
    grind [State.translate_mem]
theorem State.place_wf (h : s.mem.wf = true) (j n st e) : (s.place j n st e).2.mem.wf = true := by
  have hw := State.walkElem_mem (s.pasidOf j) st.port e.failed st.affine st.writes (.elem j n e.idx)
    (pieces (e.len + 1) e.va e.len) st.latched s
  grind [State.place, → State.joinTicket_wf]
theorem State.rewalk_wf (h : s.mem.wf = true) (j n i) : (s.rewalk j n i).mem.wf = true := by
  grind [State.rewalk, State.place_wf, State.setGraph_mem]
theorem execStreamElementIssue_wf (h : s.mem.wf = true) {job stream} : MemWf (execStreamElementIssue job stream s) := by
  grind [MemWf, disabled, execStreamElementIssue, State.rewalk_wf, State.setGraph_mem, State.place_wf, State.abortGraph_wf]
theorem State.elemNotice_wf (h : s.mem.wf = true) (j st e ts) : (s.elemNotice j st e ts).mem.wf = true := by
  grind [State.elemNotice, State.jobNotice_wf]
theorem State.sendParts_wf (h : s.mem.wf = true) (j n st e ts) : (s.sendParts j n st e ts).mem.wf = true := by
  grind [State.sendParts, State.setGraph_mem, State.number_mem, State.sendAccesses_mem, State.elemNotice_wf]
theorem execStreamElementComplete_wf (h : s.mem.wf = true) {job stream elem} : MemWf (execStreamElementComplete job stream elem s) := by
  grind [MemWf, disabled, execStreamElementComplete, State.setGraph_mem, State.sendParts_wf]

/-! Machine/Sched.lean -/

theorem State.endExhausted_wf (h : s.mem.wf = true) (t) : (s.endExhausted t).mem.wf = true := by
  grind [State.foldl_mem, State.foldl_wf, State.endExhausted, State.endActor_wf]
@[simp] theorem State.startFiring_mem (s : State) (t j aid kind pc) : (s.startFiring t j aid kind pc).mem = s.mem := rfl
@[simp] theorem State.fireActor_mem (s : State) (t j aid a) : (s.fireActor t j aid a).mem = s.mem := by
  grind [State.fireActor, State.setTile_mem, State.startFault_mem, State.startFiring_mem]
theorem State.takeCauses_wf (h : s.mem.wf = true) (t) : (s.takeCauses t).mem.wf = true := by
  grind [State.foldl_mem, State.foldl_wf, State.takeCauses, State.setTile_mem, State.takeCause_wf]
@[simp] theorem State.vacate_mem (s : State) (t) : (s.vacate t).mem = s.mem := by
  unfold State.vacate
  grind [State.foldl_mem, State.beginQuench_mem, State.startMove_mem]
theorem execFiringBoundary_wf (h : s.mem.wf = true) {tile} : MemWf (execFiringBoundary tile s) := by
  grind [MemWf, disabled, execFiringBoundary, State.vacate_mem, State.fireActor_mem, State.endExhausted_wf, State.takeCauses_wf]
theorem execTokenArrival_wf (h : s.mem.wf = true) {job chan x} : MemWf (execTokenArrival job chan x s) := by
  grind [MemWf, disabled, execTokenArrival, State.setGraph_mem, State.flitError_wf]
theorem execEndMark_wf (h : s.mem.wf = true) {job x} : MemWf (execEndMark job x s) := by
  grind [MemWf, disabled, execEndMark, State.setGraph_mem, State.takeMark_wf]
theorem execLaneElementFire_wf (h : s.mem.wf = true) {tile elem} : MemWf (execLaneElementFire tile elem s) := by
  grind [MemWf, disabled, execLaneElementFire, State.setFiring_mem]
theorem execStreamRunDone_wf (h : s.mem.wf = true) {tile} : MemWf (execStreamRunDone tile s) := by
  grind [MemWf, disabled, execStreamRunDone, State.setFiring_mem]
theorem State.uncorrAt_wf (h : s.mem.wf = true) (t aid) : (s.uncorrAt t aid).mem.wf = true := by
  grind [State.uncorrAt, State.uncorr_wf]
theorem State.siltRecheck_wf (h : s.mem.wf = true) (p c) : (s.siltRecheck p c).mem.wf = true := by
  grind [State.siltRecheck, State.addRecord_mem, State.breakCopy_mem, State.blockNotice_wf]
theorem execUncorrectableError_wf (h : s.mem.wf = true) {tile x} : MemWf (execUncorrectableError tile x s) := by
  grind [MemWf, disabled, execUncorrectableError, State.addRecord_mem, State.tileRecord_mem, State.poisonSite_mem,
    State.siltRecheck_wf, State.recheckMiss_wf, State.blockNotice_wf, State.uncorrAt_wf]
theorem execTileScrub_wf (h : s.mem.wf = true) {tile found} : MemWf (execTileScrub tile found s) := by
  unfold execTileScrub
  grind [MemWf, disabled, State.foldl_mem, State.foldl_wf, State.tileRecord_mem, State.poisonSite_mem]

/-! Machine/Power.lean -/

theorem State.relocate_mem {before s u : State} {j aid slot old new} (e : before.relocate s j aid slot old new = some u) :
    u.mem = s.mem :=
  foldl_bind_mem (fun s p u hu => by obtain ⟨x, -, rfl⟩ := Option.map_eq_some_iff.1 hu; rfl) e
theorem State.retarget_mem {before s u : State} {rs src dst} (e : before.retarget s rs src dst = some u) : u.mem = s.mem := by
  unfold State.retarget at e
  split at e
  · cases e
  · refine foldl_bind_mem (fun s r u hu => ?_) e
    obtain ⟨v, hv, rfl⟩ := Option.map_eq_some_iff.1 hu
    exact (State.setActor_mem ..).trans (State.relocate_mem hv)
theorem execMoveStateCopy_wf (h : s.mem.wf = true) {src} : MemWf (execMoveStateCopy src s) := by
  grind [MemWf, disabled, execMoveStateCopy, State.startMove_mem]
theorem execMoveRetarget_wf (h : s.mem.wf = true) {src} : MemWf (execMoveRetarget src s) := by
  intro u hu
  unfold execMoveRetarget at hu
  split at hu
  · split at hu
    · cases hu
    · extract_lets here there at hu
      split at hu
      · cases hu
      next e =>
        obtain ⟨v, hv, hw⟩ := Option.bind_eq_some_iff.1 e
        cases hu
        simpa [State.retarget_mem hw, State.retarget_mem hv] using h
  · cases hu
theorem execMoveAbandon_wf (h : s.mem.wf = true) {src} : MemWf (execMoveAbandon src s) := by
  grind [MemWf, disabled, execMoveAbandon, State.setTile_mem, State.setBlock_mem]
theorem execRelocationMarker_wf (h : s.mem.wf = true) {port x} : MemWf (execRelocationMarker port x s) := by
  grind [MemWf, disabled, execRelocationMarker, State.clearReloc_mem, State.setPort_mem, State.takeMark_wf]
theorem execThermalRead_wf (h : s.mem.wf = true) {block celsius} : MemWf (execThermalRead block celsius s) := by
  grind [MemWf, disabled, execThermalRead, State.setBlock_mem, State.blockNotice_wf]
theorem execThermalStep_wf (h : s.mem.wf = true) {block} : MemWf (execThermalStep block s) := by
  grind [MemWf, disabled, execThermalStep, State.setBlock_mem]
@[simp] theorem State.setLimit_mem (s : State) (r k) : (s.setLimit r k).mem = s.mem := rfl
@[simp] theorem State.throttle_mem (s : State) : s.throttle.mem = s.mem := by
  grind [State.throttle, State.setGraph_mem, State.setLimit_mem]
@[simp] theorem State.unthrottle_mem (s : State) : s.unthrottle.mem = s.mem := by
  grind [State.unthrottle, State.setLimit_mem, State.setGraph_mem]
theorem execPowerWindow_wf (h : s.mem.wf = true) {watts} : MemWf (execPowerWindow watts s) := by
  grind [MemWf, disabled, execPowerWindow, State.throttle_mem, State.unthrottle_mem]
@[simp] theorem State.markStall_mem (s : State) (j) : (s.markStall j).mem = s.mem := by
  grind [State.markStall, State.setGraph_mem]
@[simp] theorem State.stall_mem (s : State) (root) : (s.stall root).mem = s.mem := by
  unfold State.stall
  grind [State.foldl_mem, State.markStall_mem, State.beginQuench_mem]
theorem State.measure_wf (h : s.mem.wf = true) (t drift age) : (s.measure t drift age).mem.wf = true := by
  grind [State.measure, State.setBlock_mem, State.blockNotice_wf]
theorem State.measureAll_wf (h : s.mem.wf = true) (age ms) : (s.measureAll age ms).mem.wf = true := by
  grind [State.foldl_mem, State.foldl_wf, State.measureAll, State.measure_wf]
theorem execAgeingMeasure_wf (h : s.mem.wf = true) {block drift age} : MemWf (execAgeingMeasure block drift age s) := by
  grind [MemWf, disabled, execAgeingMeasure, State.measure_wf]
theorem execAssayRun_wf (h : s.mem.wf = true) {block} : MemWf (execAssayRun block s) := by
  grind [MemWf, disabled, execAssayRun, State.setBlock_mem]

/-! Machine/Ports.lean -/

@[simp] theorem State.setReq_mem (s : State) (p r q) : (s.setReq p r q).mem = s.mem := rfl
@[simp] theorem State.modTag_mem (s : State) (p r tag k) : (s.modTag p r tag k).mem = s.mem := rfl
theorem State.modTag_wf (h : s.mem.wf = true) (p r tag k) : (s.modTag p r tag k).mem.wf = true := h
theorem State.walkTag_wf (h : s.mem.wf = true) (p r job t) : (s.walkTag p r job t).mem.wf = true := by
  unfold State.walkTag
  extract_lets lost
  split
  · exact h
  · split
    next e => exact State.modTag_wf (State.translate_wf h e) _ _ _ _
    next e => exact State.modTag_wf (State.translate_wf h e) _ _ _ _
    next e => exact State.translate_wf h e
    next u e =>
      split
      next hj => exact State.modTag_wf (State.joinTicket_wf (State.translate_wf h e) hj) _ _ _ _
      · exact State.translate_wf h e
theorem State.takeReq_wf (h : s.mem.wf = true) (p r q c n e) : (s.takeReq p r q c n e).mem.wf = true := by
  grind [State.takeReq, State.setGraph_mem, State.setReq_mem, State.walkTag_wf]
theorem execMemportRead_wf (h : s.mem.wf = true) {port req} : MemWf (execMemportRead port req s) := by
  grind [MemWf, disabled, execMemportRead, State.takeReq_wf]
theorem execMemportWrite_wf (h : s.mem.wf = true) {port req} : MemWf (execMemportWrite port req s) := by
  grind [MemWf, disabled, execMemportWrite, State.takeReq_wf]
theorem execMemportNull_wf (h : s.mem.wf = true) {port req} : MemWf (execMemportNull port req s) := by
  grind [MemWf, disabled, execMemportNull, State.setGraph_mem]
theorem State.expNotice_wf (h : s.mem.wf = true) (job t st) : (s.expNotice job t st).mem.wf = true := by
  unfold State.expNotice
  grind [State.foldl_mem, State.jobNotice_wf]
@[simp] theorem State.complete_mem (s : State) (p r tag x) : (s.complete p r tag x).mem = s.mem := rfl
theorem State.performOrphan_wf (h : s.mem.wf = true) {p i} : MemWf (s.performOrphan p i) := by
  unfold State.performOrphan
  have ht := fun o : Orphan => State.translate_mem s (s.pasidOf o.job) o.e.addr o.e.write (.req p (64 + 64 * o.job + o.req) o.e.tag)
  grind [MemWf, disabled, orWait, State.performDead_wf, State.setPort_mem, → State.joinTicket_wf]
theorem execMemportPerform_wf (h : s.mem.wf = true) {port req x} : MemWf (execMemportPerform port req x s) := by
  unfold execMemportPerform
  extract_lets tag
  split
  · exact memWf_disabled _
  split
  · exact State.performOrphan_wf h
  split
  · exact memWf_disabled _
  split
  · exact memWf_disabled _
  split
  · exact memWf_disabled _
  split
  · exact orWait_wf (State.walkTag_wf h _ _ _ _)
  split
  · exact memWf_disabled _
  split
  · extract_lets c
    exact memWf_next (State.abortGraph_wf (State.modTag_wf h _ _ _ _) _ _ _)
  split
  · exact memWf_next ((State.complete_mem ..).symm ▸ State.expNotice_wf h _ _ _)
  split
  · exact memWf_next ((State.complete_mem ..).symm ▸ h)
  extract_lets new
  split
  · exact memWf_disabled _
  · exact memWf_next (State.modTag_wf (foldl_performGranule_wf h _ _) _ _ _ _)
theorem execReplyRelease_wf (h : s.mem.wf = true) {port req} : MemWf (execReplyRelease port req s) := by
  grind [MemWf, disabled, execReplyRelease, State.setReq_mem, State.setGraph_mem, State.clearReloc_mem]
theorem execRequesterEnd_wf (h : s.mem.wf = true) {port req} : MemWf (execRequesterEnd port req s) := by
  grind [MemWf, disabled, execRequesterEnd, State.setGraph_mem, State.setReq_mem]
theorem execBaseDieScrub_wf (h : s.mem.wf = true) {granule found} : MemWf (execBaseDieScrub granule found s) := by
  grind [MemWf, disabled, execBaseDieScrub, State.addRecord_mem, Memory.setBad_wf]
theorem execExpanderFail_wf (h : s.mem.wf = true) {link expander} : MemWf (execExpanderFail link expander s) := by
  grind [MemWf, disabled, execExpanderFail]

/-! Machine/Place.lean -/

theorem State.bindReq_mem {s : State} {p r u} (e : s.bindReq p r = some u) : u.mem = s.mem := by
  grind [State.bindReq, State.setPort_mem]
theorem State.bindReqs_mem {s u : State} {j g} (e : s.bindReqs j g = some u) : u.mem = s.mem :=
  foldl_bind_mem (fun _ _ _ hu => State.bindReq_mem hu) e
@[simp] theorem State.loadMicro_mem (s : State) (m) : (s.loadMicro m).mem = s.mem := rfl
@[simp] theorem State.reserveQueues_mem (s : State) (j g) : (s.reserveQueues j g).mem = s.mem := by
  unfold State.reserveQueues
  grind [State.foldl_mem, State.setEngine_mem]
theorem State.refuse_wf (h : s.mem.wf = true) (j aid) : (s.refuse j aid).mem.wf = true := by
  grind [State.refuse, State.failJob_mem, State.abortGraph_wf, State.pushRecord_wf]
@[simp] theorem State.firstLoad_mem (s : State) (j) : (s.firstLoad j).mem = s.mem := by
  grind [State.firstLoad, State.freeLaunches_mem, State.setJob_mem]
@[simp] theorem State.freshSteps_mem (s : State) (g) : (s.freshSteps g).mem = s.mem := by
  unfold State.freshSteps
  grind [State.foldl_mem, State.setBlock_mem]
@[simp] theorem State.stopAssays_mem (s : State) (g) : (s.stopAssays g).mem = s.mem := by
  unfold State.stopAssays
  grind [State.foldl_mem, State.setBlock_mem]
@[simp] theorem State.beginLoad_mem (s : State) (j g micro weld) : (s.beginLoad j g micro weld).mem = s.mem := by
  unfold State.beginLoad
  grind [State.foldl_mem, State.stopAssays_mem, State.freshSteps_mem, State.firstLoad_mem, State.reserveQueues_mem,
    State.loadMicro_mem, State.setJob_mem, State.setGraph_mem]
theorem State.enter_wf (h : s.mem.wf = true) (j v o weld) : (s.enter j v o weld).state.mem.wf = true := by
  unfold State.enter
  grind [Placed.state, State.refuse_wf, State.abortGraph_wf, State.failJob_mem, → State.bindReqs_mem,
    State.restoreDross_mem, State.beginLoad_mem]
theorem State.enterAll_wf (h : s.mem.wf = true) (n j v o weld) : (State.enterAll n s j v o weld).state.mem.wf = true := by
  induction n generalizing s j v o weld with
  | zero => exact State.enter_wf h _ _ _ _
  | succ n ih =>
    have he := State.enter_wf h j v o weld
    unfold State.enterAll
    split
    · refine List.foldlRecOn (motive := fun r : Placed => r.state.mem.wf = true) _ _ (by grind [Placed.state]) fun r hr y _ => ?_
      grind [Placed.state]
    · exact he

/-! Machine/Kiln.lean -/

@[simp] theorem State.dropOwn_mem (s : State) (who) : (s.dropOwn who).mem = s.mem := rfl
@[simp] theorem State.dropWaits_mem (s : State) (j) : (s.dropWaits j).mem = s.mem := rfl
@[simp] theorem State.endJob_mem (s : State) (j status cause) : (s.endJob j status cause).mem = s.mem := by
  grind [State.endJob, State.failJob_mem, State.dropWaits_mem]
@[simp] theorem State.askSpan_mem (who job q pasid va base x b) : (State.askSpan who job q pasid va base x b).2.mem = x.2.mem := by
  grind [State.askSpan, State.ownAsk_mem]
theorem State.readPart_wf (h : s.mem.wf = true) (sec who pasid va pa n ext) :
    (s.readPart sec who pasid va pa n ext).2.2.mem.wf = true := by
  have hf := fun q a l => foldl_snd_mem (l := l) (x := (some [], s)) fun x b => State.askSpan_mem who none q pasid va a x b
  grind [State.readPart, State.notice_wf, State.emit_mem]
theorem State.readParts_wf (h : s.mem.wf = true) (pasid sec who failed l acc ext) :
    (State.readParts pasid sec who failed l acc ext s).2.2.mem.wf = true := by
  induction l generalizing s ext acc with
  | nil => exact h
  | cons c t ih =>
    unfold State.readParts
    split
    · exact h
    · split
      · exact h
      · split
        next pa u e =>
          have hr := State.readPart_wf (State.translate_wf h e) sec who pasid c.1 pa c.2 ext
          split
          next e' => rw [e'] at hr; exact ih hr _ _
          · exact hr
        next e => exact State.translate_wf h e
        next e => exact State.translate_wf h e
        next e => exact State.translate_wf h e
theorem State.readVa_wf (h : s.mem.wf = true) (pasid sec who failed va n ext) :
    (s.readVa pasid sec who failed va n ext).2.2.mem.wf = true := by
  grind [State.readVa, State.readParts_wf]
theorem State.readFor_wf (h : s.mem.wf = true) (j who va n ext) : (s.readFor j who va n ext).2.2.mem.wf = true := by
  grind [State.readFor, State.readVa_wf]
theorem State.joinRead_wf (h : s.mem.wf = true) (j va code who) : (s.joinRead j va code who).mem.wf = true := by
  grind [State.joinRead, State.joinTicket_wf]
@[simp] theorem State.newJob_mem (s : State) (n r ok) : (s.newJob n r ok).mem = s.mem := by
  grind [State.newJob, State.newId_mem, State.setJob_mem, State.setQueue_mem, State.endJob_mem]
@[simp] theorem State.haltQueue_mem (s : State) (q) : (s.haltQueue q).mem = s.mem := rfl
@[simp] theorem State.takeRecord_mem (s : State) (q got) : (s.takeRecord q got).mem = s.mem := by
  grind [State.takeRecord, State.newJob_mem, State.setQueue_mem, State.dropOwn_mem]
theorem execRecordFetch_wf (h : s.mem.wf = true) {q rd} : MemWf (execRecordFetch q rd s) := by
  grind [MemWf, disabled, execRecordFetch, State.haltQueue_mem, State.takeRecord_mem, State.readVa_wf, State.pushRecord_wf,
    orWait_wf]
theorem State.readStop_wf (h : s.mem.wf = true) (j who status x4) : (s.readStop j who status x4).mem.wf = true := by
  unfold State.readStop
  grind [State.foldl_mem, State.endJob_mem, State.joinRead_wf, State.pushRecord_wf]
theorem State.verified_wf (h : s.mem.wf = true) (j bs) : (s.verified j bs).mem.wf = true := by
  grind [State.verified, State.endJob_mem, State.setJob_mem, State.pushRecord_wf]
theorem State.copyWaits_wf (h : s.mem.wf = true) (j) : (s.copyWaits j).mem.wf = true := by
  grind [State.copyWaits, State.setJob_mem, State.jobNotice_wf]
theorem State.notePlaceable_wf (h : s.mem.wf = true) (j) : (s.notePlaceable j).mem.wf = true := by
  grind [State.notePlaceable, State.setJob_mem, State.jobNotice_wf]
theorem execImageVerify_wf (h : s.mem.wf = true) {job ext} : MemWf (execImageVerify job ext s) := by
  grind [MemWf, disabled, execImageVerify, State.endJob_mem, State.dropOwn_mem, State.readFor_wf, orWait_wf, State.copyWaits_wf,
    State.notePlaceable_wf, State.verified_wf, State.readStop_wf]
@[simp] theorem State.unweld_mem (s : State) (j) : (s.unweld j).mem = s.mem := by
  grind [State.unweld, State.setJob_mem]
theorem State.refreshJob_wf (h : s.mem.wf = true) (j) : (s.refreshJob j).mem.wf = true := by
  grind [State.refreshJob, State.unweld_mem, State.setJob_mem, State.notePlaceable_wf]
theorem State.refresh_wf (h : s.mem.wf = true) : s.refresh.mem.wf = true := by
  grind [State.foldl_mem, State.foldl_wf, State.refresh, State.refreshJob_wf]
theorem execEnergyCharge_wf (h : s.mem.wf = true) {block job x} : MemWf (execEnergyCharge block job x s) := by
  grind [MemWf, disabled, execEnergyCharge, State.setJob_mem, State.stall_mem, State.refresh_wf]
theorem State.tryWeld_wf (h : s.mem.wf = true) {j u} (e : s.tryWeld j = some u) : u.mem.wf = true := by
  unfold State.tryWeld at e
  grind [State.foldl_mem, Placed.state, State.enterAll_wf]
@[simp] theorem State.earmark_mem (s : State) (j v o) : (s.earmark j v o).mem = s.mem := by
  unfold State.earmark
  grind [State.foldl_mem, State.setJob_mem, State.beginQuench_mem]
theorem State.place1_wf (h : s.mem.wf = true) (j) : (s.place1 j).state.mem.wf = true := by
  grind [State.place1, Placed.state, State.enterAll_wf, State.tryWeld_wf, State.earmark_mem, State.jobNotice_wf, State.setJob_mem]
@[simp] theorem State.noteFailed_mem (s : State) (j) : (s.noteFailed j).mem = s.mem := rfl
theorem State.tryEach_wf (h : s.mem.wf = true) (l) : (State.tryEach l s).1.mem.wf = true := by
  induction l generalizing s with
  | nil => exact h
  | cons c t ih => grind [State.tryEach, Placed.state, State.place1_wf, State.noteFailed_mem]
@[simp] theorem State.passOver_mem (s : State) (j) : (s.passOver j).mem = s.mem := by
  grind [State.passOver, State.setJob_mem, State.newId_mem]
@[simp] theorem State.passAll_mem (s : State) (cands c) : (s.passAll cands c).mem = s.mem := by
  unfold State.passAll
  grind [State.foldl_mem, State.passOver_mem]
theorem State.levels_wf (h : s.mem.wf = true) (n cands) : (State.levels n s cands).mem.wf = true := by
  induction n generalizing s with
  | zero => exact h
  | succ n ih => grind [State.levels, State.tryEach_wf, State.passAll_mem]
theorem State.decide1_wf (h : s.mem.wf = true) : s.decide1.mem.wf = true := by
  grind [State.decide1, State.passAll_mem, State.tryEach_wf, State.levels_wf]
theorem State.settleEarmark_wf (h : s.mem.wf = true) (j) : (s.settleEarmark j).mem.wf = true := by
  grind [State.settleEarmark, Placed.state, State.setJob_mem, State.enterAll_wf]
theorem State.settleEarmarks_wf (h : s.mem.wf = true) : s.settleEarmarks.mem.wf = true := by
  grind [State.foldl_mem, State.foldl_wf, State.settleEarmarks, State.settleEarmark_wf]
theorem State.undoLoad_wf (h : s.mem.wf = true) (j status cause) : (s.undoLoad j status cause).mem.wf = true := by
  grind [State.undoLoad, State.failJob_mem, State.dropWaits_mem, State.dropGraph_wf]
theorem State.loadStop_wf (h : s.mem.wf = true) (j status g) : (s.loadStop j status g).mem.wf = true := by
  unfold State.loadStop
  grind [State.foldl_mem, State.dropWaits_mem, State.joinRead_wf, State.undoLoad_wf, State.abortGraph_wf]
theorem State.readMembers_wf (h : s.mem.wf = true) (j l ext) : (State.readMembers j l ext s).1.mem.wf = true := by
  induction l generalizing s ext with
  | nil => exact h
  | cons c t ih =>
    grind [State.readMembers, State.readFor_wf, State.dropWaits_mem, State.abortGraph_wf, State.setGraph_mem, State.loadStop_wf]
theorem State.readArgs_wf (h : s.mem.wf = true) (j m ext) : (s.readArgs j m ext).1.mem.wf = true := by
  grind [State.readArgs, State.setActor_mem, State.readMembers_wf, State.readFor_wf, State.undoLoad_wf, State.loadStop_wf,
    Memory.store_wf]
@[simp] theorem State.requeue_mem (s : State) (k) : (s.requeue k).mem = s.mem := by
  grind [State.requeue, State.setEngine_mem]
@[simp] theorem State.latchStream_mem (s : State) (j n) : (s.latchStream j n).mem = s.mem := by
  grind [State.latchStream, State.walkElem_mem, State.setGraph_mem]
@[simp] theorem State.becomeResident_mem (s : State) (j) : (s.becomeResident j).mem = s.mem := by
  unfold State.becomeResident
  grind [State.foldl_mem, State.latchStream_mem, State.dropOwn_mem, State.requeue_mem, State.setGraph_mem, State.setJob_mem,
    State.markStall_mem, State.beginQuench_mem]
theorem execConfigLoadDone_wf (h : s.mem.wf = true) {job ext} : MemWf (execConfigLoadDone job ext s) := by
  grind [MemWf, disabled, execConfigLoadDone, State.becomeResident_mem, State.setJob_mem, State.setGraph_mem, State.readArgs_wf,
    orWait_wf]
theorem execWeldWavefront_wf (h : s.mem.wf = true) {job x} : MemWf (execWeldWavefront job x s) := by
  grind [MemWf, disabled, execWeldWavefront, State.setGraph_mem, State.takeMark_wf]
theorem execQuenchComplete_wf (h : s.mem.wf = true) {job} : MemWf (execQuenchComplete job s) := by
  grind [MemWf, disabled, execQuenchComplete, State.setJob_mem, State.finishQuench_wf, State.settleEarmarks_wf]
theorem execGraphEnd_wf (h : s.mem.wf = true) {job} : MemWf (execGraphEnd job s) := by
  grind [MemWf, disabled, execGraphEnd, State.setJob_mem, State.dropGraph_wf, State.settleEarmarks_wf]
theorem execDeadlockDetect_wf (h : s.mem.wf = true) {job} : MemWf (execDeadlockDetect job s) := by
  grind [MemWf, disabled, execDeadlockDetect, State.takeCause_wf]
@[simp] theorem State.returnLease_mem (s : State) (j) : (s.returnLease j).mem = s.mem := rfl
theorem State.killOne_wf (h : s.mem.wf = true) (j) : (s.killOne j).mem.wf = true := by
  grind [State.killOne, State.returnLease_mem, State.failJob_mem, State.dropWaits_mem, State.dropGraph_wf]
theorem State.killJob_wf (h : s.mem.wf = true) (j) : (s.killJob j).mem.wf = true := by
  grind [State.foldl_mem, State.foldl_wf, State.killJob, State.killOne_wf]
theorem State.killQueue_wf (h : s.mem.wf = true) (q) : (s.killQueue q).mem.wf = true := by
  grind [State.foldl_mem, State.foldl_wf, State.killQueue, State.refresh_wf, State.settleEarmarks_wf, State.killJob_wf]
theorem State.putVa_wf (h : s.mem.wf = true) {j va op} (hop : ∀ (s : State) pa u, s.mem.wf = true → op s pa = some u → u.mem.wf = true) :
    (s.putVa j va op).state.mem.wf = true := by
  unfold State.putVa
  generalize canonicalSpan va 8 = b
  have ht := State.translate_mem s (s.pasidOf j) va true (.load j)
  grind [Put.state, State.pushRecord_wf]
theorem State.ownAdd_wf (h : s.mem.wf = true) {j pa x at? u} (e : s.ownAdd j pa x at? = some u) : u.mem.wf = true := by
  unfold State.ownAdd at e
  grind [State.foldl_mem, State.emit_mem, State.ownSend_mem, Memory.atomic_wf]
theorem State.signalDropped_wf (h : s.mem.wf = true) (j va) : (s.signalDropped j va).mem.wf = true := by
  grind [State.signalDropped, State.jobNotice_wf]
theorem State.putVa_ownWrite_wf (h : s.mem.wf = true) (j va bs) :
    (s.putVa j va (fun s pa => s.ownWrite (some j) pa bs (some (s.pasidOf j, va)))).state.mem.wf = true :=
  State.putVa_wf h fun _ _ _ hs e => State.ownWrite_wf hs e
theorem State.writeStatus_wf (h : s.mem.wf = true) (j) : (s.writeStatus j).state.mem.wf = true := by
  have hp := State.putVa_ownWrite_wf h j ((s.queue (s.job j).queue).slot (s.job j).index + 120)
    (clean (leBytes 8 (dw15 ((s.job j).fail.getD (0, 0)).1 ((s.job j).fail.getD (0, 0)).2).toNat))
  have hd := fun (u : State) (h : u.mem.wf = true) va => State.signalDropped_wf h j va
  unfold State.writeStatus
  generalize State.putVa = put at hp ⊢
  generalize State.signalDropped = drop at hd ⊢
  grind [Put.state]
theorem State.signal_wf (h : s.mem.wf = true) (j) : (s.signal j).state.mem.wf = true := by
  unfold State.signal
  extract_lets r
  split
  · exact h
  · exact State.putVa_wf h fun s pa u hs e => State.ownAdd_wf hs e
  · exact State.putVa_wf h fun s pa u hs e => State.ownWrite_wf hs e
@[simp] theorem State.passUp_mem (s : State) (p f) : (s.passUp p f).mem = s.mem := by
  unfold State.passUp
  grind [State.foldl_mem, State.setJob_mem]
@[simp] theorem State.retire_mem (s : State) (j) : (s.retire j).mem = s.mem := by
  unfold State.retire
  grind [State.foldl_mem, State.returnLease_mem, State.passUp_mem, State.emit_mem, State.settleQueue_mem, State.endJob_mem]
@[simp] theorem State.worldJob_mem (s : State) (j) : (s.worldJob j).mem = s.mem := rfl
theorem State.stage_wf (h : s.mem.wf = true) {j n go} (hk : ∀ s, s.mem.wf = true → (go s).mem.wf = true) :
    (s.stage j n go).mem.wf = true := by
  grind [State.stage, State.setJob_mem]
theorem State.signalOut_wf (h : s.mem.wf = true) (j) : (s.signalOut j).mem.wf = true := by
  have hs := State.signal_wf h j
  grind [State.signalOut, Put.state, State.stage_wf, State.retire_mem, State.worldJob_mem, State.signalDropped_wf]
theorem State.statusOut_wf (h : s.mem.wf = true) (j) : (s.statusOut j).mem.wf = true := by
  grind [State.statusOut, Put.state, State.writeStatus_wf, State.stage_wf, State.worldJob_mem, State.signalOut_wf]
theorem State.retireStep_wf (h : s.mem.wf = true) (j) : (s.retireStep j).mem.wf = true := by
  have hs := State.signal_wf h j
  grind [State.retireStep, Put.state, State.retire_mem, State.signalOut_wf, State.statusOut_wf]
theorem execJobRetire_wf (h : s.mem.wf = true) {job} : MemWf (execJobRetire job s) := by
  grind [MemWf, disabled, execJobRetire, State.retireStep_wf, orWait_wf, State.refresh_wf]
theorem execDispatchDecision_wf (h : s.mem.wf = true) : MemWf (execDispatchDecision s) := by
  grind [MemWf, disabled, execDispatchDecision, State.refresh_wf, State.settleEarmarks_wf, orWait_wf, State.decide1_wf]

/-! Machine/Peers.lean -/

@[simp] theorem State.countRefused_mem (s : State) (q) : (s.countRefused q).mem = s.mem := rfl
theorem State.refused_mem {s : State} {q u} (e : s.refused q = some u) : u.mem = s.mem := by
  grind [State.refused, State.emit_mem, State.countRefused_mem]
theorem State.takeInbound_wf (h : s.mem.wf = true) (q cls addr n read ps after) :
    (s.takeInbound q cls addr n read ps after).mem.wf = true := by
  grind [State.takeInbound, State.newId_mem, State.number_mem, State.setPeer_mem, State.answer_wf]
theorem execHostBar2Read_wf (h : s.mem.wf = true) {link off n} : MemWf (execHostBar2Read link off n s) := by
  grind [MemWf, disabled, execHostBar2Read, State.emit_mem, State.takeInbound_wf]
theorem execHostBar2Write_wf (h : s.mem.wf = true) {link off data poison} : MemWf (execHostBar2Write link off data poison s) := by
  grind [MemWf, disabled, execHostBar2Write, State.emit_mem, State.takeInbound_wf]
theorem State.inbound_wf (h : s.mem.wf = true) {q go} (hgo : go.mem.wf = true) : MemWf (s.inbound q go) := by
  cases hr : s.refused q <;> grind [State.inbound, MemWf, State.refused_mem]
theorem execPeerInboundRead_wf (h : s.mem.wf = true) {peer addr n cls} : MemWf (execPeerInboundRead peer addr n cls s) := by
  grind [MemWf, disabled, execPeerInboundRead, State.inbound_wf, State.takeInbound_wf]
theorem execPeerInboundWrite_wf (h : s.mem.wf = true) {peer addr cls data poison} :
    MemWf (execPeerInboundWrite peer addr cls data poison s) := by
  grind [MemWf, disabled, execPeerInboundWrite, State.inbound_wf, State.takeInbound_wf]
theorem execPeerInboundAtomic_wf (h : s.mem.wf = true) {peer addr cls op data cmp poison} :
    MemWf (execPeerInboundAtomic peer addr cls op data cmp poison s) := by
  grind [MemWf, disabled, execPeerInboundAtomic, State.inbound_wf, State.takeInbound_wf]
theorem execPeerDomainFence_wf (h : s.mem.wf = true) {peer mask} : MemWf (execPeerDomainFence peer mask s) := by
  grind [MemWf, disabled, execPeerDomainFence, State.inbound_wf, State.takeInbound_wf]
theorem State.withheld_wf (h : s.mem.wf = true) (o) : (s.withheld o).mem.wf = true := by
  grind [State.foldl_mem, State.foldl_wf, State.withheld, State.finish_wf, State.finishError_wf, State.accessNotice_wf]
theorem execOutboundRequestSend_wf (h : s.mem.wf = true) {id} : MemWf (execOutboundRequestSend id s) := by
  grind [MemWf, disabled, execOutboundRequestSend, State.emit_mem, State.setPeer_mem, State.withheld_wf]
theorem State.deliver_wf (h : s.mem.wf = true) (poison l data) : (s.deliver poison l data).mem.wf = true := by
  induction l generalizing s data with
  | nil => exact h
  | cons a t ih => exact ih (State.finish_wf h _ _) _
theorem execPeerResponse_wf (h : s.mem.wf = true) {id epoch data poison error} : MemWf (execPeerResponse id epoch data poison error s) := by
  unfold execPeerResponse
  grind [MemWf, disabled, State.foldl_mem, State.foldl_wf, State.setPeer_mem, State.finishError_wf, State.deliver_wf]
theorem State.failRequests_wf (h : s.mem.wf = true) (q) : (s.failRequests q).mem.wf = true := by
  grind [State.foldl_mem, State.foldl_wf, State.failRequests, State.setPeer_mem, State.finishError_wf]
theorem execRequestExpire_wf (h : s.mem.wf = true) {id} : MemWf (execRequestExpire id s) := by
  grind [MemWf, disabled, execRequestExpire, State.setPeer_mem, State.failRequests_wf, State.notice_wf]
theorem execLinkdown_wf (h : s.mem.wf = true) {l} : MemWf (execLinkdown l s) := by
  unfold execLinkdown
  grind [MemWf, disabled, State.foldl_mem, State.foldl_wf, State.setLinkPort_mem, State.setHostLink_mem, State.notice_wf]
theorem execLinkTrained_wf (h : s.mem.wf = true) {l lanes rate atomics ats} : MemWf (execLinkTrained l lanes rate atomics ats s) := by
  unfold execLinkTrained
  grind [MemWf, disabled, State.foldl_mem, State.foldl_wf, State.setLinkPort_mem, State.setHostLink_mem]
theorem execReduceContribution_wf (h : s.mem.wf = true) {job stream} : MemWf (execReduceContribution job stream s) := by
  grind [MemWf, disabled, execReduceContribution, State.setGraph_mem, State.emit_mem]
theorem execReduceResult_wf (h : s.mem.wf = true) {job stream others} : MemWf (execReduceResult job stream others s) := by
  grind [MemWf, disabled, execReduceResult, State.setGraph_mem]

/-! Machine/Trans.lean -/

@[simp] theorem State.freeFiring_mem (s : State) (n j aid page) : (s.freeFiring n j aid page).mem = s.mem := by
  grind [State.freeFiring, State.setActor_mem, State.setFiring_mem]
@[simp] theorem State.freeEngine_mem (s : State) (n p page) : (s.freeEngine n p page).mem = s.mem := by
  grind [State.freeEngine, State.setCopy_mem]
theorem State.walkAgain_wf (h : s.mem.wf = true) (j x who) : (s.walkAgain j x who).2.mem.wf = true := by
  unfold State.walkAgain
  grind [State.foldl_mem, State.translate_mem, State.joinTicket_wf]
theorem State.retryFiring_wf (h : s.mem.wf = true) (n j aid) : (s.retryFiring n j aid).mem.wf = true := by
  grind [State.retryFiring, State.setFiring_mem, State.freeFiring_mem, State.walkAgain_wf]
theorem State.retryEngine_wf (h : s.mem.wf = true) (n p) : (s.retryEngine n p).mem.wf = true := by
  grind [State.retryEngine, State.setCopy_mem, State.freeEngine_mem, State.walkAgain_wf]
theorem State.retryRead_wf (h : s.mem.wf = true) (j page w) : (s.retryRead j page w).mem.wf = true := by
  unfold State.retryRead
  split
  · exact h
  extract_lets va
  split
  next code u e =>
    have hu : u.mem.wf = true := State.translate_wf h e
    rcases hj : u.joinTicket j (u.pasidOf j) va code false w with _ | ⟨n, v⟩
    · exact hu
    · exact State.joinTicket_wf hu hj
  next e => exact State.translate_wf h ‹_›
theorem State.retryWaiter_wf (h : s.mem.wf = true) (n page w) : (s.retryWaiter n page w).mem.wf = true := by
  unfold State.retryWaiter
  grind [State.foldl_mem, State.freeFiring_mem, State.rewalk_wf, State.modTag_mem, State.retryFiring_wf, State.retryEngine_wf,
    State.walkTag_wf, State.retryRead_wf]
theorem State.retryTicket_wf (h : s.mem.wf = true) (n) : (s.retryTicket n).mem.wf = true := by
  grind [State.foldl_mem, State.foldl_wf, State.retryTicket, State.retryWaiter_wf]
@[simp] theorem State.failPage_mem (s : State) (j page code) : (s.failPage j page code).mem = s.mem := rfl
theorem State.failWaiter_wf (h : s.mem.wf = true) (n t w) : (s.failWaiter n t w).mem.wf = true := by
  unfold State.failWaiter
  grind [State.foldl_mem, State.freeFiring_mem, State.postCause_mem, State.freeEngine_mem, State.rewalk_wf, State.setGraph_mem,
    State.modTag_mem, State.failPage_mem, State.abortGraph_wf]
theorem State.failTicket_wf (h : s.mem.wf = true) (n) : (s.failTicket n).mem.wf = true := by
  grind [State.foldl_mem, State.foldl_wf, State.failTicket, State.jobNotice_wf, State.failWaiter_wf]
theorem State.serviceTicket_wf (h : s.mem.wf = true) (secure v) : (s.serviceTicket secure v).mem.wf = true := by
  grind [State.serviceTicket, State.failTicket_wf, State.retryTicket_wf]
@[simp] theorem State.startFlux_mem (s : State) (v) : (s.startFlux v).mem = s.mem := by
  grind [State.startFlux]
theorem execFluxEmerge_wf (h : s.mem.wf = true) {m} : MemWf (execFluxEmerge m s) := by
  grind [MemWf, disabled, execFluxEmerge, State.emit_mem, State.takeMark_wf]
theorem execAtsInvalidate_wf (h : s.mem.wf = true) {link pasid va size} : MemWf (execAtsInvalidate link pasid va size s) := by
  grind [MemWf, disabled, execAtsInvalidate]
theorem execAtsTranslationResponse_wf (h : s.mem.wf = true) {id addr writable} : MemWf (execAtsTranslationResponse id addr writable s) := by
  grind [MemWf, disabled, execAtsTranslationResponse, State.emit_mem, State.cache_mem]
theorem execPriResponse_wf (h : s.mem.wf = true) {id ok} : MemWf (execPriResponse id ok s) := by
  grind [MemWf, disabled, execPriResponse, State.emit_mem]

/-! Machine/Registers.lean -/

theorem execMptrcRead_wf (h : s.mem.wf = true) {who x} : MemWf (execMptrcRead who x s) := by
  grind [MemWf, disabled, execMptrcRead, State.emit_mem, State.setPort_mem]
theorem State.moduleReset_wf (h : s.mem.wf = true) (limit held) : (s.moduleReset limit held).mem.wf = true :=
  Memory.unrefreshed_wf h _
@[simp] theorem State.fwHalt_mem (s : State) : s.fwHalt.mem = s.mem := rfl
@[simp] theorem State.askPlot_mem (s : State) (p w) : (s.askPlot p w).mem = s.mem := rfl
@[simp] theorem State.askRegion_mem (s : State) (r a b) : (s.askRegion r a b).mem = s.mem := rfl
@[simp] theorem State.setPortWorld_mem (s : State) (n w) : (s.setPortWorld n w).mem = s.mem := rfl
@[simp] theorem State.writeWorld_mem (s : State) (off size data) : (s.writeWorld off size data).mem = s.mem := by
  unfold State.writeWorld
  grind [State.foldl_mem, State.askPlot_mem, State.askRegion_mem]
@[simp] theorem State.clearCoolFault_mem (s : State) : s.clearCoolFault.mem = s.mem := by
  grind [State.clearCoolFault]
theorem State.writeBoard_wf (h : s.mem.wf = true) (who off v w) : (s.writeBoard who off v w).mem.wf = true := by
  unfold State.writeBoard
  grind [State.foldl_mem, State.clearCoolFault_mem, State.fwHalt_mem, State.startFlux_mem, State.moduleReset_wf,
    State.serviceTicket_wf]
@[simp] theorem State.refill_mem (s : State) (who w) : (s.refill who w).mem = s.mem := by
  grind [State.refill, State.setJob_mem]
@[simp] theorem State.writeKiln_mem (s : State) (who off v w) : (s.writeKiln who off v w).mem = s.mem := by
  unfold State.writeKiln
  grind [State.foldl_mem, State.refill_mem]
theorem State.peerState_wf (h : s.mem.wf = true) (q code) : (s.peerState q code).mem.wf = true := by
  unfold State.peerState
  grind [State.foldl_mem, State.setPeer_mem, State.failRequests_wf]
theorem State.writePeer_wf (h : s.mem.wf = true) (q v w) : (s.writePeer q v w).mem.wf = true := by
  grind [State.writePeer, State.setPeer_mem, State.peerState_wf]
theorem State.writeLink_wf (h : s.mem.wf = true) (off size v w) : (s.writeLink off size v w).mem.wf = true := by
  grind [State.writeLink, State.setLinkPort_mem, State.writePeer_wf]
@[simp] theorem State.writeMem_mem (s : State) (off w) : (s.writeMem off w).mem = s.mem := by
  grind [State.writeMem, State.setPort_mem]
@[simp] theorem State.writeFault_mem (s : State) (who off v w) : (s.writeFault who off v w).mem = s.mem := by
  unfold State.writeFault
  grind [State.foldl_mem, State.setBlock_mem]
theorem State.writeQctl_wf (h : s.mem.wf = true) (n w) : (s.writeQctl n w).mem.wf = true := by
  grind [State.writeQctl, State.settleQueue_mem, State.killQueue_wf]
theorem State.regWrite_wf (h : s.mem.wf = true) (r) : (s.regWrite r).mem.wf = true := by
  grind [State.regWrite, State.writeQueue_mem, State.writeKiln_mem, State.writeMem_mem, State.writeWorld_mem,
    State.writeFault_mem, State.writeQctl_wf, State.writeBoard_wf, State.writeLink_wf]
theorem State.rowWrite_wf {s : State} {row r go} (hgo : (go s).mem.wf = true) : MemWf (s.rowWrite row r go) := by
  grind [State.rowWrite, MemWf, disabled]
theorem execPoisonedRegisterWrite_wf (h : s.mem.wf = true) {who off data} : MemWf (execPoisonedRegisterWrite who off data s) := by
  unfold execPoisonedRegisterWrite
  split
  · exact memWf_disabled _
  split
  · refine memWf_next ?_
    split
    · exact (State.poisonQueue_mem s off).symm ▸ h
    · exact h
  split
  · exact memWf_next h
  extract_lets p
  split
  · exact memWf_next h
  · exact memWf_next h
  · exact memWf_next h
  split
  · exact memWf_next (State.pushRecord_wf h _ _)
  split
  next e => exact memWf_next (State.pushNamed_mem e ▸ h)
  · exact memWf_disabled _

/-! Machine/Board.lean -/

theorem execPowerOnReset_wf (s) : MemWf (execPowerOnReset s) := memWf_next Memory.empty_wf
theorem execLimitReset_wf (h : s.mem.wf = true) {code} : MemWf (execLimitReset code s) := by
  grind [MemWf, disabled, execLimitReset, State.moduleReset_wf]
theorem execPerst_wf (h : s.mem.wf = true) : MemWf (execPerst s) := by
  grind [MemWf, disabled, execPerst, State.moduleReset_wf]
theorem execModuleLeavesReset_wf (h : s.mem.wf = true) : MemWf (execModuleLeavesReset s) := by
  grind [MemWf, disabled, execModuleLeavesReset]
theorem execFunctionReset_wf (h : s.mem.wf = true) {link fn} : MemWf (execFunctionReset link fn s) := by
  unfold execFunctionReset
  grind [MemWf, disabled, State.foldl_mem, State.foldl_wf, State.settleQueue_mem, State.killQueue_wf]
@[simp] theorem State.failTags_mem (s : State) (link) : (s.failTags link).mem = s.mem := by
  unfold State.failTags
  grind [State.foldl_mem, State.complete_mem]
theorem State.failAccess_wf (h : s.mem.wf = true) (a) : (s.failAccess a).mem.wf = true := by
  grind [State.failAccess, State.answer_wf, State.finishError_wf]
theorem execLinkReset_wf (h : s.mem.wf = true) {link} : MemWf (execLinkReset link s) := by
  unfold execLinkReset
  grind [MemWf, disabled, State.foldl_mem, State.foldl_wf, State.failTags_mem, State.setHostLink_mem, State.failAccess_wf]
theorem State.coolWarn_wf (h : s.mem.wf = true) : s.coolWarn.mem.wf = true := by
  grind [State.coolWarn, State.notice_wf]
theorem execCoolingWarning_wf (h : s.mem.wf = true) : MemWf (execCoolingWarning s) := by
  grind [MemWf, disabled, execCoolingWarning, State.coolWarn_wf]
theorem execCoolingCap_wf (h : s.mem.wf = true) : MemWf (execCoolingCap s) := by
  grind [MemWf, disabled, execCoolingCap, State.coolWarn_wf]
theorem execCoolingCapClear_wf (h : s.mem.wf = true) : MemWf (execCoolingCapClear s) := by
  grind [MemWf, disabled, execCoolingCapClear, State.freeValue_mem]
theorem execCoolingShutdown_wf (h : s.mem.wf = true) : MemWf (execCoolingShutdown s) := by
  unfold execCoolingShutdown
  grind [MemWf, disabled, State.foldl_mem, State.foldl_wf, State.beginQuench_mem]
@[simp] theorem State.makeReady_mem (s : State) : s.makeReady.mem = s.mem := by
  unfold State.makeReady
  grind [State.foldl_mem, State.settleQueue_mem]
theorem State.dropLink_wf (h : s.mem.wf = true) (l) : (s.dropLink l).mem.wf = true := by
  unfold State.dropLink
  grind [State.foldl_mem, State.setLinkPort_mem, State.setHostLink_mem, State.notice_wf]
theorem State.resettle_wf (h : s.mem.wf = true) : s.resettle.mem.wf = true := by
  grind [State.resettle, State.refresh_wf, State.settleEarmarks_wf]
theorem State.loseEngine_wf (h : s.mem.wf = true) (p) : (s.loseEngine p).mem.wf = true := by
  grind [State.foldl_mem, State.foldl_wf, State.loseEngine, State.abortGraph_wf]
theorem State.spend_wf (h : s.mem.wf = true) (b) : (s.spend b).mem.wf = true := by
  grind [State.spend, State.setBlock_mem, State.blockNotice_wf, State.loseEngine_wf, State.dropLink_wf]
theorem execAssayComplete_wf (h : s.mem.wf = true) {block lasting drift age} : MemWf (execAssayComplete block lasting drift age s) := by
  grind [MemWf, disabled, execAssayComplete, State.setBlock_mem, State.measure_wf, State.resettle_wf, State.spend_wf]
theorem State.assayAll_wf (h : s.mem.wf = true) (x) : (s.assayAll x).mem.wf = true := by
  grind [State.foldl_mem, State.foldl_wf, State.assayAll, State.spend_wf, State.measureAll_wf]
theorem execCoolingRecovery_wf (h : s.mem.wf = true) {found} : MemWf (execCoolingRecovery found s) := by
  grind [MemWf, disabled, execCoolingRecovery, State.makeReady_mem, State.assayAll_wf, State.resettle_wf]
@[simp] theorem State.mailResult_mem (s : State) (st) : (s.mailResult st).mem = s.mem := rfl
theorem State.startMail_wf (h : s.mem.wf = true) (r) : (s.startMail r).mem.wf = true := by
  unfold State.startMail
  grind [State.foldl_mem, State.emit_mem, State.regWrite_wf]
theorem State.withBlock_wf (h : s.mem.wf = true) {blk k} (hk : ∀ b, (k s b).mem.wf = true) : (s.withBlock blk k).mem.wf = true := by
  cases blk <;> grind [State.withBlock, State.mailResult_mem]
theorem State.mailRun_wf (h : s.mem.wf = true) {row r blk k} (hk : ∀ s b, s.mem.wf = true → (k s b).mem.wf = true) :
    MemWf (s.mailRun row r blk k) := by
  have hm := State.startMail_wf h r
  have hb := State.withBlock_wf hm (blk := blk) (hk _ · hm)
  grind [State.mailRun, MemWf, disabled, State.rowWrite_wf]
theorem execLoadfw_wf (h : s.mem.wf = true) {r blk} : MemWf (execLoadfw r blk s) := by
  grind [MemWf, disabled, execLoadfw, State.mailRun_wf]
theorem execFirmwareStart_wf (h : s.mem.wf = true) {modes expanders} : MemWf (execFirmwareStart modes expanders s) := by
  unfold execFirmwareStart
  split
  · exact memWf_disabled _
  next st svn d e =>
    extract_lets b exps withLp
    split
    · exact memWf_disabled _
    · split
      · exact memWf_next (by simpa using h)
      · split
        · exact memWf_disabled _
        · refine memWf_next ?_
          rw [State.mailResult_mem]
          refine State.foldl_wf h fun s m hs => ?_
          split
          · exact hs
          · exact hs
@[simp] theorem State.loadWorld_mem (s : State) (e) : (s.loadWorld e).mem = s.mem := by
  grind [State.loadWorld]
theorem execBringupComplete_wf (h : s.mem.wf = true) {found worlds linkPorts svBase svLen} :
    MemWf (execBringupComplete found worlds linkPorts svBase svLen s) := by
  unfold execBringupComplete
  grind [MemWf, disabled, State.foldl_mem, State.foldl_wf, State.loadWorld_mem, State.setLinkPort_mem, State.makeReady_mem,
    State.assayAll_wf]
theorem execSpdmMeasurement_wf (h : s.mem.wf = true) {nonce} : MemWf (execSpdmMeasurement nonce s) := by
  grind [MemWf, disabled, execSpdmMeasurement, State.emit_mem]
theorem State.secureBlock_mem {s : State} {b u n} (e : s.secureBlock b = some (n, u)) : u.mem = s.mem := by
  grind [State.secureBlock]
theorem State.secureMail_wf (h : s.mem.wf = true) {b k} (hk : ∀ s b, s.mem.wf = true → (k s b).mem.wf = true) :
    (s.secureMail b k).mem.wf = true := by
  grind [State.secureMail, State.mailResult_mem, State.secureBlock_mem]
@[simp] theorem State.worldEntry_mem (s : State) (e) : (s.worldEntry e).mem = s.mem := by
  grind [State.worldEntry, State.askPlot_mem, State.setPortWorld_mem, State.askRegion_mem]
@[simp] theorem State.worldReq_mem (s : State) (p) : (s.worldReq p).mem = s.mem := by
  unfold State.worldReq
  grind [State.foldl_mem, State.mailResult_mem, State.worldEntry_mem]
theorem execWorldreq_wf (h : s.mem.wf = true) {r blk} : MemWf (execWorldreq r blk s) := by
  grind [MemWf, disabled, execWorldreq, State.worldReq_mem, State.mailRun_wf, State.secureMail_wf]
@[simp] theorem State.enrol_mem (s : State) (p) : (s.enrol p).mem = s.mem := by
  grind [State.enrol, State.mailResult_mem]
theorem execEnrol_wf (h : s.mem.wf = true) {r blk} : MemWf (execEnrol r blk s) := by
  grind [MemWf, disabled, execEnrol, State.enrol_mem, State.mailRun_wf, State.secureMail_wf]
theorem execSvnraise_wf (h : s.mem.wf = true) {r blk} : MemWf (execSvnraise r blk s) := by
  grind [MemWf, disabled, execSvnraise, State.mailResult_mem, State.mailRun_wf, State.secureMail_wf]
theorem execMailboxBadcmd_wf (h : s.mem.wf = true) {r} : MemWf (execMailboxBadcmd r s) := by
  grind [MemWf, disabled, execMailboxBadcmd, State.mailResult_mem, State.rowWrite_wf, State.startMail_wf]
theorem execMailboxDone_wf (h : s.mem.wf = true) : MemWf (execMailboxDone s) := by
  grind [MemWf, disabled, execMailboxDone, State.emit_mem]
theorem execPlotWorldChange_wf (h : s.mem.wf = true) {plot} : MemWf (execPlotWorldChange plot s) := by
  grind [MemWf, disabled, execPlotWorldChange, State.resettle_wf]
theorem execRegionWorldChange_wf (h : s.mem.wf = true) {region} : MemWf (execRegionWorldChange region s) := by
  grind [MemWf, disabled, execRegionWorldChange]

/-! Machine/Csr.lean -/

theorem csrWrite_wf (h : s.mem.wf = true) {w d a c op} : MemWf (csrWrite w s d a c op) := by
  grind [MemWf, disabled, csrWrite, State.stepFiring_mem, onSeq_wf, trapAt_wf]
theorem execCsrr_wf (h : s.mem.wf = true) {d c} : MemWf (execCsrr d c s) := by
  grind [MemWf, disabled, execCsrr, State.stepFiring_mem, onSeq_wf, trapAt_wf]

/-! Machine/Mem.lean -/

theorem loadRam_wf (h : s.mem.wf = true) {w d a o size signed} : MemWf (loadRam w s d a o size signed) := by
  grind [MemWf, disabled, loadRam, State.stepFiring_mem, State.mcode_mem, State.stepEngine_mem, onEither_wf, trapAt_wf,
    drossUse_wf]
theorem storeLocal_wf (h : s.mem.wf = true) {w d a o k size} : MemWf (storeLocal w s d a o k size) := by
  grind [MemWf, disabled, storeLocal, onSeq_wf, trapAt_wf, State.raiseWrite_wf, State.storeRam_wf]
theorem loadGlobal_wf (h : s.mem.wf = true) {w d a o k size signed} : MemWf (loadGlobal w s d a o k size signed) := by
  grind [MemWf, disabled, loadGlobal, State.issueLoad_mem, State.issueLoadE_mem, onEither_wf, trapAt_wf, onGlobal_wf, drossUse_wf,
    onGlobalE_wf]
theorem storeGlobal_wf (h : s.mem.wf = true) {w d a o k size} : MemWf (storeGlobal w s d a o k size) := by
  grind [MemWf, disabled, storeGlobal, State.issueStoreE_mem, onEither_wf, trapAt_wf, onGlobal_wf, State.issueStore_wf,
    drossUse_wf, onGlobalE_wf]
theorem execVl_wf (h : s.mem.wf = true) {d a o k} : MemWf (execVl d a o k s) := by
  grind [MemWf, disabled, execVl, State.stepFiring_mem, onSeq_wf, trapAt_wf]
theorem execVs_wf (h : s.mem.wf = true) {d a o k} : MemWf (execVs d a o k s) := by
  grind [MemWf, disabled, execVs, onSeq_wf, trapAt_wf, State.raiseWrite_wf, State.storeRam_wf]
theorem execVlg_wf (h : s.mem.wf = true) {d a o k} : MemWf (execVlg d a o k s) := by
  grind [MemWf, disabled, execVlg, State.issueLoad_mem, State.issueLoadE_mem, onEither_wf, trapAt_wf, onGlobal_wf, drossUse_wf,
    onGlobalE_wf]
theorem execVsg_wf (h : s.mem.wf = true) {d a o k} : MemWf (execVsg d a o k s) := by
  grind [MemWf, disabled, execVsg, State.stepFiring_mem, State.issueStoreE_mem, onEither_wf, trapAt_wf, onGlobal_wf,
    State.issueStore_wf, drossUse_wf, onGlobalE_wf]

/-! Machine/Tcopy.lean -/

theorem onCopy_wf (h : s.mem.wf = true) {w ss vs k} (hk : ∀ s t f a, s.mem.wf = true → MemWf (k s t f a)) :
    MemWf (onCopy w s ss vs k) :=
  onSeq_wf h fun t f => by grind [trapAt_wf, State.settleWork_mem, State.setFiring_mem]
theorem execTsld_wf (h : s.mem.wf = true) {d a} : MemWf (execTsld d a s) := by
  grind [MemWf, disabled, execTsld, State.stepFiring_mem, onCopy_wf, trapAt_wf]
theorem execTsst_wf (h : s.mem.wf = true) {d a} : MemWf (execTsst d a s) := by
  grind [MemWf, disabled, execTsst, State.tsWrite_mem, State.stepFiring_mem, onCopy_wf, trapAt_wf]
theorem execTsmv_wf (h : s.mem.wf = true) {d a b} : MemWf (execTsmv d a b s) := by
  grind [MemWf, disabled, execTsmv, State.tsWrite_mem, State.stepFiring_mem, onCopy_wf, trapAt_wf]
theorem execTsslot_wf (hs : s.mem.wf = true) {h a} : MemWf (execTsslot h a s) := by
  grind [MemWf, disabled, execTsslot, State.slotWrite_mem, State.stepFiring_mem, onCopy_wf, trapAt_wf]
theorem execSlotts_wf (hs : s.mem.wf = true) {h a} : MemWf (execSlotts h a s) := by
  grind [MemWf, disabled, execSlotts, State.tsWrite_mem, State.stepFiring_mem, onCopy_wf, trapAt_wf]
theorem execHrts_wf (h : s.mem.wf = true) {d a b} : MemWf (execHrts d a b s) := by
  grind [MemWf, disabled, execHrts, State.stepFiring_mem, State.tsWrite_mem, onCopy_wf, trapAt_wf]
theorem execTshr_wf (h : s.mem.wf = true) {d a b} : MemWf (execTshr d a b s) := by
  grind [MemWf, disabled, execTshr, State.stepFiring_mem, onCopy_wf, trapAt_wf, State.storeRam_wf]

/-! Machine/Vmove.lean -/

theorem moveBytes_wf (h : s.mem.wf = true) {t f d on byte} : MemWf (moveBytes s t f d on byte) := by
  grind [MemWf, disabled, moveBytes, State.stepFiring_mem]
theorem execVmov_wf (h : s.mem.wf = true) {d a p} : MemWf (execVmov d a p s) := by
  grind [MemWf, disabled, execVmov, onLane_wf, moveBytes_wf]
theorem execVbcast_wf (h : s.mem.wf = true) {d a p} : MemWf (execVbcast d a p s) := by
  grind [MemWf, disabled, execVbcast, State.stepFiring_mem, onLane_wf]
theorem execVins_wf (h : s.mem.wf = true) {d a b} : MemWf (execVins d a b s) := by
  grind [MemWf, disabled, execVins, State.stepFiring_mem, onLane_wf, trapAt_wf]
theorem execVext_wf (h : s.mem.wf = true) {d a b} : MemWf (execVext d a b s) := by
  grind [MemWf, disabled, execVext, State.stepFiring_mem, onLane_wf, trapAt_wf]
theorem execVperm_wf (h : s.mem.wf = true) {d a b p} : MemWf (execVperm d a b p s) := by
  grind [MemWf, disabled, execVperm, onLane_wf, moveBytes_wf]
theorem execVrot_wf (h : s.mem.wf = true) {d a b p} : MemWf (execVrot d a b p s) := by
  grind [MemWf, disabled, execVrot, onLane_wf, trapAt_wf, moveBytes_wf]
theorem execVzip_wf (h : s.mem.wf = true) {d a b} : MemWf (execVzip d a b s) := by
  grind [MemWf, disabled, execVzip, State.stepFiring_mem, onLane_wf, trapAt_wf]
theorem execVunzip_wf (h : s.mem.wf = true) {d a b} : MemWf (execVunzip d a b s) := by
  grind [MemWf, disabled, execVunzip, State.stepFiring_mem, onLane_wf, trapAt_wf]
theorem execGrit_wf (h : s.mem.wf = true) {d} : MemWf (execGrit d s) := by
  grind [MemWf, disabled, execGrit, State.stepFiring_mem, onLane_wf]
theorem execGritv_wf (h : s.mem.wf = true) {d} : MemWf (execGritv d s) := by
  grind [MemWf, disabled, execGritv, State.stepFiring_mem, onLane_wf]
theorem execGritc_wf (h : s.mem.wf = true) {d a} : MemWf (execGritc d a s) := by
  grind [MemWf, disabled, execGritc, State.stepFiring_mem, onLane_wf]
theorem sample_wf (h : s.mem.wf = true) {w d a ss p keep} : MemWf (sample w s d a ss p keep) := by
  grind [MemWf, disabled, sample, State.stepFiring_mem, onLane_wf, trapAt_wf]

/-! Machine/Vred.lean -/

theorem execWadd_wf (h : s.mem.wf = true) {d a p} : MemWf (execWadd d a p s) := by
  grind [MemWf, disabled, execWadd, State.stepFiring_mem, onLane_wf, trapAt_wf]
theorem execWrd_wf (h : s.mem.wf = true) {d a p} : MemWf (execWrd d a p s) := by
  grind [MemWf, disabled, execWrd, State.stepFiring_mem, onLane_wf]
theorem execWclr_wf (h : s.mem.wf = true) {d p} : MemWf (execWclr d p s) := by
  grind [MemWf, disabled, execWclr, State.stepFiring_mem, onLane_wf]
theorem execWcpy_wf (h : s.mem.wf = true) {d a m} : MemWf (execWcpy d a m s) := by
  grind [MemWf, disabled, execWcpy, State.stepFiring_mem, onLane_wf, trapAt_wf]
theorem onPred_wf (h : s.mem.wf = true) {d k} : MemWf (onPred s d k) := by
  grind [MemWf, disabled, onPred, State.stepFiring_mem, onSeq_wf]
theorem fromPred_wf (h : s.mem.wf = true) {d a k} : MemWf (fromPred s d a k) := by
  grind [MemWf, disabled, fromPred, State.stepFiring_mem, onSeq_wf]
theorem execPmovs_wf (h : s.mem.wf = true) {d a} : MemWf (execPmovs d a s) := by
  grind [MemWf, disabled, execPmovs, State.stepFiring_mem, onSeq_wf, trapAt_wf]

/-! Machine/Dispatch.lean -/

theorem exec_wf (h : s.mem.wf = true) (i) : MemWf (exec i s) := by
  unfold exec
  cases i with
  | add | sub | and | or | xor | sll | srl | sra | rol | ror | slt | sltu | min | max | minu | maxu | mul | mulh | mulhu | div | divu
    | rem | remu | andn | addw | subw => exact onTwo_wf h
  | clz | ctz | popc | sextb | sexth | sextw | addi | andi | ori | xori | slti | sltiu | slli | srli | srai | roli => exact onOne_wf h
  | lui | jal | nop => exact onRegs_wf h
  | beq | bne | blt | bge | bltu | bgeu => exact onBranch_wf h
  | jalr => exact onRegsClean_wf h
  | commit => exact execCommit_wf h
  | yield => exact execYield_wf h
  | aend => exact execAend_wf h
  | trap => exact execTrap_wf h
  | ldepth => exact execLdepth_wf h
  | csrr => exact execCsrr_wf h
  | csrw | csrs | csrc => exact csrWrite_wf h
  | lb | lh | lw | ld | lbz | lhz | lwz => exact loadRam_wf h
  | sb | sh | sw | sd => exact storeLocal_wf h
  | lgb | lgh | lgw | lgd | lgbz | lghz | lgwz => exact loadGlobal_wf h
  | sgb | sgh | sgw | sgd => exact storeGlobal_wf h
  | vl => exact execVl_wf h
  | vs => exact execVs_wf h
  | vlg => exact execVlg_wf h
  | vsg => exact execVsg_wf h
  | recv | peek => exact receive_wf h
  | recvv | peekv => exact receiveV_wf h
  | send | sendv | sendm | sendmv => exact transmit_wf h
  | sendn => exact execSendn_wf h
  | chcnt => exact execChcnt_wf h
  | chfree => exact execChfree_wf h
  | aadd | aand | aor | axor | amin | amax | aminu | amaxu | aswap | acas => exact atomic_wf h
  | fence => exact execFence_wf h
  | bar => exact execBar_wf h
  | subs | unsubs => exact subscription_wf h
  | vadd | vsub | vmul | vmulh | vmulhu | vand | vor | vxor | vandn | vsll | vsrl | vsra | vmin | vmax | vminu | vmaxu
    => exact vint2_wf h
  | vnot | vabs | vneg => exact vint1_wf h
  | vceq | vclt | vcltu | vcle | vcleu => exact vintP_wf h
  | vsel => exact execVsel_wf h
  | vfadd | vfsub | vfmul | vfdiv | vfsqrt | vfmin | vfmax | vfabs | vfneg | vfclass => exact laneV_wf h
  | vfma | vfms | vfnma => exact vfp3_wf h
  | vfceq | vfclt | vfcle => exact vfpP_wf h
  | vcvta => exact execVcvta_wf h
  | vcvtm => exact execVcvtm_wf h
  | vcvts => exact execVcvts_wf h
  | vmxe => exact execVmxe_wf h
  | vmxd => exact execVmxd_wf h
  | vsde => exact execVsde_wf h
  | vsdd => exact execVsdd_wf h
  | vradd | vrmin | vrmax | vrminu | vrmaxu | vrand | vror | vrxor => exact laneS_wf h
  | wadd => exact execWadd_wf h
  | wrd => exact execWrd_wf h
  | wclr => exact execWclr_wf h
  | wcpy => exact execWcpy_wf h
  | pand | por | pxor | pandn | pnot | pset | pclr => exact onPred_wf h
  | pmovs => exact execPmovs_wf h
  | pmovd | pfirst | pcnt => exact fromPred_wf h
  | vsgo => exact execVsgo_wf h
  | vswt => exact execVswt_wf h
  | vsdadd | vsdsub | vsdmul => exact online_wf h
  | vsdcut => exact execVsdcut_wf h
  | vsdcmp => exact execVsdcmp_wf h
  | vjoin | vjoinu => exact join_wf h
  | grit => exact execGrit_wf h
  | gritv => exact execGritv_wf h
  | gritc => exact execGritc_wf h
  | vsmpc | vsmpk | vsmpn => exact sample_wf h
  | vmov => exact execVmov_wf h
  | vbcast => exact execVbcast_wf h
  | vins => exact execVins_wf h
  | vext => exact execVext_wf h
  | vperm => exact execVperm_wf h
  | vrot => exact execVrot_wf h
  | vzip => exact execVzip_wf h
  | vunzip => exact execVunzip_wf h
  | sclaim => exact execSclaim_wf h
  | srel => exact execSrel_wf h
  | mctx => exact execMctx_wf h
  | mrow => exact execMrow_wf h
  | mrowc => exact execMrowc_wf h
  | mrep => exact execMrep_wf h
  | mzero => exact execMzero_wf h
  | mdrain => exact execMdrain_wf h
  | mwait => exact execMwait_wf h
  | tsld => exact execTsld_wf h
  | tsst => exact execTsst_wf h
  | tsmv => exact execTsmv_wf h
  | tsslot => exact execTsslot_wf h
  | slotts => exact execSlotts_wf h
  | hrts => exact execHrts_wf h
  | tshr => exact execTshr_wf h
  | sarm | sdis | sbind | sunbind => exact onTemplate_wf h
  | skick => exact execSkick_wf h
  | swait => exact execSwait_wf h
  | brd => exact execBrd_wf h
  | bwr => exact execBwr_wf h
  | bfill => exact execBfill_wf h
  | mbrel => exact execMbrel_wf h
  | cfgld => exact execCfgld_wf h
  | cfgdrn => exact execCfgdrn_wf h
  | cfgset => exact execCfgset_wf h
  | cfgrun => exact execCfgrun_wf h
  | launch => exact execLaunch_wf h
  | compat => exact execCompat_wf h
  | illegalInstruction => exact execIllegalInstruction_wf h
  | powerOnReset => exact execPowerOnReset_wf s
  | limitReset => exact execLimitReset_wf h
  | perst => exact execPerst_wf h
  | mreset | fwhalt | registerWrite | qtailWrite | queueEnable | queueDisable | qctlKill | qctlReset | klrefill | leaseAdd | ticketRetry
    | ticketFail | fluxStart | peerActivate | peerDisable | linkPortEnable | linkPortDisable | worldTableWrite
    => exact State.rowWrite_wf (State.regWrite_wf h _)
  | functionReset => exact execFunctionReset_wf h
  | linkReset => exact execLinkReset_wf h
  | linkdown => exact execLinkdown_wf h
  | coolingWarning => exact execCoolingWarning_wf h
  | coolingCap => exact execCoolingCap_wf h
  | coolingCapClear => exact execCoolingCapClear_wf h
  | coolingShutdown => exact execCoolingShutdown_wf h
  | coolingRecovery => exact execCoolingRecovery_wf h
  | loadfw => exact execLoadfw_wf h
  | worldreq => exact execWorldreq_wf h
  | enrol => exact execEnrol_wf h
  | svnraise => exact execSvnraise_wf h
  | mailboxBadcmd => exact execMailboxBadcmd_wf h
  | mailboxDone => exact execMailboxDone_wf h
  | firmwareStart => exact execFirmwareStart_wf h
  | bringupComplete => exact execBringupComplete_wf h
  | spdmMeasurement => exact execSpdmMeasurement_wf h
  | poisonedRegisterWrite => exact execPoisonedRegisterWrite_wf h
  | recordFetch => exact execRecordFetch_wf h
  | imageVerify => exact execImageVerify_wf h
  | dispatchDecision => exact execDispatchDecision_wf h
  | configLoadDone => exact execConfigLoadDone_wf h
  | weldWavefront => exact execWeldWavefront_wf h
  | quenchMarker => exact execQuenchMarker_wf h
  | quenchComplete => exact execQuenchComplete_wf h
  | graphEnd => exact execGraphEnd_wf h
  | deadlockDetect => exact execDeadlockDetect_wf h
  | jobRetire => exact execJobRetire_wf h
  | energyCharge => exact execEnergyCharge_wf h
  | thermalRead => exact execThermalRead_wf h
  | thermalStep => exact execThermalStep_wf h
  | powerWindow => exact execPowerWindow_wf h
  | barrierPass => exact execBarrierPass_wf h
  | moveStateCopy => exact execMoveStateCopy_wf h
  | moveRetarget => exact execMoveRetarget_wf h
  | moveAbandon => exact execMoveAbandon_wf h
  | relocationMarker => exact execRelocationMarker_wf h
  | ageingMeasure => exact execAgeingMeasure_wf h
  | firingBoundary => exact execFiringBoundary_wf h
  | tokenArrival => exact execTokenArrival_wf h
  | endMark => exact execEndMark_wf h
  | commitContinue => exact execCommitContinue_wf h
  | uncorrectableError => exact execUncorrectableError_wf h
  | tileScrub => exact execTileScrub_wf h
  | slotClaimGrant => exact execSlotClaimGrant_wf h
  | rowFiring => exact execRowFiring_wf h
  | repeatGroup => exact execRepeatGroup_wf h
  | laneElementFire => exact execLaneElementFire_wf h
  | streamRunDone => exact execStreamRunDone_wf h
  | siltCopyStart => exact execSiltCopyStart_wf h
  | boundKick => exact execBoundKick_wf h
  | kickRegisterWrite => exact execKickRegisterWrite_wf h
  | mailboxEvent => exact execMailboxEvent_wf h
  | mptrcRead => exact execMptrcRead_wf h
  | memportRead => exact execMemportRead_wf h
  | memportWrite => exact execMemportWrite_wf h
  | memportNull => exact execMemportNull_wf h
  | memportPerform => exact execMemportPerform_wf h
  | replyRelease => exact execReplyRelease_wf h
  | requesterEnd => exact execRequesterEnd_wf h
  | baseDieScrub => exact execBaseDieScrub_wf h
  | expanderFail => exact execExpanderFail_wf h
  | globalAccessPerform => exact execGlobalAccessPerform_wf h
  | fluxEmerge => exact execFluxEmerge_wf h
  | atsInvalidate => exact execAtsInvalidate_wf h
  | atsTranslationResponse => exact execAtsTranslationResponse_wf h
  | priResponse => exact execPriResponse_wf h
  | streamElementIssue => exact execStreamElementIssue_wf h
  | streamElementComplete => exact execStreamElementComplete_wf h
  | hostBar2Read => exact execHostBar2Read_wf h
  | hostBar2Write => exact execHostBar2Write_wf h
  | peerInboundRead => exact execPeerInboundRead_wf h
  | peerInboundWrite => exact execPeerInboundWrite_wf h
  | peerInboundAtomic => exact execPeerInboundAtomic_wf h
  | peerDomainFence => exact execPeerDomainFence_wf h
  | peerResponse => exact execPeerResponse_wf h
  | requestExpire => exact execRequestExpire_wf h
  | outboundRequestSend => exact execOutboundRequestSend_wf h
  | reduceContribution => exact execReduceContribution_wf h
  | reduceResult => exact execReduceResult_wf h
  | assayRun => exact execAssayRun_wf h
  | assayComplete => exact execAssayComplete_wf h
  | plotWorldChange => exact execPlotWorldChange_wf h
  | regionWorldChange => exact execRegionWorldChange_wf h
  | moduleLeavesReset => exact execModuleLeavesReset_wf h
  | linkTrained => exact execLinkTrained_wf h
  | hostCompletion => exact execHostCompletion_wf h

/-! Machine/Step.lean -/

theorem runFocus_wf (h : s.mem.wf = true) : MemWf (runFocus s) := by
  grind [runFocus, MemWf, State.fetch_wf, exec_wf]
theorem step_wf (h : s.mem.wf = true) : MemWf (step s) := by
  grind [MemWf, disabled, step, runFocus_wf, exec_wf]

/-- Settles O47: every instruction and every event writes memory through operations that keep its canonical form (log 1). -/
theorem memoryCanonicalKept : Obligations.MemoryCanonicalKept := fun _ t h hs => step_wf h t hs

end Sys2Proof.Machine
end

section
/-! A write of global memory byte by byte (R49, R50, R209): a write is a walk over the granules that it touches, each of
which either takes its bytes or, poisoned and not covered whole, keeps them. -/

namespace Sys2Proof.Machine

/-- The step of a masked write of a granule: a byte under the mask is stored, another is passed over. -/
def Memory.maskStep (g : Nat) (m : Memory) (e : Option (Byte × Bool) × Nat) : Memory :=
  match e.1 with
  | some b => m.setByte (8 * g + e.2) b.1
  | none => m

theorem Memory.foldl_maskStep_none (g : Nat) (l : List (Option (Byte × Bool))) (hl : ∀ x ∈ l, x = none) (m : Memory) (k : Nat) :
    (l.zipIdx k).foldl (Memory.maskStep g) m = m := by
  induction l generalizing k with
  | nil => rfl
  | cons x t ih =>
    rw [hl x (by simp)]
    exact ih (fun y hy => hl y (by simp [hy])) (k + 1)

theorem Memory.foldl_maskStep_some (g : Nat) (bs : Bytes) (m : Memory) (k : Nat) :
    ((bs.map some).zipIdx k).foldl (Memory.maskStep g) m = m.setBytes (8 * g + k) (bs.map (·.1)) := by
  induction bs generalizing m k with
  | nil => rfl
  | cons b t ih => exact ih _ (k + 1)

theorem Memory.foldl_granuleMask (m : Memory) (a : Nat) (bs : Bytes) :
    ((granuleMask a bs).zipIdx).foldl (Memory.maskStep (a / 8)) m = m.setBytes a (bs.map (·.1)) := by
  have hn := fun n (x : Option (Byte × Bool)) (h : x ∈ List.replicate n none) => List.eq_of_mem_replicate h
  rw [granuleMask, List.zipIdx_append, List.zipIdx_append, List.foldl_append, List.foldl_append,
    Memory.foldl_maskStep_none _ _ (hn _), Memory.foldl_maskStep_some, Memory.foldl_maskStep_none _ _ (hn _)]
  congr 1
  simp only [List.length_replicate]
  omega

theorem granuleMask_filterMap (a : Nat) (bs : Bytes) : (granuleMask a bs).filterMap id = bs := by
  simp [granuleMask, List.filterMap_append, List.filterMap_map]

/-- A write within one granule: none of no bytes, none of part of a poisoned granule, and else its bytes and its dross. -/
theorem Memory.writePiece_eq (m : Memory) (a : Nat) (bs : Bytes) :
    m.writePiece a bs = if bs = [] ∨ (bs.length < 8 ∧ m.isBad (a / 8) = true) then m
      else (m.setBytes a (bs.map (·.1))).setBad (a / 8) (anyDross bs) := by
  have hf : _ = m.setBytes a (bs.map (·.1)) := Memory.foldl_granuleMask m a bs
  simp only [Memory.writePiece, Memory.writeGranule, granuleMask_filterMap]
  by_cases he : bs = []
  · simp [he]
  · by_cases hp : bs.length < 8 ∧ m.isBad (a / 8) = true
    · simp [he, hp]
    · simp only [he, hp, if_false, false_or, Bool.and_eq_true, decide_eq_true_eq]
      exact congrArg (fun x => Memory.setBad x (a / 8) (anyDross bs)) hf

/-- A granule lies whole within the bytes from `a` for `n`. -/
def wholeIn (a n g : Nat) : Prop := a ≤ 8 * g ∧ 8 * g + 8 ≤ a + n

/-- What a clean write of `bs` from `a` on leaves of memory: its bytes but those of a poisoned granule that it covers in
part, and a clean mark on every granule that it covers whole. -/
def WrittenClean (m u : Memory) (a : Nat) (bs : List Byte) : Prop :=
  (∀ z, (¬ (a ≤ z ∧ z < a + bs.length) → u.byte z = m.byte z) ∧
    (a ≤ z → z < a + bs.length → wholeIn a bs.length (z / 8) ∨ m.isBad (z / 8) = false → u.byte z = bs.getD (z - a) 0) ∧
    (a ≤ z → z < a + bs.length → ¬ wholeIn a bs.length (z / 8) → m.isBad (z / 8) = true → u.byte z = m.byte z)) ∧
  ∀ g, (wholeIn a bs.length g → u.isBad g = false) ∧ (¬ wholeIn a bs.length g → u.isBad g = m.isBad g)

theorem anyDross_clean (bs : List Byte) : anyDross (bs.map (fun b => (b, false))) = false := by
  simp [anyDross]

theorem Memory.writePiece_clean (m : Memory) (a : Nat) (bs : List Byte) (hn : bs ≠ []) (h : a % 8 + bs.length ≤ 8) :
    WrittenClean m (m.writePiece a (bs.map (fun b => (b, false)))) a bs := by
  have hl : 0 < bs.length := List.length_pos_iff.2 hn
  have hg : ∀ z, a ≤ z → z < a + bs.length → z / 8 = a / 8 := by omega
  have hw : ∀ g, wholeIn a bs.length g ↔ g = a / 8 ∧ bs.length = 8 := by unfold wholeIn; omega
  rw [Memory.writePiece_eq, anyDross_clean]
  simp only [List.map_eq_nil_iff, List.length_map, List.map_map, Function.comp_def, List.map_id', hn, false_or]
  split
  next hb =>
    refine ⟨fun z => ⟨fun _ => rfl, fun h1 h2 h3 => ?_, fun _ _ _ _ => rfl⟩, fun g => ⟨fun h1 => ?_, fun _ => rfl⟩⟩
    · rw [hw, hg z h1 h2] at h3
      grind
    · rw [hw] at h1; omega
  next hb =>
    refine ⟨fun z => ⟨fun h1 => ?_, fun h1 h2 _ => ?_, fun h1 h2 h3 h4 => ?_⟩, fun g => ⟨fun h1 => ?_, fun h1 => ?_⟩⟩
    · rw [Memory.byte_setBad, Memory.byte_setBytes, if_neg h1]
    · rw [Memory.byte_setBad, Memory.byte_setBytes, if_pos ⟨h1, h2⟩]
    · rw [hw, hg z h1 h2] at h3
      rw [hg z h1 h2] at h4
      grind
    · rw [((hw g).1 h1).1, Memory.isBad_setBad_self]
    · by_cases hga : g = a / 8
      · rw [hga, Memory.isBad_setBad_self]; rw [hw] at h1; grind
      · rw [Memory.isBad_setBad_ne _ _ hga, Memory.isBad_setBytes]

/-- A clean write goes on behind its first piece, which ends the granule it begins in. -/
theorem WrittenClean.append {m v u : Memory} {a : Nat} {bs cs : List Byte} (h1 : WrittenClean m v a bs)
    (h2 : WrittenClean v u (a + bs.length) cs) (he : cs = [] ∨ (a + bs.length) % 8 = 0) : WrittenClean m u a (bs ++ cs) := by
  obtain ⟨b1, g1⟩ := h1
  obtain ⟨b2, g2⟩ := h2
  have he : cs.length = 0 ∨ (a + bs.length) % 8 = 0 := he.imp_left (by simp [·])
  rw [WrittenClean]
  simp only [List.length_append, ← Nat.add_assoc]
  refine ⟨fun z => ?_, fun g => ?_⟩
  · by_cases hz : z < a + bs.length
    · have hw : a ≤ z → (wholeIn a (bs.length + cs.length) (z / 8) ↔ wholeIn a bs.length (z / 8)) := by
        unfold wholeIn; omega
      obtain ⟨o1, i1, p1⟩ := b1 z
      have h2 := (b2 z).1 (by omega)
      refine ⟨fun h => ?_, fun ha _ h => ?_, fun ha _ h hb => ?_⟩
      · rw [h2, o1 (by omega)]
      · rw [h2, i1 ha hz (by rwa [hw ha] at h), List.getD_append _ _ _ _ (by omega)]
      · rw [h2, p1 ha hz (by rwa [hw ha] at h) hb]
    · obtain ⟨o2, i2, p2⟩ := b2 z
      have h1 := (b1 z).1 (by omega)
      have hw : z < a + bs.length + cs.length → (wholeIn a (bs.length + cs.length) (z / 8) ↔ wholeIn (a + bs.length) cs.length (z / 8)) := by
        unfold wholeIn; omega
      have hb : z < a + bs.length + cs.length → v.isBad (z / 8) = m.isBad (z / 8) := fun _ =>
        (g1 (z / 8)).2 (by unfold wholeIn; omega)
      refine ⟨fun h => ?_, fun ha hl h => ?_, fun ha hl h hm => ?_⟩
      · rw [o2 (by omega), h1]
      · rw [i2 (by omega) hl (by rwa [hw hl, ← hb hl] at h), List.getD_append_right _ _ _ _ (by omega), Nat.sub_add_eq]
      · rw [p2 (by omega) hl (by rwa [hw hl] at h) (by rwa [hb hl]), h1]
  · by_cases hs : wholeIn (a + bs.length) cs.length g
    · have hw : wholeIn a (bs.length + cs.length) g := by unfold wholeIn at *; omega
      exact ⟨fun _ => (g2 g).1 hs, fun h => absurd hw h⟩
    · have hw : wholeIn a (bs.length + cs.length) g ↔ wholeIn a bs.length g := by unfold wholeIn at *; omega
      rw [hw, (g2 g).2 hs]
      exact g1 g

theorem WrittenClean.refl (m : Memory) (a : Nat) : WrittenClean m m a [] := by
  have hw : ∀ g, ¬ wholeIn a 0 g := by unfold wholeIn; omega
  exact ⟨fun z => ⟨fun _ => rfl, fun _ _ => by simp at *; omega, fun _ _ _ _ => rfl⟩, fun g => ⟨fun h => absurd h (hw g), fun _ => rfl⟩⟩

/-- A walk over the pieces of a clean write that has come to its byte `i`. -/
theorem Memory.foldl_pieces_clean (a : Nat) (bs : List Byte) (k i : Nat) (hi : i ≤ bs.length) (hk : bs.length - i ≤ k) (m : Memory) :
    WrittenClean m ((pieces k (a + i) (bs.length - i)).foldl (fun m p => m.writePiece p.1
      (((bs.map (fun b => (b, false))).drop (p.1 - a)).take p.2)) m) (a + i) (bs.drop i) := by
  induction k generalizing i m with
  | zero =>
    rw [List.drop_eq_nil_of_le (by omega)]
    exact .refl m _
  | succ k ih =>
    rw [pieces]
    by_cases hn : bs.length - i = 0
    · rw [if_pos hn, List.drop_eq_nil_of_le (by omega)]
      exact .refl m _
    · rw [if_neg hn, List.foldl_cons]
      generalize hl : min (bs.length - i) (8 - (a + i) % 8) = l
      have hpl : ((bs.drop i).take l).length = l := by simp; omega
      have hp : ((bs.map (fun b => (b, false))).drop (a + i - a)).take l = ((bs.drop i).take l).map (fun b => (b, false)) := by
        rw [Nat.add_sub_cancel_left, List.map_take, List.map_drop]
      have h1 := Memory.writePiece_clean m (a + i) ((bs.drop i).take l) (by rw [← List.length_pos_iff]; omega) (by omega)
      have h2 := ih (i + l) (by omega) (by omega) (m.writePiece (a + i) (((bs.drop i).take l).map (fun b => (b, false))))
      rw [Nat.sub_add_eq, ← Nat.add_assoc] at h2
      have h3 := h1.append (cs := bs.drop (i + l)) (by rwa [hpl]) (by rw [hpl, List.drop_eq_nil_iff]; omega)
      rw [← List.drop_drop, List.take_append_drop] at h3
      simp only [hp]
      exact h3

/-- A clean write of global memory (R49, R209). -/
theorem Memory.write_clean (m : Memory) (a : Nat) (bs : List Byte) :
    WrittenClean m (m.write a (bs.map (fun b => (b, false)))) a bs := by
  have h := Memory.foldl_pieces_clean a bs bs.length 0 (by omega) (by omega) m
  rw [Memory.write, List.length_map]
  exact h

/-- A write of a whole granule is one piece. -/
theorem Memory.write_granule (m : Memory) (g : Nat) (bs : Bytes) (h : bs.length = 8) :
    m.write (8 * g) bs = (m.setBytes (8 * g) (bs.map (·.1))).setBad g (anyDross bs) := by
  have hp : pieces 8 (8 * g) 8 = [(8 * g, 8)] := by simp [pieces]
  have hb : bs ≠ [] := by rintro rfl; cases h
  have hg : 8 * g / 8 = g := by omega
  rw [Memory.write, h, hp, List.foldl_cons, List.foldl_nil, Nat.sub_self, List.drop_zero, List.take_of_length_le h.le,
    Memory.writePiece_eq, hg, if_neg (by simp [hb, h])]

/-- Settles O48: piece by piece for a clean write, and by its one piece for a granule with dross. -/
theorem memoryAccess : Obligations.MemoryAccess := by
  refine ⟨fun m a bs z => ?_, fun m g bs z h ⟨b, hb, hd⟩ => ?_⟩
  · obtain ⟨hby, hbad⟩ := Memory.write_clean m a bs
    obtain ⟨o, i, p⟩ := hby z
    obtain ⟨bw, bk⟩ := hbad (z / 8)
    have hw : wholeIn a bs.length (z / 8) ↔ a ≤ z / 8 * 8 ∧ z / 8 * 8 + 8 ≤ a + bs.length := by unfold wholeIn; omega
    intro u whole
    refine ⟨fun hz hn => ?_, fun h1 h2 h => ?_, fun h1 h2 hn hb => ?_⟩
    · simp only [Memory.read, u, bk (hw.not.2 hn), o hz]
    · have hu : u.isBad (z / 8) = false := by grind
      simp only [Memory.read, hu]
      rw [← i h1 h2 (h.imp_left hw.2)]
      rfl
    · have hu : u.isBad (z / 8) = true := (bk (hw.not.2 hn)).trans hb
      exact ⟨by simp [Memory.read, hu], p h1 h2 (hw.not.2 hn) hb⟩
  · have ha : anyDross bs = true := List.any_eq_true.2 ⟨b, hb, hd⟩
    rw [Memory.write_granule m g bs h, ha]
    refine ⟨fun hz => ?_, fun hz => ?_⟩
    · rw [Memory.read, hz, Memory.isBad_setBad_self, if_pos rfl]
    · have hr : ¬ (8 * g ≤ z ∧ z < 8 * g + (bs.map (·.1)).length) := by rw [List.length_map, h]; omega
      rw [Memory.read, Memory.read, Memory.isBad_setBad_ne _ _ hz, Memory.isBad_setBytes, Memory.byte_setBad, Memory.byte_setBytes,
        if_neg hr]

end Sys2Proof.Machine
end

section
/-! What a walk and a record leave as it was: the graphs and the ports. -/

namespace Sys2Proof.Machine

/-- The graphs and the ports of the part. -/
def State.sites (s : State) : Tab Graph × Tab Port := (s.graphs, s.ports)

theorem State.graphs_of_sites {s u : State} (h : u.sites = s.sites) : u.graphs = s.graphs := congrArg Prod.fst h
theorem State.ports_of_sites {s u : State} (h : u.sites = s.sites) : u.ports = s.ports := congrArg Prod.snd h

theorem State.setFaultQ_sites (s : State) (sec q) : (s.setFaultQ sec q).sites = s.sites := by cases sec <;> rfl

theorem State.loseRecord_sites (s : State) (sec) : (s.loseRecord sec).sites = s.sites := State.setFaultQ_sites ..

theorem State.recordIn_sites (s : State) (sec r) : (s.recordIn sec r).sites = s.sites := by
  unfold State.recordIn
  extract_lets q u
  split
  · exact State.setFaultQ_sites s sec _
  · exact State.setFaultQ_sites s sec _

theorem State.ownSend_sites (s : State) (job q addr kind at?) : (s.ownSend job q addr kind at?).sites = s.sites := by
  unfold State.ownSend
  split <;> rfl

theorem State.ownWrite_sites {s u : State} {job pa bs at?} (e : s.ownWrite job pa bs at? = some u) : u.sites = s.sites := by
  unfold State.ownWrite at e
  split at e
  · split at e
    · cases e
    · cases e; rfl
  · cases e; rfl
  · cases e; exact State.ownSend_sites ..
  · cases e
  · cases e

theorem State.pushRecord_sites (s : State) (sec r) : (s.pushRecord sec r).sites = s.sites := by
  unfold State.pushRecord
  extract_lets q pa bs
  split
  · exact State.setFaultQ_sites ..
  split
  · exact State.loseRecord_sites ..
  split
  · split
    · exact State.loseRecord_sites ..
    · exact State.setFaultQ_sites ..
  split
  · exact State.loseRecord_sites ..
  next e => exact (State.recordIn_sites ..).trans (State.ownWrite_sites e)

theorem State.pick_sites {α : Type} (s : State) (d : α) (l) : (s.pick d l).2.sites = s.sites := by
  unfold State.pick
  split <;> rfl

theorem State.walkFrom_sites (s : State) (va n t) : (s.walkFrom va n t).2.sites = s.sites := by
  induction n generalizing s t with
  | zero => grind [State.walkFrom, State.pick_sites]
  | succ n ih => grind [State.walkFrom, State.pick_sites]

theorem State.walk_sites (s : State) (pasid va) : (s.walk pasid va).2.sites = s.sites := by
  grind [State.walk, State.walkFrom_sites]

theorem State.outcomes_sites (s : State) (node pasid va write) : (s.outcomes node pasid va write).2.sites = s.sites := by
  grind [State.outcomes, State.walk_sites]

theorem State.cache_sites (s : State) (e) : (s.cache e).sites = s.sites := by
  unfold State.cache
  split
  · rfl
  · split <;> rfl

theorem State.askHost_sites (s : State) (link pasid va write who) : (s.askHost link pasid va write who).2.sites = s.sites := by
  unfold State.askHost
  split
  · rfl
  · split
    · split <;> rfl
    · rfl

theorem State.translate_sites (s : State) (pasid va write who) : (s.translate pasid va write who).2.sites = s.sites := by
  grind [State.translate, State.translateAt, State.outcomes_sites, State.pick_sites, State.cache_sites, State.askHost_sites]

theorem State.joinTicket_sites {s u : State} {j pasid va code write who n} (e : s.joinTicket j pasid va code write who = some (n, u)) :
    u.sites = s.sites := by
  unfold State.joinTicket at e
  split at e
  · cases e; rfl
  · split at e
    · cases e
    · cases e; exact State.pushRecord_sites ..

end Sys2Proof.Machine
end

section
/-! Tables found in, modified and set. -/

namespace Sys2Proof

theorem Tab.find_insert_self {α : Type} (i : Nat) (v : α) : ∀ t : Tab α, (∀ e ∈ t, e.1 ≠ i) → Tab.find (Tab.insert i v t) i = some v
  | [], _ => by simp [Tab.insert, Tab.find]
  | (k, w) :: t, h => by
    have hk : k ≠ i := h (k, w) (by simp)
    have ht := Tab.find_insert_self i v t (fun e he => h e (by simp [he]))
    unfold Tab.insert
    split
    · simp [Tab.find]
    · simpa [Tab.find, hk] using ht

@[simp] theorem Tab.find_set_self {α : Type} (t : Tab α) (i : Nat) (v : α) : Tab.find (Tab.set t i v) i = some v :=
  Tab.find_insert_self i v _ (Tab.erase_ne t i)

theorem Tab.find_modify_self {α : Type} (t : Tab α) (i : Nat) (f : α → α) : Tab.find (Tab.modify t i f) i = (Tab.find t i).map f := by
  induction t with
  | nil => rfl
  | cons e t ih =>
    obtain ⟨k, v⟩ := e
    by_cases h : k = i
    · simp [Tab.modify, Tab.find, h]
    · simpa [Tab.modify, Tab.find, h] using ih

theorem Tab.get_of_find {α : Type} {d : α} {t : Tab α} {i : Nat} {v : α} (h : Tab.find t i = some v) : Tab.get d t i = v := by
  rw [← Tab.find_eq_get, h, Option.getD_some]

end Sys2Proof
end

section
/-! A port takes a request (R41, R42, R44, R45). -/

namespace Sys2Proof.Machine

/-- Entry `x` is for the request of entry `y`, whatever its walk has come to. -/
def TagEntry.SameRequest (x y : TagEntry) : Prop := x = { y with bad := x.bad, tgt := x.tgt, ticket := x.ticket }

theorem TagEntry.SameRequest.refl (x : TagEntry) : x.SameRequest x := rfl

/-- Changes the entries that have a tag. -/
def Requester.onTag (q : Requester) (tag : Nat) (k : TagEntry → TagEntry) : Requester :=
  { q with tags := q.tags.map (fun t => if t.tag = tag then k t else t) }

theorem Requester.onTag_id (q : Requester) (tag : Nat) : q.onTag tag id = q := by simp [Requester.onTag]

theorem Requester.onTag_append {q : Requester} {e : TagEntry} (h : ∀ x ∈ q.tags, x.tag ≠ e.tag) (k : TagEntry → TagEntry) :
    (({ q with tags := q.tags ++ [e] } : Requester).onTag e.tag k).tags = q.tags ++ [k e] := by
  have hm : q.tags.map (fun t => if t.tag = e.tag then k t else t) = q.tags :=
    (List.map_congr_left fun x hx => if_neg (h x hx)).trans (List.map_id _)
  simp [Requester.onTag, hm]

/-- The requester at a number of a port, if it is bound. -/
def State.req? (s : State) (p r : Nat) : Option Requester := Tab.find (s.port p).reqs r

theorem State.req?_of_sites {s u : State} (h : u.sites = s.sites) (p r : Nat) : u.req? p r = s.req? p r := by
  rw [State.req?, State.req?, State.port, State.port, State.ports_of_sites h]

@[simp] theorem State.req?_setReq (s : State) (p r : Nat) (q : Requester) : (s.setReq p r q).req? p r = some q := by
  simp [State.req?, State.setReq]

theorem State.req?_modTag (s : State) (p r tag : Nat) (k : TagEntry → TagEntry) :
    (s.modTag p r tag k).req? p r = (s.req? p r).map (·.onTag tag k) := by
  simp only [State.req?, State.modTag, State.port_setPort_self, Tab.find_modify_self]
  rfl

@[simp] theorem State.modTag_graphs (s : State) (p r tag k) : (s.modTag p r tag k).graphs = s.graphs := rfl

/-- A walk of a request changes of the graphs and of its requester no more than where its entries stand. -/
def Walked (s u : State) (p r tag : Nat) : Prop :=
  u.graphs = s.graphs ∧ ∃ k : TagEntry → TagEntry, (∀ x, (k x).SameRequest x) ∧ u.req? p r = (s.req? p r).map (·.onTag tag k)

theorem Walked.of_sites {s u : State} (h : u.sites = s.sites) (p r tag : Nat) : Walked s u p r tag :=
  ⟨State.graphs_of_sites h, id, TagEntry.SameRequest.refl, by simp [State.req?_of_sites h, Requester.onTag_id]⟩

theorem Walked.modTag {s u : State} (h : u.sites = s.sites) {k : TagEntry → TagEntry} (hk : ∀ x, (k x).SameRequest x) (p r tag : Nat) :
    Walked s (u.modTag p r tag k) p r tag :=
  ⟨(State.modTag_graphs ..).trans (State.graphs_of_sites h), k, hk, by rw [State.req?_modTag, State.req?_of_sites h]⟩

theorem State.walkTag_walked (s : State) (p r job : Nat) (t : TagEntry) : Walked s (s.walkTag p r job t) p r t.tag := by
  have ht := State.translate_sites s (s.pasidOf job) t.addr t.write (.req p r t.tag)
  unfold State.walkTag
  split
  · exact .modTag rfl (fun _ => by rfl) ..
  split
  next e => rw [e] at ht; exact .modTag ht (fun _ => by rfl) ..
  next e => rw [e] at ht; exact .modTag ht (fun _ => by rfl) ..
  next e => rw [e] at ht; exact .of_sites ht ..
  next e =>
    rw [e] at ht
    split
    next ej => exact .modTag ((State.joinTicket_sites ej).trans ht) (fun _ => by rfl) ..
    · exact .of_sites ht ..

/-- A request taken: its entry, with the status that its header settles, stands last under the next tag, and the tokens have left the
request channel. -/
theorem State.takeReq_spec (s : State) (p r : Nat) (q : Requester) (c n : Nat) (e : TagEntry) (h : ∀ x ∈ q.tags, x.tag ≠ q.nextTag) :
    ∃ q' e', (s.takeReq p r q c n e).graphs = (s.setGraph q.job ((s.graph q.job).consume c n)).graphs ∧
      (s.takeReq p r q c n e).req? p r = some q' ∧ q'.nextTag = (q.nextTag + 1) % 8 ∧ q'.tags = q.tags ++ [e'] ∧
      e'.SameRequest { e with tag := q.nextTag, seq := q.seq } ∧ (e.bad ≠ none → e'.bad = e.bad) := by
  simp only [State.takeReq]
  split
  · exact ⟨_, _, rfl, State.req?_setReq .., rfl, rfl, .refl _, fun _ => rfl⟩
  next hb =>
    obtain ⟨hg, k, hk, hq⟩ := State.walkTag_walked ((s.setGraph q.job ((s.graph q.job).consume c n)).setReq p r
      { q with nextTag := (q.nextTag + 1) % 8, seq := q.seq + 1, tags := q.tags ++ [{ e with tag := q.nextTag, seq := q.seq }] })
      p r q.job { e with tag := q.nextTag, seq := q.seq }
    refine ⟨_, k { e with tag := q.nextTag, seq := q.seq }, hg, hq.trans (by rw [State.req?_setReq]; rfl), rfl, ?_, hk _, fun h => ?_⟩
    · exact Requester.onTag_append (q := { q with nextTag := (q.nextTag + 1) % 8, seq := q.seq + 1 }) h k
    · simp_all

theorem State.taker_of_requests {s : State} {p r : Nat} {q : Requester} {b : List Token} (h : Claims.Requests s p r q b) :
    s.taker p r = some (q, s.graph q.job, ((s.graph q.job).stream q.stream).chan) := by
  obtain ⟨hq, he, hg, hp, hn, hs, -⟩ := h
  simp [State.taker, hq, he, hg, hp, hn, hs]

theorem Graph.wake_chans (g : Graph) (x : EndPt) : (g.wake x).chans = g.chans := by cases x <;> rfl
theorem Graph.wake_streams (g : Graph) (x : EndPt) : (g.wake x).streams = g.streams := by cases x <;> rfl

theorem Graph.chan_setChan_self (g : Graph) (c : Nat) (x : Chan) : (g.setChan c x).chan c = x := Tab.get_set_self ..

theorem Graph.consume_buf (g : Graph) (c n : Nat) : ((g.consume c n).chan c).buf = (g.chan c).buf.drop n := by
  simp only [Graph.consume]
  split
  · rw [Graph.chan_setChan_self]
  · rw [Graph.chan, Graph.wake_chans, ← Graph.chan, Graph.chan_setChan_self]

theorem Graph.consume_stream (g : Graph) (c n k : Nat) : (g.consume c n).stream k = g.stream k := by
  simp only [Graph.consume, Graph.stream]
  split
  · rfl
  · rw [Graph.wake_streams]; rfl

/-- What a request channel holds once tokens have left it. -/
theorem requestBuf_consume {s u : State} {q : Requester} {n : Nat}
    (h : u.graphs = (s.setGraph q.job ((s.graph q.job).consume ((s.graph q.job).stream q.stream).chan n)).graphs) :
    Claims.requestBuf u q = (Claims.requestBuf s q).drop n := by
  have hg : u.graph q.job = (s.graph q.job).consume ((s.graph q.job).stream q.stream).chan n := by
    rw [State.graph, h]
    exact State.graph_setGraph_self ..
  rw [Claims.requestBuf, hg, Graph.consume_stream, Graph.consume_buf]
  rfl

theorem Requester.tagFree_of {q : Requester} (h : ∀ x ∈ q.tags, x.tag ≠ q.nextTag) : q.tagFree = true := by
  simpa [Requester.tagFree] using h

/-- A header that is no WRITE is taken alone. -/
theorem execMemportRead_next {s : State} {p r : Nat} {q : Requester} {t : Token} {rest : List Token}
    (h : Claims.Requests s p r q (t :: rest)) (hn : t.null = false) (hf : ∀ x ∈ q.tags, x.tag ≠ q.nextTag) (ho : hdrOp t ≠ 1) :
    exec (.memportRead p r) s = .next (s.takeReq p r q ((s.graph q.job).stream q.stream).chan 1
      { tag := 0, seq := 0, write := false, noOp := decide (2 ≤ hdrOp t), bad := hdrStatus t, addr := hdrAddr t, cls := hdrClass t,
        data := t }) := by
  have hb := h.2.2.2.2.2.2
  show execMemportRead p r s = _
  simp [execMemportRead, State.taker_of_requests h, hb, hn, ho, Requester.tagFree_of hf]

/-- A WRITE header is taken with its data. -/
theorem execMemportWrite_next {s : State} {p r : Nat} {q : Requester} {t d : Token} {more : List Token}
    (h : Claims.Requests s p r q (t :: d :: more)) (hn : t.null = false) (hf : ∀ x ∈ q.tags, x.tag ≠ q.nextTag) (ho : hdrOp t = 1) :
    exec (.memportWrite p r) s = .next (s.takeReq p r q ((s.graph q.job).stream q.stream).chan 2
      { tag := 0, seq := 0, write := true, bad := if d.null then (hdrStatus t).or (some 4) else hdrStatus t, addr := hdrAddr t,
        cls := hdrClass t, mask := BitVec.ofNat 64 (dwf t.data 2 63 0), data := d }) := by
  have hb := h.2.2.2.2.2.2
  show execMemportWrite p r s = _
  simp [execMemportWrite, State.taker_of_requests h, hb, hn, ho, Requester.tagFree_of hf]

/-- What a request that was taken leaves, in the words of the claims. -/
theorem State.takeReq_claim {s : State} {p r : Nat} {q : Requester} {n : Nat} (e : TagEntry) (h : ∀ x ∈ q.tags, x.tag ≠ q.nextTag) :
    ∃ q' e', Claims.requestBuf (s.takeReq p r q ((s.graph q.job).stream q.stream).chan n e) q = (Claims.requestBuf s q).drop n ∧
      Tab.find ((s.takeReq p r q ((s.graph q.job).stream q.stream).chan n e).port p).reqs r = some q' ∧
      q'.nextTag = (q.nextTag + 1) % 8 ∧ q'.tags = q.tags ++ [e'] ∧ e'.SameRequest { e with tag := q.nextTag, seq := q.seq } ∧
      (e.bad ≠ none → e'.bad = e.bad) := by
  obtain ⟨q', e', hg, hr⟩ := s.takeReq_spec p r q ((s.graph q.job).stream q.stream).chan n e h
  exact ⟨q', e', requestBuf_consume hg, hr⟩

theorem requestBuf_of_requests {s : State} {p r : Nat} {q : Requester} {b : List Token} (h : Claims.Requests s p r q b) :
    Claims.requestBuf s q = b := h.2.2.2.2.2.2

/-- Sets channels to end. -/
def Graph.endChans (g : Graph) (cs : List Nat) : Graph := cs.foldl (fun g c => g.setChan c { g.chan c with ending := true }) g

theorem Graph.endChans_stream (cs : List Nat) (g : Graph) (n : Nat) : (g.endChans cs).stream n = g.stream n := by
  induction cs generalizing g with
  | nil => rfl
  | cons c t ih => exact ih _

theorem Graph.endChans_keeps (cs : List Nat) (g : Graph) (c : Nat) (h : (g.chan c).ending = true) :
    ((g.endChans cs).chan c).ending = true := by
  induction cs generalizing g with
  | nil => exact h
  | cons k t ih =>
    refine ih _ ?_
    by_cases hk : c = k
    · rw [hk, Graph.chan_setChan_self]
    · exact (congrArg Chan.ending (Tab.get_set_ne _ _ _ hk)).trans h

theorem Graph.endChans_ending (cs : List Nat) (g : Graph) (c : Nat) (h : c ∈ cs) : ((g.endChans cs).chan c).ending = true := by
  induction cs generalizing g with
  | nil => cases h
  | cons k t ih =>
    rcases List.mem_cons.1 h with rfl | ht
    · exact Graph.endChans_keeps t _ c (by rw [Graph.chan_setChan_self])
    · exact ih _ ht

/-- A binding with nothing left ends its stream and the channels of its replies. -/
theorem execRequesterEnd_next {s : State} {p r : Nat} {q : Requester} (h : Claims.Requests s p r q []) (ht : q.tags = [])
    (he : ((s.graph q.job).chan ((s.graph q.job).stream q.stream).chan).ended = true) :
    exec (.requesterEnd p r) s = .next ((s.setReq p r { q with ended := true }).setGraph q.job
      (((s.graph q.job).setStream q.stream { (s.graph q.job).stream q.stream with ended := true }).endChans
        ((s.graph q.job).outsOf q.stream))) := by
  have hb := requestBuf_of_requests h
  rw [Claims.requestBuf] at hb
  show execRequesterEnd p r s = _
  simp only [execRequesterEnd, State.taker_of_requests h, he, hb, ht]
  rfl

theorem takes : Claims.Takes := by
  refine ⟨fun s p r q t rest h hn hf => ⟨fun ho => ?_, fun d more ho hr => ?_⟩, fun s p r q t rest h hn => ?_, fun s p r q h ht he => ?_⟩
  · obtain ⟨q', e', hb, hq, hnext, htags, hsame, hbad⟩ := State.takeReq_claim (s := s) (p := p) (r := r) (n := 1)
      { tag := 0, seq := 0, write := false, noOp := decide (2 ≤ hdrOp t), bad := hdrStatus t, addr := hdrAddr t, cls := hdrClass t,
        data := t } hf
    rw [requestBuf_of_requests h] at hb
    refine ⟨_, q', e', execMemportRead_next h hn hf ho, hb, hq, hnext, htags, ?_⟩
    rw [hsame]
    exact ⟨rfl, rfl, rfl, rfl, rfl, hbad, rfl⟩
  · subst hr
    obtain ⟨q', e', hb, hq, hnext, htags, hsame, hbad⟩ := State.takeReq_claim (s := s) (p := p) (r := r) (n := 2)
      { tag := 0, seq := 0, write := true, bad := if d.null then (hdrStatus t).or (some 4) else hdrStatus t, addr := hdrAddr t,
        cls := hdrClass t, mask := BitVec.ofNat 64 (dwf t.data 2 63 0), data := d } hf
    rw [requestBuf_of_requests h] at hb
    refine ⟨_, q', e', execMemportWrite_next h hn hf ho, hb, hq, hnext, htags, ?_⟩
    rw [hsame]
    exact ⟨rfl, rfl, rfl, rfl, rfl, rfl, hbad, rfl⟩
  · have hb := requestBuf_of_requests h
    refine ⟨_, show execMemportNull p r s = .next (s.setGraph q.job ((s.graph q.job).consume ((s.graph q.job).stream q.stream).chan 1)) from ?_,
      (requestBuf_consume rfl).trans (by rw [hb]; rfl), rfl, rfl⟩
    rw [Claims.requestBuf] at hb
    simp [execMemportNull, State.taker_of_requests h, hb, hn]
  · refine ⟨_, execRequesterEnd_next h ht he, State.req?_setReq s p r { q with ended := true }, ?_, fun c hc => ?_⟩
    · rw [State.graph_setGraph_self, Graph.endChans_stream]
      exact congrArg Stream.ended (Tab.get_set_self ..)
    · rw [State.graph_setGraph_self]
      exact Graph.endChans_ending _ _ c hc

end Sys2Proof.Machine
end

section
/-! Masked writes of granules (R49), and a port's performance of a request (R42, R46, R50). -/

namespace Sys2Proof.Machine

/-- The bytes that a masked write of a granule stores. -/
theorem Memory.byte_foldl_maskStep (g : Nat) (bs : List (Option (Byte × Bool))) (m : Memory) (k z : Nat) :
    ((bs.zipIdx k).foldl (Memory.maskStep g) m).byte z =
      if 8 * g + k ≤ z then ((bs.getD (z - (8 * g + k)) none).map (·.1)).getD (m.byte z) else m.byte z := by
  induction bs generalizing m k with
  | nil => simp
  | cons b t ih =>
    rw [List.zipIdx_cons, List.foldl_cons, ih]
    by_cases h : 8 * g + (k + 1) ≤ z
    · have hz : z - (8 * g + k) = z - (8 * g + (k + 1)) + 1 := by omega
      have hb : (Memory.maskStep g m (b, k)).byte z = m.byte z := by
        cases b with
        | none => rfl
        | some b => exact Memory.byte_setByte_ne _ _ (by omega)
      rw [if_pos h, if_pos (by omega), hz, List.getD_cons_succ, hb]
    · rw [if_neg h]
      by_cases hk : z = 8 * g + k
      · rw [if_pos (by omega), hk, Nat.sub_self, List.getD_cons_zero]
        cases b with
        | none => rfl
        | some b => exact Memory.byte_setByte_self ..
      · rw [if_neg (by omega)]
        cases b with
        | none => rfl
        | some b => exact Memory.byte_setByte_ne _ _ hk

theorem Memory.isBad_foldl_maskStep (g : Nat) (l : List (Option (Byte × Bool) × Nat)) (m : Memory) (h : Nat) :
    (l.foldl (Memory.maskStep g) m).isBad h = m.isBad h := by
  induction l generalizing m with
  | nil => rfl
  | cons e t ih =>
    rw [List.foldl_cons, ih]
    obtain ⟨b, k⟩ := e
    cases b <;> rfl

/-- A masked write: none of an empty mask, refused for part of a poisoned granule, and else its bytes and its dross. -/
theorem Memory.writeGranule_eq (m : Memory) (g : Nat) (bs : List (Option (Byte × Bool))) :
    m.writeGranule g bs = if bs.filterMap id = [] then (m, false)
      else if (bs.filterMap id).length < 8 && m.isBad g then (m, true)
      else ((bs.zipIdx.foldl (Memory.maskStep g) m).setBad g (anyDross (bs.filterMap id)), false) := rfl

/-- A masked write of one granule reads as before in every other granule. -/
theorem Memory.read_writeGranule_ne (m : Memory) {g z : Nat} (bs : List (Option (Byte × Bool))) (hl : bs.length = 8) (hz : z / 8 ≠ g) :
    (m.writeGranule g bs).1.read z = m.read z := by
  rw [Memory.writeGranule_eq]
  split
  · rfl
  split
  · rfl
  have hb : (8 * g ≤ z → bs.getD (z - 8 * g) none = none) := fun h => by
    rw [List.getD_eq_default]; omega
  simp only [Memory.read, Memory.isBad_setBad_ne _ _ hz, Memory.isBad_foldl_maskStep, Memory.byte_setBad, Memory.byte_foldl_maskStep]
  by_cases h : 8 * g ≤ z
  · rw [if_pos (show 8 * g + 0 ≤ z from h), Nat.add_zero, hb h]; rfl
  · rw [if_neg (show ¬ 8 * g + 0 ≤ z from h)]

theorem Memory.isBad_writeGranule_ne (m : Memory) {g h : Nat} (bs : List (Option (Byte × Bool))) (hh : h ≠ g) :
    (m.writeGranule g bs).1.isBad h = m.isBad h := by
  rw [Memory.writeGranule_eq]
  split
  · rfl
  split
  · rfl
  exact (Memory.isBad_setBad_ne _ _ hh).trans (Memory.isBad_foldl_maskStep ..)

/-- A clean masked write of a good granule stores the bytes of its mask and no other, and meets no poison. -/
theorem Memory.read_writeGranule (m : Memory) {g i : Nat} (bs : List (Option (Byte × Bool))) (hd : anyDross (bs.filterMap id) = false)
    (hg : m.isBad g = false) (hi : i < 8) :
    (m.writeGranule g bs).1.read (8 * g + i) = ((bs.getD i none).map (fun b => (b.1, false))).getD (m.read (8 * g + i)) ∧
      (m.writeGranule g bs).2 = false := by
  have hz : (8 * g + i) / 8 = g := by omega
  rw [Memory.writeGranule_eq, hg, hd, Bool.and_false]
  split
  next he =>
    refine ⟨?_, rfl⟩
    have hn : bs.getD i none = none := by
      rw [List.filterMap_eq_nil_iff] at he
      by_cases hl : i < bs.length
      · rw [List.getD_eq_getElem _ _ hl]; exact he _ (List.getElem_mem hl)
      · exact List.getD_eq_default _ _ (by omega)
    rw [hn]; rfl
  · refine ⟨?_, rfl⟩
    simp only [Memory.read, hz, Memory.byte_setBad, Memory.byte_foldl_maskStep, Nat.add_zero, Nat.le_add_right, Nat.add_sub_cancel_left,
      hg, Bool.false_eq_true, if_false, if_true, Memory.isBad_setBad_self]
    cases bs.getD i none <;> rfl

/-- The masked writes of `n` granules from granule `b` on. -/
def Memory.writeGranules (m : Memory) (b : Nat) (mask : Nat → List (Option (Byte × Bool))) (n : Nat) : Memory :=
  (List.range n).foldl (fun m g => (m.writeGranule (b + g) (mask g)).1) m

theorem Memory.writeGranules_succ (m : Memory) (b : Nat) (mask : Nat → List (Option (Byte × Bool))) (n : Nat) :
    m.writeGranules b mask (n + 1) = ((m.writeGranules b mask n).writeGranule (b + n) (mask n)).1 := by
  simp [Memory.writeGranules, List.range_succ]

theorem Memory.read_writeGranules_ne (m : Memory) (b : Nat) (mask : Nat → List (Option (Byte × Bool))) (hl : ∀ g, (mask g).length = 8)
    (n z : Nat) (hz : z / 8 < b ∨ b + n ≤ z / 8) : (m.writeGranules b mask n).read z = m.read z := by
  induction n with
  | zero => rfl
  | succ n ih => rw [Memory.writeGranules_succ, Memory.read_writeGranule_ne _ _ (hl n) (by omega), ih (by omega)]

theorem Memory.isBad_writeGranules_ne (m : Memory) (b : Nat) (mask : Nat → List (Option (Byte × Bool))) (n h : Nat)
    (hh : b + n ≤ h) : (m.writeGranules b mask n).isBad h = m.isBad h := by
  induction n with
  | zero => rfl
  | succ n ih => rw [Memory.writeGranules_succ, Memory.isBad_writeGranule_ne _ _ (by omega), ih (by omega)]

theorem Memory.read_writeGranules (m : Memory) (b : Nat) (mask : Nat → List (Option (Byte × Bool))) (hl : ∀ g, (mask g).length = 8)
    (hd : ∀ g, anyDross ((mask g).filterMap id) = false) (n g i : Nat) (hg : g < n) (hi : i < 8) (hb : m.isBad (b + g) = false) :
    (m.writeGranules b mask n).read (8 * (b + g) + i) =
      (((mask g).getD i none).map (fun b => (b.1, false))).getD (m.read (8 * (b + g) + i)) := by
  induction n with
  | zero => omega
  | succ n ih =>
    rw [Memory.writeGranules_succ]
    by_cases h : g = n
    · subst h
      rw [(Memory.read_writeGranule _ _ (hd g) ((Memory.isBad_writeGranules_ne m b mask g _ (by omega)).trans hb) hi).1,
        Memory.read_writeGranules_ne m b mask hl g _ (by omega)]
    · rw [Memory.read_writeGranule_ne _ _ (hl n) (by omega), ih (by omega)]

theorem TagEntry.granule_length (t : TagEntry) (g : Nat) : (t.granule g).length = 8 := by simp [TagEntry.granule]

theorem TagEntry.granule_getD (t : TagEntry) (g : Nat) {i : Nat} (hi : i < 8) :
    (t.granule g).getD i none = if t.mask.getLsbD (8 * g + i) then some (laneOf t.data.data (8 * g + i), t.data.dross) else none := by
  rw [List.getD_eq_getElem _ _ (by rw [TagEntry.granule_length]; exact hi)]
  simp [TagEntry.granule]

theorem TagEntry.granule_clean {t : TagEntry} (h : t.data.dross = false) (g : Nat) : anyDross ((t.granule g).filterMap id) = false := by
  simp only [anyDross, List.any_eq_false, TagEntry.granule, List.mem_filterMap, List.mem_map]
  rintro b ⟨_, ⟨i, -, rfl⟩, hb⟩
  split at hb
  · cases hb; simp [h]
  · cases hb

/-- A granule of a READ is taken as memory reads. -/
theorem State.performGranule_read (s : State) {t : TagEntry} {pa : Nat} (ht : t.tgt = some (.loc pa)) (hw : t.write = false) (g : Nat) :
    s.performGranule t g = ({ t with part := Tab.set t.part g (s.mem.reads (pa + 8 * g) 8) }, s) := by
  simp [State.performGranule, ht, hw]

/-- A granule of a WRITE is stored under its mask. -/
theorem State.performGranule_write (s : State) {t : TagEntry} {pa : Nat} (ht : t.tgt = some (.loc pa)) (hw : t.write = true) (g : Nat) :
    s.performGranule t g = ({ t with part := Tab.set t.part g [], met := t.met || (s.mem.writeGranule (pa / 8 + g) (t.granule g)).2 },
      { s with mem := (s.mem.writeGranule (pa / 8 + g) (t.granule g)).1 }) := by
  simp [State.performGranule, ht, hw]

/-- The granules of a request that a turn performs. -/
def State.performs (s : State) (t : TagEntry) (gs : List Nat) : TagEntry × State :=
  gs.foldl (fun x g => x.2.performGranule x.1 g) (t, s)

theorem State.performs_read (s : State) {t : TagEntry} {pa : Nat} (ht : t.tgt = some (.loc pa)) (hw : t.write = false) (gs : List Nat) :
    s.performs t gs = ({ t with part := gs.foldl (fun l g => Tab.set l g (s.mem.reads (pa + 8 * g) 8)) t.part }, s) := by
  induction gs generalizing t with
  | nil => rfl
  | cons g l ih =>
    rw [State.performs, List.foldl_cons, State.performGranule_read s ht hw]
    exact ih (t := { t with part := Tab.set t.part g (s.mem.reads (pa + 8 * g) 8) }) ht hw

theorem State.performs_succ (s : State) (t : TagEntry) (n : Nat) :
    s.performs t (List.range (n + 1)) = (s.performs t (List.range n)).2.performGranule (s.performs t (List.range n)).1 n := by
  simp [State.performs, List.range_succ]

/-- What the first `n` granules of a WRITE leave: all bytes under its mask stored, each granule marked as performed, and no poison met
where none is. -/
theorem State.performs_write (s : State) {t : TagEntry} {pa : Nat} (ht : t.tgt = some (.loc pa)) (hw : t.write = true)
    (hd : t.data.dross = false) (n : Nat) :
    ∃ met, s.performs t (List.range n) = ({ t with part := (List.range n).foldl (fun l g => Tab.set l g []) t.part, met := met },
        { s with mem := s.mem.writeGranules (pa / 8) t.granule n }) ∧
      ((∀ g < n, s.mem.isBad (pa / 8 + g) = false) → met = t.met) := by
  induction n with
  | zero => exact ⟨t.met, rfl, fun _ => rfl⟩
  | succ n ih =>
    obtain ⟨met, he, hm⟩ := ih
    refine ⟨met || ((s.mem.writeGranules (pa / 8) t.granule n).writeGranule (pa / 8 + n) (t.granule n)).2, ?_, fun hb => ?_⟩
    · rw [State.performs_succ, he]
      refine (State.performGranule_write _ (pa := pa) (by exact ht) (by exact hw) n).trans ?_
      rw [Memory.writeGranules_succ, List.range_succ, List.foldl_append]
      rfl
    · have hn := (Memory.isBad_writeGranules_ne s.mem (pa / 8) t.granule n (pa / 8 + n) (by omega)).trans (hb n (by omega))
      rw [(Memory.read_writeGranule (i := 0) _ _ (TagEntry.granule_clean hd n) hn (by omega)).2, Bool.or_false,
        hm fun g hg => hb g (by omega)]

/-- All granules set in an empty table. -/
theorem Tab.foldl_set_range {α : Type} (f : Nat → α) :
    (List.range 8).foldl (fun l g => Tab.set l g (f g)) [] = (List.range 8).map (fun g => (g, f g)) := rfl

/-- A request at number `r` of port tile `p` that nothing holds back: it leads to local memory that the port serves and that is
neither secure nor an expander's. -/
structure Serviced (s : State) (p r : Nat) (q : Requester) (t : TagEntry) (pa : Nat) : Prop where
  bound : Tab.find (s.port p).reqs r = some q
  entry : q.tags.find? (fun x => decide (x.tag = t.tag) && x.reply.isNone) = some t
  ticket : t.ticket = none
  free : q.tags.any (fun x => x.holds t) = false
  good : t.bad = none
  target : t.tgt = some (.loc pa)
  serves : s.serves p pa = true
  world : s.secureAt pa = false
  local' : s.inExpander pa = none
  runs : s.portStopped p = false
  low : r < 64

theorem Serviced.breaksWorld {s p r q t pa} (h : Serviced s p r q t pa) : s.breaksWorld p q.job t = none := by
  simp [State.breaksWorld, h.good, h.target, h.world]

theorem Serviced.settled {s p r q t pa} (h : Serviced s p r q t pa) : s.settled p t = none := by
  simp [State.settled, h.good, h.target, h.serves, h.local']

/-- A turn of a request performs the granules that it names and that are not performed yet. -/
theorem Serviced.perform {s p r q t pa} (h : Serviced s p r q t pa) (hp : t.part.length ≠ 8) {gs new : List Nat}
    (hn : (gs.filter (fun g => decide (g < 8) && (Tab.find t.part g).isNone)).dedup = new) (he : new ≠ []) :
    exec (.memportPerform p r ⟨t.tag, gs⟩) s =
      .next ((s.performs t new).2.modTag p r t.tag (fun _ => (s.performs t new).1)) := by
  have hr : ¬ 64 ≤ r := by have := h.low; omega
  show execMemportPerform p r ⟨t.tag, gs⟩ s = _
  simp [execMemportPerform, h.runs, hr, h.bound, h.entry, h.ticket, h.target, h.free, h.breaksWorld, h.settled, hp, hn, he]
  rfl

/-- Once all its granules are performed, a request completes. -/
theorem Serviced.complete {s p r q t pa} (h : Serviced s p r q t pa) (hp : t.part.length = 8) (gs : List Nat) :
    exec (.memportPerform p r ⟨t.tag, gs⟩) s = .next (s.complete p r t.tag t.result) := by
  have hr : ¬ 64 ≤ r := by have := h.low; omega
  show execMemportPerform p r ⟨t.tag, gs⟩ s = _
  simp [execMemportPerform, h.runs, hr, h.bound, h.entry, h.ticket, h.target, h.free, h.breaksWorld, h.settled, hp]

end Sys2Proof.Machine
end

section
/-! Replies (R42, R44, R48, R56). -/

namespace Sys2Proof.Machine

theorem Port.log_reqs (x : Port) (r tag st : Nat) : (x.log r tag st).reqs = x.reqs := by
  unfold Port.log
  split <;> rfl

theorem Port.log_trace (x : Port) (r tag st : Nat) :
    (x.log r tag st).trace = (x.trace ++ [(r, tag, st)]).drop (x.trace.length + 1 - 64) := by
  unfold Port.log
  split <;> rfl

theorem Port.log_errcnt (x : Port) (r tag st : Nat) :
    (x.log r tag st).errcnt = if st = 0 then x.errcnt else min 0xFFFFFFFF (x.errcnt + 1) := by
  unfold Port.log
  split <;> rfl

theorem Port.log_getLast (x : Port) (r tag st : Nat) : (x.log r tag st).trace.getLast? = some (r, tag, st) := by
  rw [Port.log_trace, List.drop_append_of_le_length (by omega), List.getLast?_append]
  rfl

theorem Port.log_length (x : Port) (r tag st : Nat) (h : x.trace.length < 64) : (x.log r tag st).trace.length = x.trace.length + 1 := by
  rw [Port.log_trace, List.length_drop, List.length_append, List.length_singleton]
  omega

/-- The port once a request has completed. -/
theorem State.port_complete (s : State) (p r tag : Nat) (x : Nat × Token) :
    (s.complete p r tag x).port p = { (s.port p).log r tag x.1 with
      reqs := Tab.modify (s.port p).reqs r (·.onTag tag (fun y => { y with reply := some x.2 })) } := by
  simp only [State.complete, State.modTag, State.port_setPort_self, Port.log_reqs]
  rfl

theorem State.req?_complete (s : State) (p r tag : Nat) (x : Nat × Token) : (s.complete p r tag x).req? p r =
    (s.req? p r).map (·.onTag tag (fun y => { y with reply := some x.2 })) := by
  simp only [State.req?, State.port_complete, Tab.find_modify_self]

theorem Requester.reply_onTag (q : Requester) (tag : Nat) (tok : Token) :
    ∀ x ∈ (q.onTag tag (fun y => { y with reply := some tok })).tags, x.tag = tag → x.reply = some tok := by
  intro x hx ht
  obtain ⟨y, hy, rfl⟩ := List.mem_map.1 hx
  grind

theorem Serviced.completes {s p r q t pa} (h : Serviced s p r q t pa) (hp : t.part.length = 8) : ∃ u q',
      let bs := (List.range 8).flatMap (fun g => Tab.get [] t.part g)
      let st := if t.write then (if t.met then 1 else 0) else if anyDross bs then 1 else 0
      exec (.memportPerform p r ⟨t.tag, []⟩) s = .next u ∧ u.mem = s.mem ∧ u.graphs = s.graphs ∧ Tab.find (u.port p).reqs r = some q' ∧
      (∀ x ∈ q'.tags, x.tag = t.tag → x.reply = some (if t.write then { data := BitVec.ofNat 512 st, dross := st ≠ 0 }
        else { data := vOf (bs.map (·.1)), dross := anyDross bs })) ∧
      (u.port p).trace.getLast? = some (r, t.tag, st) ∧ ((s.port p).trace.length < 64 → (u.port p).trace.length = (s.port p).trace.length + 1) ∧
      (u.port p).errcnt = if st = 0 then (s.port p).errcnt else min 0xFFFFFFFF ((s.port p).errcnt + 1) := by
  refine ⟨s.complete p r t.tag t.result, q.onTag t.tag (fun y => { y with reply := some t.result.2 }), ?_⟩
  extract_lets bs st
  have hst : t.result.1 = st := by unfold TagEntry.result; split <;> simp [st, bs, *]
  have htok : t.result.2 = if t.write then { data := BitVec.ofNat 512 st, dross := st ≠ 0 }
      else { data := vOf (bs.map (·.1)), dross := anyDross bs } := by
    unfold TagEntry.result; split <;> simp [st, bs, statusReply, tokenRead, *]
  refine ⟨h.complete hp [], State.complete_mem .., rfl, ?_, ?_, ?_⟩
  · exact (State.req?_complete ..).trans (by rw [State.req?, h.bound]; rfl)
  · rw [← htok]
    exact Requester.reply_onTag _ _ _
  · rw [State.port_complete, hst]
    exact ⟨Port.log_getLast .., Port.log_length _ _ _ _, Port.log_errcnt ..⟩

theorem Serviced.reads {s p r q t pa} (h : Serviced s p r q t pa) (hp : t.part = []) (hw : t.write = false) :
    ∃ t', exec (.memportPerform p r ⟨t.tag, List.range 8⟩) s = .next (s.modTag p r t.tag (fun _ => t')) ∧
      t'.part.length = 8 ∧ ∀ g < 8, Tab.get [] t'.part g = s.mem.reads (pa + 8 * g) 8 := by
  have he := h.perform (by simp [hp]) (gs := List.range 8) (new := List.range 8) (by rw [hp]; rfl) (by decide)
  rw [State.performs_read s h.target hw, hp, Tab.foldl_set_range] at he
  refine ⟨_, he, by simp, fun g hg => ?_⟩
  interval_cases g <;> rfl

theorem Serviced.writes {s p r q t pa} (h : Serviced s p r q t pa) (hp : t.part = []) (hw : t.write = true) (hd : t.data.dross = false)
    (ha : pa % 64 = 0) : ∃ t' m,
      exec (.memportPerform p r ⟨t.tag, List.range 8⟩) s = .next (({ s with mem := m } : State).modTag p r t.tag (fun _ => t')) ∧
      t'.part.length = 8 ∧ ((∀ g < 8, s.mem.isBad (pa / 8 + g) = false) → t'.met = t.met) ∧
      (∀ i < 64, s.mem.isBad ((pa + i) / 8) = false →
        m.read (pa + i) = if t.mask.getLsbD i then (laneOf t.data.data i, false) else s.mem.read (pa + i)) ∧
      ∀ z, (z < pa ∨ pa + 64 ≤ z) → m.read z = s.mem.read z := by
  have he := h.perform (by simp [hp]) (gs := List.range 8) (new := List.range 8) (by rw [hp]; rfl) (by decide)
  obtain ⟨met, hs, hm⟩ := s.performs_write h.target hw hd 8
  rw [hs, hp, Tab.foldl_set_range] at he
  refine ⟨_, _, he, by simp, hm, fun i hi hb => ?_, fun z hz => ?_⟩
  · have hz : 8 * (pa / 8 + i / 8) + i % 8 = pa + i := by omega
    have hg : (pa + i) / 8 = pa / 8 + i / 8 := by omega
    have hk : 8 * (i / 8) + i % 8 = i := by omega
    have hr := Memory.read_writeGranules s.mem (pa / 8) t.granule t.granule_length (TagEntry.granule_clean hd) 8 (i / 8) (i % 8) (by omega)
      (by omega) (hg ▸ hb)
    rw [hz, TagEntry.granule_getD _ _ (by omega), hk] at hr
    rw [hr]
    split <;> rfl
  · exact Memory.read_writeGranules_ne _ _ _ t.granule_length _ _ (by omega)

/-- A reply enters its channel as a token of the channel's width. -/
theorem Graph.emitToken_of_one {g : Graph} {n c : Nat} (hc : g.outsOf n = [c]) {tok : Token} (hn : tok.null = false) :
    ((g.emitToken n tok).chan c).transit =
      (g.chan c).transit ++ [{ tok with data := BitVec.ofNat 512 (tok.data.toNat % 2 ^ (8 * (g.chan c).width)) }] := by
  simp [Graph.emitToken, hc, Graph.chan_setChan_self, hn]

theorem State.clearReloc_reqs (s : State) (p : Nat) : ((s.clearReloc p).port p).reqs = (s.port p).reqs := by
  simp [State.clearReloc]

theorem State.clearReloc_graphs (s : State) (p : Nat) : (s.clearReloc p).graphs = s.graphs := rfl

/-- The oldest reply leaves the reply buffer for its channel. -/
theorem execReplyRelease_next {s : State} {p r : Nat} {q : Requester} {t : TagEntry} {tok : Token} {c : Nat}
    (hq : Tab.find (s.port p).reqs r = some q) (hg : s.hasGraph q.job = true) (hp : (s.graph q.job).phase = .resident)
    (hn : (s.graph q.job).quench = none) (hs : s.portStopped p = false) (ho : q.oldest = some t) (ht : t.reply = some tok)
    (hc : (s.graph q.job).outsOf q.stream = [c])
    (hd : ∀ a, ((s.graph q.job).chan c).dst.aid? = some a → ((s.graph q.job).actor a).ended = false)
    (hr : ((s.graph q.job).chan c).buf.length + ((s.graph q.job).chan c).transit.length < ((s.graph q.job).chan c).cap) :
    exec (.replyRelease p r) s = .next (((s.setReq p r { q with tags := q.tags.filter (fun x => x.tag ≠ t.tag) }).setGraph q.job
      ((s.graph q.job).emitToken q.stream tok)).clearReloc p) := by
  have hdead : ((s.graph q.job).chan c).dst.aid?.any (fun a => ((s.graph q.job).actor a).ended) = false := by
    rw [Option.any_eq_false]
    exact fun a h => by simp [hd a h]
  have hroom : (s.graph q.job).roomFor q.stream = true := by simp [Graph.roomFor, hc, hr]
  show execReplyRelease p r s = _
  simp [execReplyRelease, hq, ho, ht, hc, hdead, hg, hp, hn, hs, hroom]

theorem replies : Claims.Replies := by
  refine ⟨fun s p r q t pa hq _ hf ht hh hb htg hsv hsec hexp ha hst hr => ?_, fun s p r q t tok c hq hg hp hn hs ho ht hnull hc => ?_⟩
  · have h : Serviced s p r q t pa := ⟨hq, hf, ht, hh, hb, htg, hsv, hsec, hexp, hst, hr⟩
    refine ⟨fun g hg hn hl hw => ?_, fun hp hw => h.reads hp hw, fun hp hw hd => h.writes hp hw hd ha, fun hp => h.completes hp⟩
    have he := h.perform hl (gs := [g]) (new := [g]) (by simp [hg, hn]) (by simp)
    rwa [State.performs_read s htg hw] at he
  · intro x hd hroom
    refine ⟨_, { q with tags := q.tags.filter (fun y => y.tag ≠ t.tag) }, execReplyRelease_next hq hg hp hn hs ho ht hc hd hroom, ?_, rfl, rfl, ?_⟩
    · rw [State.clearReloc_reqs]
      exact State.req?_setReq ..
    · rw [State.graph, State.clearReloc_graphs, ← State.graph, State.graph_setGraph_self]
      exact Graph.emitToken_of_one hc hnull

end Sys2Proof.Machine
end

section
/-! The trace, scrubbing and expanders (R48, R50 to R52). -/

namespace Sys2Proof.Machine

/-- The offset of the half `lo` of MPTRC of memory port `m`. -/
def mptrcOff (m lo : Nat) : Nat := 0x400000 + 0x1000 * m + 8 + lo

theorem mptrcAt_mptrcOff {m lo : Nat} (hm : m < 208) (hl : lo < 8) : mptrcAt (mptrcOff m lo) = some m := by
  have h1 : (0x400000 + 0x1000 * m + 8 + lo - 0x400000) / 0x1000 = m := by omega
  simp only [mptrcAt, mptrcOff, h1]
  rw [if_pos (by omega)]

/-- MPTRC reads by the trace alone. -/
theorem State.regRead_mptrcOff (s : State) {l m lo : Nat} (hm : m < 208) (hl : lo < 8) :
    s.regRead (.pf l) (mptrcOff m lo) = s.readMem (0x1000 * m + 8) := by
  have ho : mptrcOff m lo / 8 * 8 = 0x400000 + (0x1000 * m + 8) := by unfold mptrcOff; omega
  have hq : inQueues (0x400000 + (0x1000 * m + 8)) = false := by simp [inQueues]; omega
  simp only [State.regRead, ho, hq, whoWhole]
  rw [if_neg (by decide), if_neg (by decide), if_neg (by omega), if_neg (by omega), if_neg (by omega), if_pos (by omega),
    Nat.add_sub_cancel_left]

theorem State.readMem_mptrc (s : State) {m : Nat} (hm : m < 208) : s.readMem (0x1000 * m + 8) =
    ((s.port (memTile m)).trace.head?.map fun e =>
      dword (inFld 1 63 63 + inFld e.1 15 10 + inFld e.2.1 9 7 + inFld e.2.2 3 0)).getD 0 := by
  have hd : (0x1000 * m + 8) / 0x1000 = m := by omega
  have hr : (0x1000 * m + 8) % 0x1000 = 8 := by omega
  simp only [State.readMem, hd, hr]
  rw [if_neg (by omega), if_neg (by decide)]
  cases (s.port (memTile m)).trace <;> rfl

theorem traceWord_lt (r t st : Nat) : inFld 1 63 63 + inFld r 15 10 + inFld t 9 7 + inFld st 3 0 < 2 ^ 64 := by
  simp only [inFld, Nat.shiftLeft_eq]
  omega

/-- A register read goes out as a reply; of MPTRC it takes the oldest entry along. -/
theorem execMptrcRead_next (s : State) {w : Who} {off size : Nat} (hw : s.present w = true) (ho : off < 0x800000) :
    exec (.mptrcRead w ⟨off, size⟩) s = .next (match mptrcAt off with
      | some m =>
        if whoWhole w && regAligned off size then
          (s.setPort (memTile m) { s.port (memTile m) with trace := (s.port (memTile m)).trace.drop 1 }).emit (.regReply (s.readReg w off size))
        else s.emit (.regReply (s.readReg w off size))
      | none => s.emit (.regReply (s.readReg w off size))) := by
  show execMptrcRead w ⟨off, size⟩ s = _
  unfold execMptrcRead
  exact (if_neg (by simp [hw]; omega)).trans rfl

theorem Block.addBank_corr (b : Block) (r : Bank) : (b.addBank r).corr = b.corr := by
  grind [Block.addBank]

/-- A corrected error counts. -/
theorem State.addRecord_corr (s : State) (blk unit cause aid : Nat) (addr synd : W64) :
    ((s.addRecord blk 1 unit cause aid addr synd).block blk).corr = min 0xFFFF ((s.block blk).corr + 1) := by
  grind [State.addRecord, State.block_setBlock_self, Block.addBank_corr, satAdd]

/-- An uncorrectable error asks for an assay. -/
theorem State.addRecord_assaying (s : State) (blk unit cause aid : Nat) (addr synd : W64) :
    ((s.addRecord blk 3 unit cause aid addr synd).block blk).assaying = true := by
  simp [State.addRecord]

theorem expanderFail_of_mem {s : State} {l e : Nat} {x : Nat × Nat × Nat × Nat × Bool} (hx : x ∈ s.board.expanders) (hl : x.2.2.1 = l)
    (he : x.2.2.2.1 = e) (hf : x.2.2.2.2 = false) : ∃ u, exec (.expanderFail l e) s = .next u ∧ u.mem = s.mem ∧
      u.board.expanders.length = s.board.expanders.length ∧ ∀ y ∈ u.board.expanders, y.2.2.1 = l → y.2.2.2.1 = e → y.2.2.2.2 = true := by
  have ha : s.board.expanders.any (fun y => y.2.2.1 = l && y.2.2.2.1 = e && !y.2.2.2.2) = true :=
    List.any_eq_true.2 ⟨x, hx, by simp [hl, he, hf]⟩
  refine ⟨_, show execExpanderFail l e s = .next _ from if_pos ha, rfl, List.length_map _, fun y hy h1 h2 => ?_⟩
  obtain ⟨z, -, rfl⟩ := List.mem_map.1 hy
  grind

/-- A scrub of a granule of a stack that finds an error records it, and poisons what it cannot correct. -/
theorem execBaseDieScrub_next (s : State) {g : Nat} (hg : 8 * g < 0x18000000000) {n : Nat} (h1 : 1 ≤ n) (h2 : n ≤ 2) :
    exec (.baseDieScrub g n) s = .next (({ s with fresh := s.fresh + 1, mem := if n = 2 then s.mem.setBad g true else s.mem } : State).addRecord
      (portBlock (s.ownerTile (8 * g))) (if n = 2 then 3 else 1) 6 0 0 (BitVec.ofNat 64 (8 * g)) (Config.syndrome s.fresh)) := by
  show execBaseDieScrub g n s = _
  simp only [execBaseDieScrub, hg, decide_true, Bool.true_or]
  rw [if_neg (by simp; omega), if_neg (by omega), if_neg (by decide)]
  rfl

/-- A scrub of a granule of an expander that cannot correct it poisons it and makes no record. -/
theorem execBaseDieScrub_expander (s : State) {g : Nat} (hg : 0x18000000000 ≤ 8 * g) (hl : s.inLpddr (8 * g) = none)
    (hx : (s.inExpander (8 * g)).isSome = true) : exec (.baseDieScrub g 2) s = .next { s with mem := s.mem.setBad g true } := by
  have hd : decide (8 * g < 0x18000000000) = false := by simpa using hg
  show execBaseDieScrub g 2 s = _
  simp only [execBaseDieScrub, hd, hl, hx]
  rfl

theorem portUpkeep : Claims.PortUpkeep := by
  refine ⟨fun s l m lo size r t st rest hs hm hl => ?_, fun s w off size hw ho hn => ?_, fun s g hg => ?_, fun s g hg hlp hex => ?_,
    fun s l e x hx hl he hf => expanderFail_of_mem hx hl he hf⟩
  · intro off
    have hoff : off = mptrcOff m lo := rfl
    have he := execMptrcRead_next s (w := .pf l) (off := off) (size := size) hs (by omega)
    rw [hoff, mptrcAt_mptrcOff hm hl] at he
    simp only [State.readReg, State.regRead_mptrcOff s hm hl, State.readMem_mptrc s hm, whoWhole, Bool.true_and] at he
    refine ⟨fun ha ht => ?_, fun ha => ?_, fun ha ht => ?_⟩
    · have hv : (dword (inFld 1 63 63 + inFld r 15 10 + inFld t 9 7 + inFld st 3 0)).toNat = _ := Nat.mod_eq_of_lt (traceWord_lt r t st)
      rw [if_pos (hoff ▸ ha), if_pos (hoff ▸ ha), ht, List.head?_cons, Option.map_some, Option.getD_some, hv] at he
      exact he
    · rw [if_neg (by simp [← hoff, ha]), if_neg (by simp [← hoff, ha])] at he
      exact he
    · rw [if_pos (hoff ▸ ha), if_pos (hoff ▸ ha), ht] at he
      refine ⟨_, he, ?_, ?_⟩
      · simp [State.emit]
      · exact congrArg Port.trace (State.port_setPort_self s (memTile m) _)
  · have he := execMptrcRead_next s (size := size) hw ho
    rw [hn] at he
    exact he
  · intro b
    refine ⟨?_, ⟨_, execBaseDieScrub_next s hg (by decide) (by decide), rfl, State.addRecord_corr ..⟩,
      ⟨_, execBaseDieScrub_next s hg (by decide) (by decide), ?_, fun h hh => ?_, State.addRecord_assaying ..⟩⟩
    · show execBaseDieScrub g 0 s = _
      simp [execBaseDieScrub, hg]
    · rw [State.addRecord_mem]
      exact Memory.isBad_setBad_self ..
    · rw [State.addRecord_mem]
      exact Memory.isBad_setBad_ne _ _ hh
  · exact execBaseDieScrub_expander s hg hlp hex

/-- Settles O57: what a port takes, how it performs and replies, and what becomes of its trace, its granules and its expanders. -/
theorem memoryPortEvents : Obligations.MemoryPortEvents := ⟨takes, replies, portUpkeep⟩

end Sys2Proof.Machine
end

section
/-! A quench saves its nodes (R171, R305). -/

namespace Sys2Proof.Machine

/-- What every step of a fold keeps, the fold keeps. -/
theorem foldl_keeps {σ α β : Type} (f : σ → β) {k : σ → α → σ} (hk : ∀ s x, f (k s x) = f s) (l : List α) (s : σ) :
    f (l.foldl k s) = f s := by
  induction l generalizing s with
  | nil => rfl
  | cons x t ih => exact (ih _).trans (hk s x)

/-- The jobs and the blocks of the part. -/
def State.records (s : State) : Tab Job × Tab Block := (s.jobs, s.blocks)

theorem State.releaseTrapped_records (s : State) (j c) : (s.releaseTrapped j c).records = s.records := by
  unfold State.releaseTrapped
  split <;> rfl

/-- A node saved: its actor as it is saved, and the node among those that have saved. -/
theorem State.saveNode_spec (s : State) (j aid : Nat) (q : Quench) :
    ((s.saveNode j aid q).graph j).quench = some { q with saved := q.saved ++ [aid] } ∧
      (s.saveNode j aid q).actor j aid = (s.actor j aid).save ∧ (s.saveNode j aid q).records = s.records := by
  have hr := foldl_keeps State.records (fun s c => State.releaseTrapped_records s j c) (s.actor j aid).deliveries s
  simp only [State.saveNode]
  refine ⟨?_, ?_, hr⟩
  · rw [State.graph_setGraph_self]
  · rw [State.actor, State.graph_setGraph_self]
    exact Tab.get_set_self ..

theorem State.poisonSite_records (s : State) (t e) : (s.poisonSite t e).records = s.records := by
  grind [State.poisonSite, State.records, State.setActor_jobs, State.setActor_blocks, State.setFiring_jobs, State.setFiring_blocks,
    State.setGraph_jobs, State.setGraph_blocks, State.modReq]

theorem State.addRecord_jobs (s : State) (blk rank unit cause aid addr synd) :
    (s.addRecord blk rank unit cause aid addr synd).jobs = s.jobs := rfl

theorem State.tileRecord_assaying (s : State) (t e) : ((s.tileRecord t e 3).block t).assaying = true := State.addRecord_assaying ..

/-- Granules of a node found uncorrectable: they are poisoned, each under a record. -/
def State.foundBad (s : State) (tile : Nat) (found : List ErrSite) : State :=
  found.foldl (fun s e => (s.poisonSite tile e).tileRecord tile e 3) s

theorem State.foundBad_jobs (s : State) (tile : Nat) (found : List ErrSite) : (s.foundBad tile found).jobs = s.jobs :=
  foldl_keeps State.jobs (k := fun s e => (s.poisonSite tile e).tileRecord tile e 3)
    (fun s e => congrArg Prod.fst (s.poisonSite_records tile e)) found s

theorem State.foundBad_assaying (s : State) (tile : Nat) {found : List ErrSite} (h : found ≠ []) :
    ((s.foundBad tile found).block tile).assaying = true := by
  rw [← List.dropLast_append_getLast h, State.foundBad, List.foldl_append]
  exact State.tileRecord_assaying ..

theorem State.actor_of_find {s : State} {j n : Nat} {a : Actor} (h : Tab.find (s.graph j).actors n = some a) : s.actor j n = a :=
  Tab.get_of_find h

theorem State.actor_setActor_self (s : State) (j n : Nat) (a : Actor) : (s.setActor j n a).actor j n = a := by
  rw [State.actor, State.setActor, State.graph_setGraph_self]
  exact Tab.get_set_self ..

theorem State.actor_foundBad_hram {s : State} {j n t : Nat} {a : Actor} (h : s.owner t n = some (j, a)) (off : Nat) :
    (s.foundBad t [⟨1, n, off⟩]).actor j n = { a with hram := a.hram.setBad (off / 8) true } := by
  have hp : s.poisonSite t ⟨1, n, off⟩ = s.setActor j n { a with hram := a.hram.setBad (off / 8) true } := by
    simp only [State.poisonSite, h]
    rfl
  simp only [State.foundBad, List.foldl_cons, List.foldl_nil, hp]
  exact State.actor_setActor_self ..

theorem State.actor_foundBad_tstore {s : State} {j n t : Nat} {a : Actor} (h : s.owner t n = some (j, a)) (off : Nat) :
    (s.foundBad t [⟨2, n, off⟩]).actor j n = { a with tstore := a.tstore.setBad (off / 8) true } := by
  have hp : s.poisonSite t ⟨2, n, off⟩ = s.setActor j n { a with tstore := a.tstore.setBad (off / 8) true } := by
    simp only [State.poisonSite, h]
    rfl
  simp only [State.foundBad, List.foldl_cons, List.foldl_nil, hp]
  exact State.actor_setActor_self ..

/-- The marker is in on all links of a node that runs no firing: the node saves. -/
theorem execQuenchMarker_next {s : State} {j n : Nat} {q : Quench} {a : Actor} {found : List ErrSite} (hg : s.hasGraph j = true)
    (hp : (s.graph j).phase = .quenching) (hq : (s.graph j).quench = some q) (ha : Tab.find (s.graph j).actors n = some a) (hn : n ∉ q.saved)
    (hm : s.inMove a.tile = false) (hk : (s.graph j).markersIn q n = true) (hc : ∀ c ∈ (s.tile a.tile).causes, ¬ (c.1 = j ∧ c.2.aid = n))
    (hf : s.firingOf j n = none)
    (hs : ∀ e ∈ found, e.aid = n ∧ (e.mem = 1 ∨ e.mem = 2 ∨ e.mem = 3 ∨ e.mem = 4 ∨ e.mem = 5 ∨ e.mem = 8)) :
    exec (.quenchMarker j ⟨n, found, none⟩) s = .next ((s.foundBad a.tile found).saveNode j n q) := by
  have hc' : (s.tile a.tile).causes.any (fun c => c.1 = j && c.2.aid = n) = false := by
    rw [List.any_eq_false]
    intro c hcm
    simpa using hc c hcm
  have hs' : found.all (ErrSite.saved · n) = true := by
    rw [List.all_eq_true]
    intro e he
    obtain ⟨h1, h2⟩ := hs e he
    simp only [ErrSite.saved, h1]
    rcases h2 with h | h | h | h | h | h <;> simp [h]
  show execQuenchMarker j ⟨n, found, none⟩ s = _
  simp [execQuenchMarker, hq, ha, hg, hp, hn, hm, hk, hs', hc', State.takeMark, hf, State.saveFound, State.foundBad]

/-! The completion (R104, R110, R172). -/

/-- The graphs and the jobs of the part. -/
def State.work (s : State) : Tab Graph × Tab Job := (s.graphs, s.jobs)

theorem State.graph_of_work {s u : State} (h : u.work = s.work) (k : Nat) : u.graph k = s.graph k := by
  rw [State.graph, State.graph, show u.graphs = s.graphs from congrArg Prod.fst h]

theorem State.job_of_work {s u : State} (h : u.work = s.work) (k : Nat) : u.job k = s.job k := by
  rw [State.job, State.job, show u.jobs = s.jobs from congrArg Prod.snd h]

theorem State.graph_setJob (s : State) (j : Nat) (x : Job) (k : Nat) : (s.setJob j x).graph k = s.graph k := rfl

theorem State.parkEngines_work (s : State) (j : Nat) : (s.parkEngines j).2.work = s.work :=
  foldl_keeps (fun x : List (Nat × Kick) × State => x.2.work) (fun _ _ => by rfl) _ _

theorem State.ctxWrite_work (s : State) (j off : Nat) (bs : List Byte) : (s.ctxWrite j off bs).work = s.work :=
  foldl_keeps State.work (fun s b => by split <;> rfl) _ _

theorem State.ctxWrite_of_none {s : State} {j : Nat} (h : (s.job j).saveUnits = []) (off : Nat) (bs : List Byte) :
    s.ctxWrite j off bs = s := by
  have ha : ∀ off, s.ctxAddr j off = none := by simp [State.ctxAddr, h]
  unfold State.ctxWrite
  induction bs.zipIdx with
  | nil => rfl
  | cons b t ih => simpa [ha] using ih

theorem State.saveImage_work (s : State) (j : Nat) (order : List Nat) : (s.saveImage j order).work = s.work := by
  have hp : ∀ (l : List (Nat × CtxRec)) (s : State), (l.foldl (fun s r => s.ctxWrite j r.1 r.2.bytes) s).work = s.work :=
    foldl_keeps State.work (fun s r => s.ctxWrite_work j r.1 r.2.bytes)
  simp only [State.saveImage]
  rw [hp, hp]
  refine (foldl_keeps State.work (fun s n => hp _ s) order _).trans ?_
  exact foldl_keeps State.work (fun _ _ => by rfl) _ _

/-- An image of a job without save units is not written. -/
theorem State.saveImage_of_none {s : State} {j : Nat} (h : (s.job j).saveUnits = []) (order : List Nat) : s.saveImage j order = s := by
  have hp : ∀ l : List (Nat × CtxRec), l.foldl (fun s r => s.ctxWrite j r.1 r.2.bytes) s = s := by
    intro l
    induction l with
    | nil => rfl
    | cons r t ih => rw [List.foldl_cons, State.ctxWrite_of_none h, ih]
  have ho : ∀ (l : List Nat) (f : Nat → List (Nat × CtxRec)), l.foldl (fun s n => (f n).foldl (fun s r => s.ctxWrite j r.1 r.2.bytes) s) s = s := by
    intro l f
    induction l with
    | nil => rfl
    | cons n t ih => rw [List.foldl_cons, hp, ih]
  simp only [State.saveImage, h, List.foldl_nil]
  rw [ho, hp, hp]

theorem Graph.ungather_actors (g : Graph) : g.ungather.actors = g.actors :=
  foldl_keeps Graph.actors (fun g e => by split <;> rfl) _ _

theorem Graph.ungather_of_none {g : Graph} (h : ∀ e ∈ g.streams, e.2.got = []) : g.ungather = g := by
  unfold Graph.ungather
  have hf : ∀ l : Tab Stream, (∀ e ∈ l, e.2.got = []) → l.foldl (fun g e => if e.2.got = [] then g else
      g.setChan e.2.chan { g.chan e.2.chan with buf := e.2.got ++ (g.chan e.2.chan).buf }) g = g := by
    intro l hl
    induction l with
    | nil => rfl
    | cons e t ih => rw [List.foldl_cons, if_pos (hl e (by simp)), ih fun x hx => hl x (by simp [hx])]
  exact hf _ h

theorem State.accountOf_of_jobs {s u : State} (h : u.jobs = s.jobs) (j : Nat) : u.accountOf j = s.accountOf j := by
  simp only [State.accountOf, State.root, State.job, h]

/-- The part once the copies, kicks and requesters of a job are parked. -/
def State.parked (s : State) (j : Nat) : State :=
  { (s.parkEngines j).2 with ports := (s.parkEngines j).2.ports.map (fun (e : Nat × Port) =>
    (e.1, { e.2 with reqs := e.2.reqs.filter (fun r => r.2.job ≠ j) })) }

theorem State.parked_work (s : State) (j : Nat) : (s.parked j).work = s.work := s.parkEngines_work j

/-- The graph of a job as the completion of its quench saves it. -/
def State.savedGraph (s : State) (j : Nat) : Graph :=
  let g := ((s.parked j).graph j).ungather
  { g with phase := .saved, quench := none, parked := g.parked ++ (s.parkEngines j).1, parkedReqs := s.reqsOf j, used := [],
           streams := g.streams.map (fun (e : Nat × Stream) => (e.1, e.2.save)) }

theorem State.savedGraph_spec (s : State) (j : Nat) : (s.savedGraph j).phase = .saved ∧ (s.savedGraph j).used = [] ∧
    (s.savedGraph j).quench = none ∧ (s.savedGraph j).actors = (s.graph j).actors ∧
    ((∀ e ∈ (s.graph j).streams, e.2.got = []) → (s.savedGraph j).chans = (s.graph j).chans) := by
  rw [State.savedGraph, State.graph_of_work (s.parked_work j) j]
  exact ⟨rfl, rfl, rfl, Graph.ungather_actors _, fun hs => by rw [Graph.ungather_of_none hs]⟩

/-- The state of a job whose graph is saved (R110). -/
def State.savedSt (s : State) (j : Nat) : JState := if (s.parked j).accountOf j = some 0 then .stalled else .parked

theorem State.savedSt_eq (s : State) (j : Nat) : s.savedSt j = if s.accountOf j = some 0 then .stalled else .parked := by
  rw [State.savedSt, State.accountOf_of_jobs (congrArg Prod.snd (s.parked_work j))]

theorem State.finishQuench_eq (s : State) (j : Nat) : s.finishQuench j =
    (((s.parked j).setGraph j (s.savedGraph j)).saveImage j (((s.graph j).quench.map (·.saved)).getD [])).setJob j
      { (s.parked j).job j with
        st := s.savedSt j, quotaStall := s.savedSt j = .stalled, assays := s.assayTiles j, eff := 0, passes := 0, held := none } := rfl

/-- What the completion of a quench leaves: the saved graph, its job's state with the other jobs as they were, and, of a job without
save units, memory. -/
theorem State.finishQuench_spec (s : State) (j : Nat) :
    (s.finishQuench j).graph j = s.savedGraph j ∧ ((s.finishQuench j).job j).st = s.savedSt j ∧
      (∀ k ≠ j, (s.finishQuench j).job k = s.job k) ∧ ((s.job j).saveUnits = [] → (s.finishQuench j).mem = s.mem) := by
  have hw := ((s.parked j).setGraph j (s.savedGraph j)).saveImage_work j (((s.graph j).quench.map (·.saved)).getD [])
  rw [State.finishQuench_eq]
  refine ⟨?_, ?_, fun k hk => ?_, fun hs => ?_⟩
  · rw [State.graph_setJob]
    exact (State.graph_of_work hw j).trans (State.graph_setGraph_self ..)
  · rw [State.job_setJob_self]
  · rw [State.job_setJob_ne _ _ hk]
    exact (State.job_of_work hw k).trans (State.job_of_work (s.parked_work j) k)
  · rw [State.setJob_mem, State.saveImage_of_none (by exact (State.job_of_work (s.parked_work j) j).symm ▸ hs)]
    exact State.parkEngines_mem ..

/-- With no job earmarked there is nothing to settle. -/
theorem State.settleEarmarks_of_none {s : State} (h : ∀ k, (s.job k).st ≠ .earmarked) : s.settleEarmarks = s := by
  have hs : ∀ k, s.settleEarmark k = s := fun k => by
    unfold State.settleEarmark
    extract_lets b
    split
    next he _ => exact absurd he (h k)
    · rfl
  unfold State.settleEarmarks
  induction s.jobs.map (·.1) with
  | nil => rfl
  | cons k t ih => rw [List.foldl_cons, hs, ih]

/-- A quench that can complete does. -/
theorem execQuenchComplete_next {s : State} {j : Nat} (hq : s.quenched j = true) (he : ∀ k, (s.job k).st ≠ .earmarked) :
    exec (.quenchComplete j) s = .next ((s.finishQuench j).setJob j { (s.finishQuench j).job j with resume := some (s.resumeVariant j) }) := by
  obtain ⟨-, hst, hjobs, -⟩ := s.finishQuench_spec j
  have hn : ∀ k, (((s.finishQuench j).setJob j { (s.finishQuench j).job j with resume := some (s.resumeVariant j) }).job k).st ≠ .earmarked := by
    intro k
    by_cases hk : k = j
    · rw [hk, State.job_setJob_self]
      dsimp only
      rw [hst, State.savedSt]
      split <;> decide
    · rw [State.job_setJob_ne _ _ hk, hjobs k hk]
      exact he k
  show execQuenchComplete j s = _
  rw [execQuenchComplete, hq]
  exact congrArg Host.Outcome.next (State.settleEarmarks_of_none hn)

theorem quenches : Claims.Quenches := by
  refine ⟨fun s j n q a found hg hp hq ha hn hm hk hc hf hs => ?_, fun s j hq he => ?_⟩
  · obtain ⟨hquench, hactor, hrec⟩ := (s.foundBad a.tile found).saveNode_spec j n q
    have hblocks : ((s.foundBad a.tile found).saveNode j n q).blocks = _ := congrArg Prod.snd hrec
    refine ⟨_, execQuenchMarker_next hg hp hq ha hn hm hk hc hf hs, hquench, ?_⟩
    rw [hactor]
    refine ⟨rfl, rfl, rfl, (congrArg Prod.fst hrec).trans (State.foundBad_jobs ..), State.saveFound_mem .., fun he => ?_,
      fun off ho => ⟨fun he => ?_, fun he => ?_⟩, fun he => ?_⟩
    · rw [he, ← State.actor_of_find ha]; exact ⟨rfl, rfl⟩
    · rw [he, State.actor_foundBad_hram ho]; exact ⟨rfl, rfl⟩
    · rw [he, State.actor_foundBad_tstore ho]; exact ⟨rfl, rfl⟩
    · rw [State.block, hblocks]; exact State.foundBad_assaying s a.tile he
  · obtain ⟨hgraph, hst, -, hmem⟩ := s.finishQuench_spec j
    refine ⟨_, execQuenchComplete_next hq he, ?_⟩
    rw [State.graph_setJob, hgraph, State.job_setJob_self, State.setJob_mem]
    dsimp only
    obtain ⟨hphase, hused, hquench, hactors, hchans⟩ := s.savedGraph_spec j
    exact ⟨hphase, hused, hquench, hst.trans (s.savedSt_eq j), hactors, hchans, hmem⟩

end Sys2Proof.Machine
end

section
/-! Moves (R54, R132, R133). -/

namespace Sys2Proof.Machine

/-- With no port there is no relocation entry to write. -/
theorem State.relocate_of_no_ports {before s : State} (h : s.ports = []) (j aid slot old new : Nat) :
    before.relocate s j aid slot old new = some s := by
  rw [State.relocate, h]
  rfl

/-- The one actor of a tile moves, and of an empty tile none. -/
theorem State.retarget_one {before s : State} (hb : before.ports = []) (hs : s.ports = []) (j aid : Nat) (a : Actor) (src dst : Nat) :
    before.retarget s [(j, aid, a)] src dst = some (s.setActor j aid { s.actor j aid with tile := dst, tgen := (s.actor j aid).tgen + 1 }) := by
  simp [State.retarget, State.slotHeld, hb, State.relocate_of_no_ports hs]

theorem State.retarget_nil (before s : State) (src dst : Nat) : before.retarget s [] src dst = some s := rfl

/-- What a move of one actor leaves (R132). -/
def State.moved (s : State) (t : Nat) (m : Move) (j aid : Nat) : State :=
  let v := s.setActor j aid { s.actor j aid with tile := m.dst, tgen := (s.actor j aid).tgen + 1 }
  let w := (v.setTile t { v.tile m.dst with move := none }).setTile m.dst { v.tile t with move := (v.tile m.dst).move }
  let k := w.kiln
  { w with kiln := if m.forAssay then k else if m.rebal then { k with rbs := bump k.rbs } else { k with rots := bump k.rots },
           graphs := w.graphs.map (fun (e : Nat × Graph) => if e.1 = j then (e.1, e.2.rewire) else e) }

theorem execMoveRetarget_next {s : State} {t : Nat} {m : Move} {j aid : Nat} {a : Actor} (hm : (s.tile t).move = some m) (h4 : m.step = 4)
    (hsw : m.swap = false) (hp : s.ports = []) (hr : s.residents t = [(j, aid, a)]) :
    exec (.moveRetarget t) s = .next (s.moved t m j aid) := by
  show execMoveRetarget t s = _
  simp [execMoveRetarget, hm, h4, hsw, hr, State.retarget_one hp hp, State.retarget_nil, State.moved]

theorem Tab.get_map_key {α : Type} {d : α} (t : Tab α) (i : Nat) (f : α → α) (v : α) (h : Tab.find t i = some v) :
    Tab.get d (t.map (fun e => if e.1 = i then (e.1, f e.2) else e)) i = f v := by
  refine Tab.get_of_find ((Tab.find_modify_self t i f).trans ?_)
  rw [h]; rfl

/-- An actor that has moved: on the target under a new generation, with its memories. -/
theorem State.moved_actor (s : State) (t : Nat) (m : Move) (j aid : Nat) :
    (s.moved t m j aid).actor j aid = { s.actor j aid with tile := m.dst, tgen := (s.actor j aid).tgen + 1 } := by
  have hg : Tab.get {} (s.moved t m j aid).graphs j = ((s.graph j).setActor aid
      { s.actor j aid with tile := m.dst, tgen := (s.actor j aid).tgen + 1 }).rewire := Tab.get_map_key _ j Graph.rewire _ (Tab.find_set_self ..)
  rw [State.actor, State.graph, hg]
  exact Tab.get_set_self ..

theorem State.moved_tile_src (s : State) {t : Nat} {m : Move} (h : m.dst ≠ t) (j aid : Nat) : ((s.moved t m j aid).tile t).move = none := by
  have ht : (s.moved t m j aid).tile t = { s.tile m.dst with move := none } :=
    (Tab.get_set_ne _ _ _ h.symm).trans (Tab.get_set_self ..)
  rw [ht]

theorem State.moved_tile_dst (s : State) (t : Nat) (m : Move) (j aid : Nat) :
    ((s.moved t m j aid).tile m.dst).firing = (s.tile t).firing := by
  have ht : (s.moved t m j aid).tile m.dst = { s.tile t with move := (s.tile m.dst).move } := Tab.get_set_self ..
  rw [ht]

/-- A marker arrives: the slot is released, and entries without traffic leave the table. -/
theorem execRelocationMarker_next {s : State} {p n : Nat} (h : n < (s.port p).markers.length) : exec (.relocationMarker p ⟨n, none⟩) s =
    .next ((s.setPort p { s.port p with markers := (s.port p).markers.eraseIdx n }).clearReloc p) := by
  show execRelocationMarker p ⟨n, none⟩ s = _
  simp [execRelocationMarker, h, State.takeMark]

/-- The relocation entries that a port keeps, of which there may be traffic. -/
theorem State.clearReloc_spec (s : State) (p : Nat) : ((s.clearReloc p).port p).markers = (s.port p).markers ∧
    (∀ e ∈ ((s.clearReloc p).port p).reloc, e ∈ (s.port p).reloc) ∧
    ∀ e, e.2.copies = [] → e.2.tags = [] → e ∉ ((s.clearReloc p).port p).reloc := by
  unfold State.clearReloc
  rw [State.port_setPort_self]
  refine ⟨rfl, fun e he => List.mem_of_mem_filter he, fun e hc ht he => ?_⟩
  have := (List.mem_filter.1 he).2
  simp [hc, ht] at this

theorem State.moveDrained_of {s : State} {t : Nat} {m : Move} (h1 : m.step = 1) (hf : (s.tile t).firing = none)
    (hs : m.swap = true → (s.tile m.dst).firing = none) : s.moveDrained t m = true := by
  cases hw : m.swap with
  | false => simp [State.moveDrained, h1, hf, hw]
  | true => simp [State.moveDrained, h1, hf, hw, hs hw]

theorem moves : Claims.Moves := by
  refine ⟨fun s t m hm h1 hf hs => ⟨?_, ?_⟩, fun s t m j aid a hm h4 hsw hd hp hr => ?_, fun s p n h => ?_⟩
  · show execMoveStateCopy t s = _
    simp [execMoveStateCopy, hm, State.moveDrained_of h1 hf hs, State.startMove]
  · show execMoveAbandon t s = _
    simp only [execMoveAbandon, hm, State.moveDrained_of h1 hf hs, if_true]
    rfl
  · have ha := s.moved_actor t m j aid
    refine ⟨_, execMoveRetarget_next hm h4 hsw hp hr, ?_⟩
    rw [ha]
    refine ⟨rfl, rfl, rfl, s.moved_tile_src hd j aid, s.moved_tile_dst t m j aid, rfl, fun hfa hrb => ?_⟩
    simp [State.moved, hfa, hrb, bump, satAdd]
  · obtain ⟨hmk, hsub, hgone⟩ := (s.setPort p { s.port p with markers := (s.port p).markers.eraseIdx n }).clearReloc_spec p
    rw [State.port_setPort_self] at hmk hsub
    exact ⟨_, execRelocationMarker_next h, rfl, rfl, hmk, hsub, fun e _ => hgone e⟩

/-- Settles O53: quenches from their node saves to their completion, and moves from their copy to their last marker. -/
theorem quenchAndMoveEvents : Obligations.QuenchAndMoveEvents := ⟨quenches, moves⟩

end Sys2Proof.Machine
end

section
/-! Tables put and set, and what records, walks and requests of the part's own leave as it was (R21, R78, R224, R290). -/

namespace Sys2Proof

theorem Tab.get_put_self {α : Type} [DecidableEq α] (d : α) (t : Tab α) (i : Nat) (v : α) : Tab.get d (Tab.put d t i v) i = v := by
  unfold Tab.put
  split
  next h => rw [Machine.Tab.get_erase_self, h]
  · exact Tab.get_set_self ..

theorem Tab.get_put_ne {α : Type} [DecidableEq α] (d : α) (t : Tab α) {i k : Nat} (v : α) (h : k ≠ i) :
    Tab.get d (Tab.put d t i v) k = Tab.get d t k := by
  unfold Tab.put
  split
  · exact Tab.get_erase_ne d t h
  · exact Tab.get_set_ne d t v h

theorem Tab.find_none {α : Type} (i : Nat) : ∀ t : Tab α, (∀ e ∈ t, e.1 ≠ i) → Tab.find t i = none
  | [], _ => rfl
  | (k, w) :: t, h => by
    rw [Tab.find, if_neg (h (k, w) (by simp)), Tab.find_none i t fun e he => h e (by simp [he])]

@[simp] theorem Tab.find_erase_self {α : Type} (t : Tab α) (i : Nat) : Tab.find (Tab.erase t i) i = none :=
  Tab.find_none i _ (Tab.erase_ne t i)

theorem Tab.mem_of_find {α : Type} {t : Tab α} {i : Nat} {v : α} (h : Tab.find t i = some v) : (i, v) ∈ t := by
  induction t with
  | nil => cases h
  | cons e t ih =>
    obtain ⟨k, w⟩ := e
    unfold Tab.find at h
    split at h
    next hk => cases h; simp [hk]
    · exact List.mem_cons_of_mem _ (ih h)

/-- A table filtered by its keys reads as before at a key that stays. -/
theorem Tab.get_filter_key {α : Type} (d : α) (t : Tab α) {k : Nat} {p : Nat × α → Bool} (h : ∀ e ∈ t, e.1 = k → p e = true) :
    Tab.get d (t.filter p) k = Tab.get d t k := by
  induction t with
  | nil => rfl
  | cons e t ih =>
    have ih := ih fun x hx => h x (List.mem_cons_of_mem _ hx)
    obtain ⟨n, v⟩ := e
    by_cases hn : n = k
    · rw [List.filter_cons_of_pos (h (n, v) (by simp) hn), Tab.get, Tab.get, if_pos hn, if_pos hn]
    · rw [Tab.get, if_neg hn, ← ih, List.filter_cons]
      split
      · rw [Tab.get, if_neg hn]
      · rfl

namespace Machine

/-- The part without memory, requests, translations, fault queues and output: what no record and no walk touches. -/
def State.frame (s : State) : State :=
  { s with fresh := 0, nextId := 0, mem := {}, inflight := [], outreqs := [], ownReads := [], tickets := [], tlb := [], ats := [],
           fq := {}, fqs := {}, out := [] }

theorem State.setFaultQ_frame (s : State) (sec q) : (s.setFaultQ sec q).frame = s.frame := by cases sec <;> rfl

theorem State.recordIn_frame (s : State) (sec r) : (s.recordIn sec r).frame = s.frame := by
  unfold State.recordIn
  extract_lets q u
  split
  · exact State.setFaultQ_frame s sec _
  · exact State.setFaultQ_frame s sec _

theorem State.ownSend_frame (s : State) (job q addr kind at?) : (s.ownSend job q addr kind at?).frame = s.frame := by
  unfold State.ownSend
  split <;> rfl

theorem State.ownWrite_frame {s u : State} {job pa bs at?} (e : s.ownWrite job pa bs at? = some u) : u.frame = s.frame := by
  unfold State.ownWrite at e
  split at e
  · split at e
    · cases e
    · cases e; rfl
  · cases e; rfl
  · cases e; exact State.ownSend_frame ..
  · cases e
  · cases e

theorem State.pushRecord_frame (s : State) (sec r) : (s.pushRecord sec r).frame = s.frame := by
  unfold State.pushRecord
  extract_lets q pa bs
  split
  · exact State.setFaultQ_frame ..
  split
  · exact State.setFaultQ_frame ..
  split
  · split
    · exact State.setFaultQ_frame ..
    · exact State.setFaultQ_frame ..
  split
  · exact State.setFaultQ_frame ..
  next e => exact (State.recordIn_frame ..).trans (State.ownWrite_frame e)

theorem State.jobNotice_frame (s : State) (j c) : (s.jobNotice j c).frame = s.frame := State.pushRecord_frame ..

theorem State.blockNotice_frame (s : State) (b code) : (s.blockNotice b code).frame = s.frame := State.pushRecord_frame ..

theorem State.pick_frame {α : Type} (s : State) (d : α) (l) : (s.pick d l).2.frame = s.frame := by
  unfold State.pick
  split <;> rfl

theorem State.walkFrom_frame (s : State) (va n t) : (s.walkFrom va n t).2.frame = s.frame := by
  induction n generalizing s t with
  | zero => grind [State.walkFrom, State.pick_frame]
  | succ n ih => grind [State.walkFrom, State.pick_frame]

theorem State.outcomes_frame (s : State) (node pasid va write) : (s.outcomes node pasid va write).2.frame = s.frame := by
  grind [State.outcomes, State.walk, State.walkFrom_frame]

theorem State.cache_frame (s : State) (e) : (s.cache e).frame = s.frame := by
  unfold State.cache
  split
  · rfl
  · split <;> rfl

theorem State.askHost_frame (s : State) (link pasid va write who) : (s.askHost link pasid va write who).2.frame = s.frame := by
  unfold State.askHost
  split
  · rfl
  · split
    · split <;> rfl
    · rfl

theorem State.translate_frame (s : State) (pasid va write who) : (s.translate pasid va write who).2.frame = s.frame := by
  grind [State.translate, State.translateAt, State.outcomes_frame, State.pick_frame, State.cache_frame, State.askHost_frame]

theorem State.jobs_of_frame {s u : State} (h : u.frame = s.frame) : u.jobs = s.jobs := (congrArg State.jobs h :)
theorem State.graphs_of_frame {s u : State} (h : u.frame = s.frame) : u.graphs = s.graphs := (congrArg State.graphs h :)
theorem State.queues_of_frame {s u : State} (h : u.frame = s.frame) : u.queues = s.queues := (congrArg State.queues h :)
theorem State.blocks_of_frame {s u : State} (h : u.frame = s.frame) : u.blocks = s.blocks := (congrArg State.blocks h :)

/-! What the end of a graph leaves as it was (R54, R55, R243). -/

/-- What of the part the end of a graph leaves: its board, queues, jobs, blocks and links, and the Kiln but for the pool. -/
def State.ledger (s : State) : State :=
  { s.frame with kiln := { s.kiln with poolCnt := 0 }, graphs := [], tiles := [], ports := [] }

theorem State.ledger_of_frame {s u : State} (h : u.frame = s.frame) : u.ledger = s.ledger :=
  (congrArg (fun x : State => { x with kiln := { x.kiln with poolCnt := 0 }, graphs := [], tiles := [], ports := [] }) h :)

theorem State.performGranule_ledger (s : State) (t g) : (s.performGranule t g).2.ledger = s.ledger := by
  unfold State.performGranule
  split
  · split <;> rfl
  · rfl

theorem State.performDead_ledger (p r job : Nat) (s : State) (t) : (State.performDead p r job s t).ledger = s.ledger := by
  unfold State.performDead
  split
  · rfl
  split
  · rfl
  split
  · exact State.ledger_of_frame (State.pushRecord_frame ..)
  · rfl
  · exact foldl_keeps (fun x : TagEntry × State => x.2.ledger) (fun x g => State.performGranule_ledger x.2 x.1 g) _ (t, s)

theorem State.performTaken_ledger (s : State) (j) : (s.performTaken j).ledger = s.ledger := by
  refine foldl_keeps State.ledger (fun s e => ?_) _ _
  refine foldl_keeps State.ledger (fun s r => ?_) _ _
  exact foldl_keeps State.ledger (State.performDead_ledger e.1 r.1 j) _ _

theorem State.dropGraph_ledger (s : State) (j) : (s.dropGraph j).ledger = s.ledger :=
  (foldl_keeps State.ledger (fun _ _ => by rfl) _ _).trans (State.performTaken_ledger s j)

theorem State.dropGraph_graphs (s : State) (j) : (s.dropGraph j).graphs = Tab.erase (s.performTaken j).graphs j :=
  foldl_keeps State.graphs (fun _ _ => by rfl) _ _

theorem State.jobs_of_ledger {s u : State} (h : u.ledger = s.ledger) : u.jobs = s.jobs := (congrArg State.jobs h :)
theorem State.queues_of_ledger {s u : State} (h : u.ledger = s.ledger) : u.queues = s.queues := (congrArg State.queues h :)
theorem State.blocks_of_ledger {s u : State} (h : u.ledger = s.ledger) : u.blocks = s.blocks := (congrArg State.blocks h :)
theorem State.leaseFree_of_ledger {s u : State} (h : u.ledger = s.ledger) : u.kiln.leaseFree = s.kiln.leaseFree :=
  (congrArg (fun x : State => x.kiln.leaseFree) h :)

theorem State.job_of_jobs {s u : State} (h : u.jobs = s.jobs) (j : Nat) : u.job j = s.job j := by rw [State.job, State.job, h]
theorem State.queue_of_queues {s u : State} (h : u.queues = s.queues) (q : Nat) : u.queue q = s.queue q := by
  rw [State.queue, State.queue, h]
theorem State.block_of_blocks {s u : State} (h : u.blocks = s.blocks) (b : Nat) : u.block b = s.block b := by
  rw [State.block, State.block, h]

end Machine
end Sys2Proof
end

section
/-! The part after power-on reset (R61, R62, R64, R142). -/

namespace Sys2Proof.Machine

/-- The registers that the tables give a reset value (R64, R142, R144, R32, R244, R249). -/
theorem State.regRead_reset : ∀ r ∈ [(0x10008, 0x2), (0x10010, 0x2000002904), (0x10038, 0x5F0340C00B), (0x200C00, 0x7D0), (0x0000, 0),
    (0x2000, 0), (0x3000, 0)], State.reset.regRead (.pf 0) r.1 = BitVec.ofNat 64 r.2 := by decide

/-- Settles O46: each field and register of the reset state reads as its table has it, and no agent has anything to run. -/
theorem resetState : Obligations.ResetState :=
  ⟨rfl, rfl, rfl, rfl, rfl, rfl, rfl, rfl, rfl, rfl, rfl, State.regRead_reset⟩

end Sys2Proof.Machine
end

section
/-! A write of a register: its row and its effect (R59, R60). -/

namespace Sys2Proof.Machine

/-- A register write that is of its row happens. -/
theorem State.rowWrite_next {s : State} {row : String} {r : RegReq} (go : State → State) (hp : s.present r.who = true)
    (hr : s.rowOf r = row) : s.rowWrite row r go = .next (go s) := by
  simp [State.rowWrite, hp, hr]

/-- The same for a host, with the state that the write leaves. -/
theorem State.hostWrite_next {s u : State} {row : String} {l off size : Nat} {d : W64} (hl : s.hostServes l = true)
    (hr : s.rowOf ⟨.pf l, off, size, d⟩ = row) (hu : s.regWrite ⟨.pf l, off, size, d⟩ = u) :
    s.rowWrite row ⟨.pf l, off, size, d⟩ (fun s => s.regWrite ⟨.pf l, off, size, d⟩) = .next u := by
  rw [State.rowWrite_next _ (show s.present (.pf l) = true from hl) hr, hu]

/-- A write of eight bytes stores them all. -/
@[simp] theorem mergeWrite_whole (old : W64) (off : Nat) (d : W64) : mergeWrite old off 8 d = d := rfl

theorem regAligned_whole {off : Nat} (h : off % 8 = 0) : regAligned off 8 = true := by simp [regAligned, h]

/-! Queue registers (R67). -/

/-- The offset of a register of a queue (R67). -/
def queueOff (n o : Nat) : Nat := 0x100000 + 64 * n + o

section
variable {n o : Nat} (hn : n < 4096) (ho : o < 64) (h8 : o % 8 = 0)

include hn ho in
theorem inQueues_queueOff : inQueues (queueOff n o) = true := by
  have h : 0x100000 ≤ 0x100000 + 64 * n + o ∧ 0x100000 + 64 * n + o < 0x140000 := by omega
  simp [inQueues, queueOff, h]

include ho in
theorem queueAt_queueOff : queueAt (queueOff n o) = n := by
  simp only [queueAt, queueOff]
  omega

include ho h8 in
theorem queueReg_queueOff : queueReg (queueOff n o) = o := by
  simp only [queueReg, queueOff]
  omega

include h8 in
theorem queueOff_mod : queueOff n o % 8 = 0 := by
  simp only [queueOff]
  omega

include h8 in
theorem queueOff_doubleword : queueOff n o / 8 * 8 = queueOff n o := Nat.div_mul_cancel (Nat.dvd_of_mod_eq_zero (queueOff_mod h8))

include hn ho h8 in
/-- The row of a write of a queue register by a requester that sees the queue. -/
theorem State.rowOf_queueOff (s : State) (w : Who) (d : W64) (hw : s.seesQueue w n = true) :
    s.rowOf ⟨w, queueOff n o, 8, d⟩ = queueRow ⟨w, queueOff n o, 8, d⟩ d d := by
  simp only [State.rowOf, mergeWrite_whole, regAligned_whole (queueOff_mod h8), queueOff_doubleword h8, inQueues_queueOff hn ho,
    queueAt_queueOff ho, hw]
  rfl

include hn ho h8 in
/-- A write of a queue register other than QCTL. -/
theorem State.regWrite_queueOff (s : State) (w : Who) (d : W64) (hw : s.seesQueue w n = true) (hc : o ≠ 0x28) :
    s.regWrite ⟨w, queueOff n o, 8, d⟩ = s.writeQueue w (queueOff n o) 8 d := by
  simp [State.regWrite, regAligned_whole (queueOff_mod h8), queueOff_doubleword h8, inQueues_queueOff hn ho, queueAt_queueOff ho,
    queueReg_queueOff ho h8, hw, hc]

end

/-- A write of QCTL by a host. -/
theorem State.regWrite_qctl (s : State) {n : Nat} (hn : n < 4096) (l : Nat) (d : W64) :
    s.regWrite ⟨.pf l, queueOff n 0x28, 8, d⟩ = s.writeQctl n d := by
  simp [State.regWrite, regAligned_whole (queueOff_mod (n := n) (o := 0x28) rfl), queueOff_doubleword (n := n) (o := 0x28) rfl,
    inQueues_queueOff (o := 0x28) hn (by decide), queueAt_queueOff (n := n) (o := 0x28) (by decide),
    queueReg_queueOff (n := n) (o := 0x28) (by decide) rfl, State.seesQueue]

/-! What a write of QTAIL and of QCFG does to the queue (R69, R71). -/

theorem State.writeQueue_tail (s : State) (n : Nat) (w : Who) (d : W64) :
    s.writeQueue w (queueOff n 0x10) 8 d = s.setQueue n ((s.queue n).writeTail w (d.setWidth 32)) := by
  simp only [State.writeQueue, queueReg_queueOff (n := n) (o := 0x10) (by decide) rfl, queueAt_queueOff (n := n) (o := 0x10) (by decide),
    mergeWrite_whole]

theorem State.writeQueue_cfg (s : State) (n l : Nat) (d : W64) :
    s.writeQueue (.pf l) (queueOff n 8) 8 d = s.settleQueue n ((s.queue n).writeCfg (.pf l) d) := by
  simp only [State.writeQueue, queueReg_queueOff (n := n) (o := 8) (by decide) rfl, queueAt_queueOff (n := n) (o := 8) (by decide),
    mergeWrite_whole]
  rfl

end Sys2Proof.Machine
end

section
/-! Writes of queue registers (R67 to R71). -/

namespace Sys2Proof.Machine

/-! QTAIL (R69, R70). -/

theorem execQtailWrite_next (s : State) {n : Nat} (hn : n < 4096) {w : Who} (hp : s.present w = true) (hw : s.seesQueue w n = true) (d : W64) :
    exec (.qtailWrite ⟨w, queueOff n 0x10, 8, d⟩) s = .next (s.setQueue n ((s.queue n).writeTail w (d.setWidth 32))) := by
  refine (State.rowWrite_next (fun s => s.regWrite _) hp ?_).trans (congrArg Host.Outcome.next ?_)
  · rw [State.rowOf_queueOff hn (by decide) rfl s w d hw]
    simp [queueRow, queueReg_queueOff (n := n) (o := 0x10) (by decide) rfl]
  · rw [State.regWrite_queueOff hn (by decide) rfl s w d hw (by decide), State.writeQueue_tail]

theorem Queue.writeTail_host (q : Queue) (l : Nat) (t : W32) : q.writeTail (.pf l) t =
    if q.size < (t - q.head).toNat then q.error 1
    else if (t - q.head).toNat < (q.tail - q.head).toNat then q.error 2 else { q with tail := t } := rfl

theorem Queue.writeTail_actor {q : Queue} (h : q.cfg.getLsbD 19 = false) (w : Bool) (t : W32) : q.writeTail (.actor w) t = q.error 4 := by
  rw [Queue.writeTail, h]
  rfl

/-! EN (R68, R71). -/

/-- The row of a write of QCFG follows from the level of EN that it writes. -/
theorem State.rowOf_cfg (s : State) {n : Nat} (hn : n < 4096) (l : Nat) (d : W64) : s.rowOf ⟨.pf l, queueOff n 8, 8, d⟩ =
    if d.getLsbD 0 then "QUEUE_ENABLE" else "QUEUE_DISABLE" := by
  rw [State.rowOf_queueOff hn (by decide) rfl s (.pf l) d rfl]
  simp [queueRow, queueReg_queueOff (n := n) (o := 8) (by decide) rfl]

theorem State.regWrite_cfg (s : State) {n : Nat} (hn : n < 4096) (l : Nat) (d : W64) : s.regWrite ⟨.pf l, queueOff n 8, 8, d⟩ =
    s.settleQueue n ((s.queue n).writeCfg (.pf l) d) := by
  rw [State.regWrite_queueOff hn (by decide) rfl s (.pf l) d rfl (by decide), State.writeQueue_cfg]

theorem execQueueEnable_next {s : State} {l : Nat} (hl : s.hostServes l = true) {n : Nat} (hn : n < 4096) {d : W64} (hd : d.getLsbD 0 = true) :
    exec (.queueEnable ⟨.pf l, queueOff n 8, 8, d⟩) s = .next (s.settleQueue n ((s.queue n).writeCfg (.pf l) d)) :=
  State.hostWrite_next hl (by rw [State.rowOf_cfg s hn, if_pos hd]) (State.regWrite_cfg s hn l d)

theorem execQueueDisable_next {s : State} {l : Nat} (hl : s.hostServes l = true) {n : Nat} (hn : n < 4096) {d : W64}
    (hd : d.getLsbD 0 = false) :
    exec (.queueDisable ⟨.pf l, queueOff n 8, 8, d⟩) s = .next (s.settleQueue n ((s.queue n).writeCfg (.pf l) d)) :=
  State.hostWrite_next hl (by rw [State.rowOf_cfg s hn, hd]; rfl) (State.regWrite_cfg s hn l d)

/-- EN is the lowest bit of QCFG, whatever the other fields are. -/
theorem cfgFields_en (a b c w e : Nat) (v : W64) :
    (BitVec.ofNat 64 (inFld a 63 44 + inFld b 39 32 + inFld c 31 21 + inFld w 20 20 + inFld e 19 17 + fld v 0 0)).getLsbD 0 = v.getLsbD 0 := by
  simp only [inFld, fld, bitsOf, Nat.shiftLeft_eq, Nat.testBit_zero, BitVec.getLsbD, Nat.shiftRight_zero]
  simp
  omega

theorem Queue.writeCfg_en (q : Queue) (w : Who) (v : W64) : (q.writeCfg w v).en = v.getLsbD 0 := by
  unfold Queue.writeCfg
  extract_lets own world cfg
  split
  · exact cfgFields_en ..
  · exact cfgFields_en ..

/-- Beside its QCFG, a write of QCFG changes a queue only to drain a Running one. -/
theorem Queue.writeCfg_of (q : Queue) (w : Who) (v : W64) : ∃ cfg, q.writeCfg w v =
    if q.st = .running ∧ !v.getLsbD 0 then { q with cfg := cfg, st := .draining, got := [] } else { q with cfg := cfg } := ⟨_, rfl⟩

/-- A Disabled queue runs once EN and READY are there (R71). -/
def Queue.start (q : Queue) (ready : Bool) : Queue := { q with st := if q.st = .disabled ∧ q.en ∧ ready then .running else q.st }

theorem Queue.settle_of_flr {q : Queue} (h : q.flr = true ∧ q.retire = q.head) (ready : Bool) : q.settle ready = q.cleared.start ready := by
  rw [Queue.settle, if_pos h, if_neg (by simp [Queue.cleared] : ¬ (q.cleared.st = .draining ∧ q.cleared.retire = q.cleared.head)),
    Queue.start]
  split <;> rfl

theorem Queue.settle_of_drained {q : Queue} (hf : ¬ (q.flr = true ∧ q.retire = q.head)) (h : q.st = .draining ∧ q.retire = q.head)
    (ready : Bool) : q.settle ready = { q with st := .disabled : Queue }.start ready := by
  rw [Queue.settle, if_neg hf, if_pos h, Queue.start]
  split <;> rfl

theorem Queue.settle_of_live {q : Queue} (hf : ¬ (q.flr = true ∧ q.retire = q.head)) (h : ¬ (q.st = .draining ∧ q.retire = q.head))
    (ready : Bool) : q.settle ready = q.start ready := by
  rw [Queue.settle, if_neg hf, if_neg h, Queue.start]
  split <;> rfl

/-- An enabled Disabled queue of a READY part runs. -/
theorem Queue.settle_run {q : Queue} (hs : q.st = .disabled) (he : q.en = true) :
    (q.settle true).st = .running ∧ (q.settle true).cfg = q.cfg ∧ (q.settle true).base = q.base := by
  by_cases hf : q.flr = true ∧ q.retire = q.head
  · rw [Queue.settle_of_flr hf]
    exact ⟨if_pos ⟨rfl, he, rfl⟩, rfl, rfl⟩
  · rw [Queue.settle_of_live hf (by simp [hs])]
    exact ⟨if_pos ⟨hs, he, rfl⟩, rfl, rfl⟩

/-- A Draining queue whose EN is 0 is Disabled once its jobs have retired. -/
theorem Queue.settle_drain {q : Queue} (hs : q.st = .draining) (he : q.en = false) (hf : q.flr = false) (ready : Bool) :
    (q.settle ready).st = (if q.retire = q.head then .disabled else .draining) ∧ (q.settle ready).cfg = q.cfg ∧
      (q.settle ready).tail = q.tail := by
  have hf' : ¬ (q.flr = true ∧ q.retire = q.head) := by simp [hf]
  by_cases hr : q.retire = q.head
  · rw [Queue.settle_of_drained hf' ⟨hs, hr⟩, if_pos hr]
    exact ⟨if_neg fun h => by simp [show ({ q with st := .disabled } : Queue).en = false from he] at h, rfl, rfl⟩
  · rw [Queue.settle_of_live hf' fun h => hr h.2, if_neg hr]
    exact ⟨(if_neg fun h => by simp [hs] at h).trans hs, rfl, rfl⟩

/-- A queue that has been reset keeps its QCFG, and its indices and its error are 0. -/
theorem Queue.settle_cleared (q : Queue) (ready : Bool) : (q.cleared.settle ready).head = 0 ∧ (q.cleared.settle ready).tail = 0 ∧
    (q.cleared.settle ready).retire = 0 ∧ (q.cleared.settle ready).err = 0 ∧ (q.cleared.settle ready).cfg = q.cfg := by
  rw [Queue.settle_of_live (by simp [Queue.cleared]) (by simp [Queue.cleared])]
  exact ⟨rfl, rfl, rfl, rfl, rfl⟩

theorem State.queue_settleQueue (s : State) (n : Nat) (q : Queue) : (s.settleQueue n q).queue n = q.settle s.board.ready :=
  State.queue_setQueue_self ..

/-- QUEUE_ENABLE of a Disabled queue of a READY part. -/
theorem State.enabled_queue {s : State} {n l : Nat} {d : W64} (hd : d.getLsbD 0 = true) (hs : (s.queue n).st = .disabled)
    (hr : s.board.ready = true) :
    let q := (s.settleQueue n ((s.queue n).writeCfg (.pf l) d)).queue n
    q.st = .running ∧ q.en = true ∧ q.base = (s.queue n).base := by
  have he := (s.queue n).writeCfg_en (.pf l) d
  obtain ⟨cfg, hc⟩ := (s.queue n).writeCfg_of (.pf l) d
  rw [if_neg (by simp [hs])] at hc
  obtain ⟨hst, hcfg, hbase⟩ := Queue.settle_run (q := (s.queue n).writeCfg (.pf l) d) (by rw [hc]; exact hs) (by rw [he, hd])
  dsimp only
  rw [State.queue_settleQueue, hr]
  exact ⟨hst, by rw [Queue.en, hcfg]; exact he.trans hd, by rw [hbase, hc]⟩

/-- QUEUE_DISABLE of a Running queue. -/
theorem State.disabled_queue {s : State} {n l : Nat} {d : W64} (hd : d.getLsbD 0 = false) (hs : (s.queue n).st = .running)
    (hf : (s.queue n).flr = false) :
    let q := (s.settleQueue n ((s.queue n).writeCfg (.pf l) d)).queue n
    q.st = (if (s.queue n).retire = (s.queue n).head then .disabled else .draining) ∧ q.en = false ∧ q.tail = (s.queue n).tail := by
  have he := (s.queue n).writeCfg_en (.pf l) d
  obtain ⟨cfg, hc⟩ := (s.queue n).writeCfg_of (.pf l) d
  rw [if_pos ⟨hs, by rw [hd]; rfl⟩] at hc
  obtain ⟨hst, hcfg, htail⟩ := Queue.settle_drain (q := (s.queue n).writeCfg (.pf l) d) (by rw [hc]) (by rw [he, hd]) (by rw [hc]; exact hf)
    s.board.ready
  dsimp only
  rw [State.queue_settleQueue]
  exact ⟨by rw [hst, hc], by rw [Queue.en, hcfg]; exact he.trans hd, by rw [htail, hc]⟩

/-! QCTL (R71, R73). -/

theorem State.rowOf_qctl (s : State) {n : Nat} (hn : n < 4096) (l : Nat) (d : W64) : s.rowOf ⟨.pf l, queueOff n 0x28, 8, d⟩ =
    if d.getLsbD 0 then "QCTL_KILL" else if d.getLsbD 1 then "QCTL_RESET" else "REGISTER_WRITE" := by
  rw [State.rowOf_queueOff hn (by decide) rfl s (.pf l) d rfl]
  simp [queueRow, queueReg_queueOff (n := n) (o := 0x28) (by decide) rfl]

theorem execQctlKill_next {s : State} {l : Nat} (hl : s.hostServes l = true) {n : Nat} (hn : n < 4096) {d : W64} (h0 : d.getLsbD 0 = true)
    (h1 : d.getLsbD 1 = false) : exec (.qctlKill ⟨.pf l, queueOff n 0x28, 8, d⟩) s = .next (s.killQueue n) :=
  State.hostWrite_next hl (by rw [State.rowOf_qctl s hn, if_pos h0]) (by rw [State.regWrite_qctl s hn, State.writeQctl, h0, h1]; rfl)

theorem execQctlReset_next {s : State} {l : Nat} (hl : s.hostServes l = true) {n : Nat} (hn : n < 4096) {d : W64} (h0 : d.getLsbD 0 = false)
    (h1 : d.getLsbD 1 = true) : exec (.qctlReset ⟨.pf l, queueOff n 0x28, 8, d⟩) s = .next (s.settleQueue n (s.queue n).reset) :=
  State.hostWrite_next hl (by rw [State.rowOf_qctl s hn, h0, h1]; rfl) (by rw [State.regWrite_qctl s hn, State.writeQctl, h0, h1]; rfl)

theorem execPoisonedRegisterWrite_queue {s : State} {l : Nat} (hl : s.hostServes l = true) {n o : Nat} (hn : n < 4096) (ho : o < 0x38)
    (v : V512) : exec (.poisonedRegisterWrite (.pf l) (queueOff n o) v) s = .next (s.setQueue n ((s.queue n).error 6)) := by
  have hin := inQueues_queueOff hn (show o < 64 by omega)
  have hat := queueAt_queueOff (n := n) (show o < 64 by omega)
  have hlt : queueOff n o < 0x800000 := by simp only [queueOff]; omega
  have hmod : queueOff n o % 64 < 0x38 := by simp only [queueOff]; omega
  have hp : s.present (.pf l) = true := hl
  show execPoisonedRegisterWrite _ _ _ _ = _
  simp [execPoisonedRegisterWrite, hp, hin, hat, hlt, hmod, State.seesQueue, State.poisonQueue]

end Sys2Proof.Machine
end

section
/-! Jobs that fail and jobs that are killed (R73, R76, R108, R110, R136). -/

namespace Sys2Proof.Machine

/-- A job that has ended with a failure (R76, R79): the first failure to reach it stands. -/
def Job.failed (b : Job) (status cause : Nat) : Job :=
  { b with st := .ended, fail := b.fail.or (some (status, cause)), started := true, passes := 0, held := none, victims := [],
           target := none, everLoaded := true }

theorem State.failJob_jobs (s : State) (j status cause : Nat) :
    (s.failJob j status cause).jobs = Tab.set s.jobs j ((s.job j).failed status cause) := by
  unfold State.failJob
  dsimp only
  split <;> rfl

theorem State.failJob_leaseFree (s : State) (j status cause : Nat) : (s.failJob j status cause).kiln.leaseFree = s.kiln.leaseFree := by
  unfold State.failJob
  dsimp only
  split <;> rfl

theorem State.failJob_keeps (s : State) (j status cause : Nat) : (s.failJob j status cause).queues = s.queues ∧
    (s.failJob j status cause).blocks = s.blocks := by
  unfold State.failJob
  dsimp only
  split <;> exact ⟨rfl, rfl⟩

theorem State.job_failJob_self (s : State) (j status cause : Nat) : (s.failJob j status cause).job j = (s.job j).failed status cause := by
  rw [State.job, State.failJob_jobs]
  exact Tab.get_set_self ..

/-- A part with one job has that job. -/
theorem State.job_of_sole {s : State} {j : Nat} {b : Job} (h : s.jobs = [(j, b)]) : s.job j = b := by simp [State.job, h, Tab.get]

theorem Tab.set_sole {α : Type} (j : Nat) (a b : α) : Tab.set [(j, a)] j b = [(j, b)] := by simp [Tab.set, Tab.erase, Tab.insert]

/-- A job is among its own ancestors. -/
theorem State.isAncestor_self (s : State) (j : Nat) : s.isAncestor j j = true := by
  have hkeep : ∀ (l : List Nat) (x : Option Nat × Bool), x.2 = true →
      (l.foldl (fun (x : Option Nat × Bool) _ => (x.1.bind (fun k => (s.job k).parent), x.2 || x.1 = some j)) x).2 = true := by
    intro l
    induction l with
    | nil => exact fun _ h => h
    | cons n t ih => exact fun x h => ih _ (by simp [h])
  rw [State.isAncestor, List.range_succ_eq_map, List.foldl_cons]
  exact hkeep _ _ (by simp)

theorem State.live_of_find {s : State} {j : Nat} {b : Job} (h : Tab.find s.jobs j = some b) (hs : b.st ≠ .ended) : s.live j = true := by
  rw [State.live, h]
  cases hb : b.st with
  | ended => exact absurd hb hs
  | _ => simp [hb, JState.over]

theorem State.find_of_sole {s : State} {j : Nat} {b : Job} (h : s.jobs = [(j, b)]) : Tab.find s.jobs j = some b := by
  simp [h, Tab.find]

theorem State.returnLease_jobs (s : State) (j : Nat) : (s.returnLease j).jobs = Tab.set s.jobs j { s.job j with lease := 0 } := rfl

theorem State.returnLease_leaseFree (s : State) (j : Nat) :
    (s.returnLease j).kiln.leaseFree = satAdd ((2 ^ 32 - 1) * 1000) s.kiln.leaseFree (s.job j).lease := rfl

/-- The kill of a live job that is not Stalled (R73, R136): it ends with KILLED, and its lease goes back to the pool. -/
theorem State.killOne_sole {s : State} {j : Nat} {b : Job} (h : s.jobs = [(j, b)]) (hs : b.st = .waiting) :
    (s.killOne j).jobs = [(j, { b.failed stKilled 0 with lease := 0 })] ∧
      (s.killOne j).kiln.leaseFree = min ((2 ^ 32 - 1) * 1000) (s.kiln.leaseFree + b.lease) := by
  have hd : ((s.dropWaits j).dropGraph j).ledger = s.ledger := State.dropGraph_ledger ..
  have hj : ((s.dropWaits j).dropGraph j).jobs = [(j, b)] := (State.jobs_of_ledger hd).trans h
  have hf : (((s.dropWaits j).dropGraph j).failJob j stKilled 0).jobs = [(j, b.failed stKilled 0)] := by
    rw [State.failJob_jobs, State.job_of_sole hj, hj, Tab.set_sole]
  have hlease : (((s.dropWaits j).dropGraph j).failJob j stKilled 0).kiln.leaseFree = s.kiln.leaseFree :=
    (State.failJob_leaseFree ..).trans (State.leaseFree_of_ledger hd)
  have hk : s.killOne j = (((s.dropWaits j).dropGraph j).failJob j stKilled 0).returnLease j := by
    simp [State.killOne, State.live_of_find (State.find_of_sole h) (by simp [hs]), State.job_of_sole h, hs]
  rw [hk, State.returnLease_jobs, State.returnLease_leaseFree, hlease, State.job_of_sole hf, hf, Tab.set_sole]
  exact ⟨rfl, rfl⟩

/-- A refresh leaves a job that is neither a candidate nor one that could be. -/
theorem State.refreshJob_of_other {s : State} {k : Nat} (h1 : (s.job k).st ≠ .waiting) (h2 : (s.job k).st ≠ .candidate)
    (h3 : (s.job k).st ≠ .parked) (h4 : (s.job k).st ≠ .stalled) : s.refreshJob k = s := by
  simp [State.refreshJob, h1, h2, h3, h4]

/-- With one job, which has ended, a refresh leaves the jobs and the pool of leases. -/
theorem State.refresh_of_ended {s : State} {j : Nat} {b : Job} (h : s.jobs = [(j, b)]) (hs : b.st = .ended) :
    s.refresh.jobs = s.jobs ∧ s.refresh.kiln.leaseFree = s.kiln.leaseFree := by
  have hst : (s.job j).st = .ended := by rw [State.job_of_sole h, hs]
  have hr : (s.jobs.map (·.1)).foldl State.refreshJob s = s := by
    rw [h]
    exact State.refreshJob_of_other (by simp [hst]) (by simp [hst]) (by simp [hst]) (by simp [hst])
  rw [State.refresh, hr]
  exact ⟨rfl, rfl⟩

/-- With one job, which is not earmarked, there is nothing to settle. -/
theorem State.settleEarmarks_of_sole {s : State} {j : Nat} {b : Job} (h : s.jobs = [(j, b)]) (hs : b.st ≠ .earmarked) :
    s.settleEarmarks = s := by
  refine State.settleEarmarks_of_none fun k => ?_
  rw [State.job, h, Tab.get]
  split
  · exact hs
  · exact JState.noConfusion

/-- QCTL.KILL of a queue whose one job waits (R73, R110, R136). -/
theorem State.killQueue_sole {s : State} {n j : Nat} {b : Job} (h : s.jobs = [(j, b)]) (hp : b.parent = none) (hq : b.queue = n)
    (hs : b.st = .waiting) : (s.killQueue n).job j = { b.failed stKilled 0 with lease := 0 } ∧
      (s.killQueue n).kiln.leaseFree = min ((2 ^ 32 - 1) * 1000) (s.kiln.leaseFree + b.lease) := by
  obtain ⟨hjobs, hlease⟩ := State.killOne_sole h hs
  have hk : (s.queueJobs n).foldl State.killJob s = s.killOne j := by
    simp [State.queueJobs, h, hp, hq, State.killJob, State.isAncestor_self]
  have hne : (({ b.failed stKilled 0 with lease := 0 } : Job)).st ≠ .earmarked := JState.noConfusion
  obtain ⟨hr, hl⟩ := State.refresh_of_ended hjobs rfl
  rw [State.killQueue, hk, State.settleEarmarks_of_sole hjobs hne]
  exact ⟨State.job_of_sole (hr.trans hjobs), hl.trans hlease⟩

end Sys2Proof.Machine
end

section
/-! The writes of a queue's registers (R67 to R73). -/

namespace Sys2Proof.Machine

theorem queueWrites : Claims.QueueWrites := by
  intro s l n d hl hn
  dsimp only
  have hw : s.seesQueue (.pf l) n = true := rfl
  have htail := execQtailWrite_next s hn (w := .pf l) hl hw d
  rw [Queue.writeTail_host] at htail
  refine ⟨fun h1 h2 => ?_, fun h => ?_, fun h1 h2 => ?_, fun h => ?_, fun hd hs hr => ?_, fun hd hs hf => ?_, fun j b h0 h1 hj hp hq hs _ => ?_,
    fun h0 h1 hs => ?_, fun v => ?_⟩
  · rw [if_neg (by omega), if_neg (by omega)] at htail
    exact htail
  · rw [if_pos h] at htail
    exact htail
  · rw [if_neg (by omega), if_pos h2] at htail
    exact htail
  · exact (execQtailWrite_next s hn (w := .actor false) rfl rfl d).trans (by rw [Queue.writeTail_actor h]; rfl)
  · obtain ⟨hst, hen, hbase⟩ := State.enabled_queue (l := l) hd hs hr
    exact ⟨_, execQueueEnable_next hl hn hd, hst, hen, hbase, rfl⟩
  · obtain ⟨hst, hen, htl⟩ := State.disabled_queue (l := l) hd hs hf
    exact ⟨_, execQueueDisable_next hl hn hd, hst, hen, htl⟩
  · obtain ⟨hjob, hlease⟩ := State.killQueue_sole hj hp hq hs
    exact ⟨_, execQctlKill_next hl hn h0 h1, by rw [hjob]; rfl, by rw [hjob]; rfl, hlease⟩
  · refine ⟨_, execQctlReset_next hl hn h0 h1, ?_⟩
    rw [State.queue_settleQueue, Queue.reset, if_pos (.inl hs)]
    exact Queue.settle_cleared ..
  · exact execPoisonedRegisterWrite_queue hl hn (by decide) v

end Sys2Proof.Machine
end

section
/-! Writes of registers outside the queues (R59, R60): the row and the effect by the offset. -/

namespace Sys2Proof.Machine

/-- Offsets of doublewords that no queue has (R59). -/
def plainOff (off : Nat) : Prop := off % 8 = 0 ∧ (off < 0x100000 ∨ 0x140000 ≤ off)

theorem plainOff.aligned {off : Nat} (h : plainOff off) : regAligned off 8 = true := regAligned_whole h.1
theorem plainOff.doubleword {off : Nat} (h : plainOff off) : off / 8 * 8 = off := Nat.div_mul_cancel (Nat.dvd_of_mod_eq_zero h.1)
theorem plainOff.notQueue {off : Nat} (h : plainOff off) : inQueues off = false := by
  obtain ⟨-, h⟩ := h
  simp [inQueues]
  omega

section
variable (s : State) {w : Who} (hw : whoWhole w = true) {off : Nat} (h : plainOff off) (d : W64)

include hw h in
/-- The block that a write of eight bytes takes effect in. -/
theorem State.regWrite_plain : s.regWrite ⟨w, off, 8, d⟩ =
    if off < 0x10000 then s.writeBoard w off d d
    else if off < 0x20000 then s.writeKiln w (off - 0x10000) d d
    else if 0x200000 ≤ off ∧ off < 0x220000 then s.writeLink (off - 0x200000) 8 d d
    else if 0x400000 ≤ off ∧ off < 0x500000 then s.writeMem (off - 0x400000) d
    else if 0x600000 ≤ off ∧ off < 0x610000 then (if whoSecure w = true then s.writeWorld (off - 0x600000) 8 d else s)
    else if 0x700000 ≤ off ∧ off < 0x710000 then s.writeFault w (off - 0x700000) d d
    else s := by
  simp [State.regWrite, h.aligned, h.doubleword, h.notQueue, hw]

include hw h in
/-- The row of a write of eight bytes outside BCTL. -/
theorem State.rowOf_plain (h8 : off ≠ 8) : s.rowOf ⟨w, off, 8, d⟩ =
    if 0x1000 ≤ off ∧ off < 0x2000 then (if w = .pf 0 then s.mailRow off d d else "REGISTER_WRITE")
    else if off = 0x2018 then (if (d.getLsbD 31 = true ∧ s.flux = none) ∧ fld d 30 29 ≠ 3 then "FLUX_START" else "REGISTER_WRITE")
    else if off = 0x2020 then (if d.getLsbD 16 = true then "TICKET_FAIL" else "TICKET_RETRY")
    else if off = 0x10018 then "KLREFILL"
    else if off = 0x10030 then "LEASE_ADD"
    else if 0x210000 ≤ off ∧ off < 0x218000 then s.peerRow ((off - 0x210000) / 8) d
    else if 0x200000 ≤ off ∧ off < 0x210000 then "REGISTER_WRITE"
    else if 0x600000 ≤ off ∧ off < 0x600500 then "WORLD_TABLE_WRITE"
    else "REGISTER_WRITE" := by
  unfold State.rowOf
  dsimp only [mergeWrite_whole]
  simp [h.aligned, h.doubleword, h.notQueue, h8, hw]

end

end Sys2Proof.Machine
end

section
/-! Writes of the board, the Kiln and the assay window by a host (R59, R110, R143, R298), and fluxes (R240). -/

namespace Sys2Proof.Machine

section
variable {s : State} {l : Nat} (hl : s.hostServes l = true) (d : W64)

include hl in
theorem execRegisterWrite_asel : exec (.registerWrite ⟨.pf l, 0x701000, 8, d⟩) s =
    .next { s with board := { s.board with asel := min 4351 (fld d 12 0) } } :=
  State.hostWrite_next hl (by rw [State.rowOf_plain s rfl (by simp [plainOff]) d (by decide)]; simp)
    (by rw [State.regWrite_plain s rfl (by simp [plainOff])]; simp [State.writeFault])

include hl in
theorem execRegisterWrite_klctl : exec (.registerWrite ⟨.pf l, 0x10008, 8, d⟩) s =
    .next { s with kiln := { s.kiln with halt := d.getLsbD 2, weldEn := d.getLsbD 1, preempt := d.getLsbD 0 } } :=
  State.hostWrite_next hl (by rw [State.rowOf_plain s rfl (by simp [plainOff]) d (by decide)]; simp)
    (by rw [State.regWrite_plain s rfl (by simp [plainOff])]; simp [State.writeKiln])

include hl in
/-- An offset that no block defines (R59). -/
theorem execRegisterWrite_nowhere : exec (.registerWrite ⟨.pf l, 0x500000, 8, d⟩) s = .next s :=
  State.hostWrite_next hl (by rw [State.rowOf_plain s rfl (by simp [plainOff]) d (by decide)]; simp)
    (by rw [State.regWrite_plain s rfl (by simp [plainOff])]; simp)

include hl in
theorem execPoisonedRegisterWrite_klctl (v : V512) : exec (.poisonedRegisterWrite (.pf l) 0x10008 v) s = .next s := by
  have hp : s.present (.pf l) = true := hl
  show execPoisonedRegisterWrite _ _ _ _ = _
  simp [execPoisonedRegisterWrite, hp, inQueues]

include hl in
theorem execKlrefill_next : exec (.klrefill ⟨.pf l, 0x10018, 8, d⟩) s = .next (s.refill (.pf l) d) :=
  State.hostWrite_next hl (by rw [State.rowOf_plain s rfl (by simp [plainOff]) d (by decide)]; simp)
    (by rw [State.regWrite_plain s rfl (by simp [plainOff])]; simp [State.writeKiln])

include hl in
theorem execLeaseAdd_next : exec (.leaseAdd ⟨.pf l, 0x10030, 8, d⟩) s =
    .next { s with kiln := { s.kiln with leaseFree := satAdd ((2 ^ 32 - 1) * 1000) s.kiln.leaseFree (1000 * fld d 31 0) } } :=
  State.hostWrite_next hl (by rw [State.rowOf_plain s rfl (by simp [plainOff]) d (by decide)]; simp)
    (by rw [State.regWrite_plain s rfl (by simp [plainOff])]; simp [State.writeKiln])

/-- TRSVC of a host reaches the ticket that it names. -/
theorem State.regWrite_trsvc (s : State) (l : Nat) (d : W64) : s.regWrite ⟨.pf l, 0x2020, 8, d⟩ = s.serviceTicket false d := by
  rw [State.regWrite_plain s rfl (by simp [plainOff])]
  simp [State.writeBoard, whoSecure]

theorem State.rowOf_trsvc (s : State) (l : Nat) (d : W64) : s.rowOf ⟨.pf l, 0x2020, 8, d⟩ =
    if d.getLsbD 16 = true then "TICKET_FAIL" else "TICKET_RETRY" := by
  rw [State.rowOf_plain s rfl (by simp [plainOff]) d (by decide)]
  simp

include hl in
theorem execTicketRetry_next (hd : d.getLsbD 16 = false) : exec (.ticketRetry ⟨.pf l, 0x2020, 8, d⟩) s = .next (s.serviceTicket false d) :=
  State.hostWrite_next hl (by rw [State.rowOf_trsvc, hd]; rfl) (State.regWrite_trsvc s l d)

include hl in
theorem execTicketFail_next (hd : d.getLsbD 16 = true) : exec (.ticketFail ⟨.pf l, 0x2020, 8, d⟩) s = .next (s.serviceTicket false d) :=
  State.hostWrite_next hl (by rw [State.rowOf_trsvc, hd]; rfl) (State.regWrite_trsvc s l d)

include hl in
theorem execFluxStart_next (h31 : d.getLsbD 31 = true) (hf : s.flux = none) (h3 : fld d 30 29 ≠ 3) :
    exec (.fluxStart ⟨.pf l, 0x2018, 8, d⟩) s = .next (s.startFlux d) :=
  State.hostWrite_next hl (by rw [State.rowOf_plain s rfl (by simp [plainOff]) d (by decide)]; simp [h31, hf, h3])
    (by rw [State.regWrite_plain s rfl (by simp [plainOff])]; simp [State.writeBoard])

end

/-- A write of TRINVC starts a flux (R240): its range begins at a page of its size. -/
theorem State.startFlux_flux {s : State} {d : W64} (h31 : d.getLsbD 31 = true) (hf : s.flux = none) (h3 : fld d 30 29 ≠ 3) :
    ∃ x, (s.startFlux d).flux = some x ∧ x.scope = fld d 30 29 ∧ x.pasid = fld d 19 0 ∧ x.va % 2 ^ x.sh = 0 ∧ x.left = List.range 256 ∧
      x.ats = none := by
  simp only [State.startFlux, if_neg h3, h31, hf]
  simp [Nat.mod_eq_zero_of_dvd, Nat.dvd_sub_mod]

end Sys2Proof.Machine
end

section
/-! TRSVC for a firing that waits on a ticket (R230, R232). -/

namespace Sys2Proof.Machine

open Claims

/-- A firing whose access waited on a ticket goes on. -/
theorem State.freeFiring_of {s : State} {n j aid k : Nat} {f : Firing} (page : Option Nat) (hg : s.hasGraph j = true)
    (hh : (s.actor j aid).held = []) (hf : s.firingOf j aid = some (k, f)) (ht : f.ticket = some n) :
    s.freeFiring n j aid page = withFiring s k { f with ticket := none, again := none, failed := f.failed ++ page.toList } := by
  simp [State.freeFiring, hg, hh, hf, ht]
  rfl

theorem State.firingOf_of_frame {s u : State} (h : u.frame = s.frame) (j aid : Nat) : u.firingOf j aid = s.firingOf j aid :=
  (congrArg (fun x : State => x.firingOf j aid) h :)

theorem State.hasGraph_of_frame {s u : State} (h : u.frame = s.frame) (j : Nat) : u.hasGraph j = s.hasGraph j :=
  (congrArg (fun x : State => x.hasGraph j) h :)

theorem State.actor_of_frame {s u : State} (h : u.frame = s.frame) (j aid : Nat) : u.actor j aid = s.actor j aid :=
  (congrArg (fun x : State => x.actor j aid) h :)

/-- The waiting access of a firing walks again and translates. -/
theorem State.retryFiring_ok {s x : State} {n j aid k va pa : Nat} {w : Bool} {f : Firing} (hg : s.hasGraph j = true)
    (hh : (s.actor j aid).held = []) (hf : s.firingOf j aid = some (k, f)) (ht : f.ticket = some n) (ha : f.again = some (va, w))
    (hx : s.translate (s.pasidOf j) va w (.firing j aid none) = (.ok pa, x)) :
    State.retryFiring n s j aid = withFiring x k { f with ticket := none, again := none } := by
  have hfr : x.frame = s.frame := by
    have h := s.translate_frame (s.pasidOf j) va w (.firing j aid none)
    rwa [hx] at h
  have hw : s.walkAgain j f.again (.firing j aid none) = (none, x) := by simp [State.walkAgain, ha, hx]
  have hfree := State.freeFiring_of (s := x) none ((State.hasGraph_of_frame hfr j).trans hg) (by rw [State.actor_of_frame hfr, hh])
    ((State.firingOf_of_frame hfr j aid).trans hf) ht
  simp only [State.retryFiring, hf, ht, hw, hfree]
  simp

theorem State.serviceTicket_of_find {s : State} {d : W64} {t : Ticket} (h : Tab.find s.tickets (fld d 9 0) = some t) (hw : t.world = false) :
    s.serviceTicket false d = if d.getLsbD 16 then s.failTicket (fld d 9 0) else s.retryTicket (fld d 9 0) := by
  simp [State.serviceTicket, h, hw]

end Sys2Proof.Machine
end

section
/-! The writes of registers other than those of queues (R59, R110, R143, R230, R240). -/

namespace Sys2Proof.Machine

open Claims

theorem otherWrites : Claims.OtherWrites := by
  intro s l d hl
  dsimp only
  refine ⟨execRegisterWrite_asel hl d, execRegisterWrite_klctl hl d, execRegisterWrite_nowhere hl d, execPoisonedRegisterWrite_klctl hl,
    fun j n hq hs ha => ?_, execLeaseAdd_next hl d, fun t j aid k f ht hw hwt hg hh hf hft => ?_, fun h31 hf h3 => ?_⟩
  · rw [execKlrefill_next hl d]
    simp [State.refill, hs, hq, ha, satAdd]
  · have hu : State.frame { s with tickets := Tab.erase s.tickets (fld d 9 0) } = s.frame := rfl
    refine ⟨fun va w pa x h16 ha hx => ?_, fun h16 => ?_⟩
    · have hr := State.retryFiring_ok (s := { s with tickets := Tab.erase s.tickets (fld d 9 0) }) hg hh hf hft ha hx
      rw [execTicketRetry_next hl d h16, State.serviceTicket_of_find ht hw, h16]
      simp [State.retryTicket, ht, hwt, State.retryWaiter, hr]
    · have hr := State.freeFiring_of (s := { s with tickets := Tab.erase s.tickets (fld d 9 0) }) (some t.page) hg hh hf hft
      rw [execTicketFail_next hl d h16, State.serviceTicket_of_find ht hw, h16]
      simp [State.failTicket, ht, hwt, State.failedStreams, State.failWaiter, hr]
  · obtain ⟨x, hx, hscope, hpasid, hva, hleft, hats⟩ := State.startFlux_flux h31 hf h3
    exact ⟨_, x, execFluxStart_next hl d h31 hf h3, hx, hscope, hpasid, hva, hleft, hats, State.startFlux_mem s d⟩

end Sys2Proof.Machine
end

section
/-! The writes of a peer's entry and of a link port's control (R28, R30, R31, R33). -/

namespace Sys2Proof.Machine

/-- The offset of a peer's entry (R33). -/
def peerOff (q : Nat) : Nat := 0x210000 + 8 * q

theorem plainOff_peerOff (q : Nat) : plainOff (peerOff q) := by
  simp only [plainOff, peerOff]
  omega

section
variable {q : Nat} (hq : q < 4096)

include hq in
theorem peerOff_bounds : 0x210000 ≤ peerOff q ∧ peerOff q < 0x218000 := by
  simp only [peerOff]
  omega

theorem peerOff_index : (peerOff q - 0x210000) / 8 = q := by
  simp only [peerOff]
  omega

include hq in
theorem State.rowOf_peerOff (s : State) (l : Nat) (d : W64) : s.rowOf ⟨.pf l, peerOff q, 8, d⟩ = s.peerRow q d := by
  have hb := peerOff_bounds hq
  rw [State.rowOf_plain s rfl (plainOff_peerOff q) d (by omega), if_neg (by omega), if_neg (by omega), if_neg (by omega),
    if_neg (by omega), if_neg (by omega), if_pos hb, peerOff_index]

include hq in
theorem State.regWrite_peerOff (s : State) (l : Nat) (d : W64) : s.regWrite ⟨.pf l, peerOff q, 8, d⟩ = s.writePeer q d d := by
  have hb := peerOff_bounds hq
  have hi : ((peerOff q - 0x200000) / 8 * 8 - 0x10000) / 8 = q := by simp only [peerOff]; omega
  rw [State.regWrite_plain s rfl (plainOff_peerOff q), if_neg (by omega), if_neg (by omega), if_pos (by omega), State.writeLink,
    if_pos (by omega), hi]

end

/-- A peer's entry with the fields that a write stores (R33). -/
def Peer.written (p : Peer) (d : W64) : Peer :=
  { p with busy := if fld d 55 46 = 0 then p.busy else 0, ibudget := max 1 (fld d 25 16), obudget := max 1 (fld d 15 6),
           ordpath := d.getLsbD 5, fewin := d.getLsbD 4, poison := d.getLsbD 3 }

theorem State.writePeer_eq (s : State) (q : Nat) (d : W64) :
    s.writePeer q d d = (s.setPeer q ((s.peer q).written d)).peerState q (fld d 1 0) := rfl

/-- A peer that is not active becomes active (R30). -/
theorem State.peerState_active {s : State} {q : Nat} (h : (s.peer q).st ≠ .active) :
    s.peerState q 1 = s.setPeer q { s.peer q with st := .active, ocount := 0 } := by
  cases hs : (s.peer q).st with
  | active => exact absurd hs h
  | disabled => simp [State.peerState, hs]
  | isolated => simp [State.peerState, hs]

theorem State.peerState_isolated {s : State} {q : Nat} (h : (s.peer q).st = .isolated) :
    s.peerState q 0 = s.setPeer q { s.peer q with st := .disabled } := by simp [State.peerState, h]

theorem State.peerState_disabled {s : State} {q : Nat} (h : (s.peer q).st = .active) : s.peerState q 0 =
    (s.setPeer q { s.peer q with st := .disabled, epoch := ((s.peer q).epoch + 1) % 256 }).failRequests q := by
  simp [State.peerState, h]

/-- Failing every request to a peer leaves its entry with no request outstanding (R28). -/
theorem State.peer_failRequests (s : State) (q : Nat) : (s.failRequests q).peer q = { s.peer q with ocount := 0 } :=
  State.peer_setPeer_self ..

theorem State.peerRow_activate {s : State} {q : Nat} {d : W64} (hd : fld d 1 0 = 1) (h : (s.peer q).st ≠ .active) :
    s.peerRow q d = "PEER_ACTIVATE" := by
  cases hs : (s.peer q).st with
  | active => exact absurd hs h
  | disabled => simp [State.peerRow, hs, hd]
  | isolated => simp [State.peerRow, hs, hd]

theorem State.peerRow_disable {s : State} {q : Nat} {d : W64} (hd : fld d 1 0 = 0) (h : (s.peer q).st ≠ .disabled) :
    s.peerRow q d = "PEER_DISABLE" := by
  cases hs : (s.peer q).st with
  | disabled => exact absurd hs h
  | active => simp [State.peerRow, hs, hd]
  | isolated => simp [State.peerRow, hs, hd]

/-- The offset of a link port's control (R31). -/
def linkOff (n : Nat) : Nat := 0x200000 + 64 * n

section
variable (s : State) (l : Nat) {n : Nat} (hn : n < 48) (d : W64)

include hn in
theorem lkReg_linkOff : lkReg (linkOff n - 0x200000) = some (.ctl n) := by
  have ho : linkOff n - 0x200000 = 64 * n := Nat.add_sub_cancel_left ..
  rw [ho, lkReg, if_neg (by omega), if_pos (by omega)]
  simp

include hn in
theorem inQueues_linkOff : inQueues (linkOff n) = false := by
  have h : ¬ linkOff n < 0x140000 := by simp only [linkOff]; omega
  simp [inQueues, h]

theorem linkOff_aligned : regAligned (linkOff n) 4 = true := by
  have h : linkOff n % 4 = 0 := by simp only [linkOff]; omega
  simp [regAligned, h]

theorem linkOff_doubleword : linkOff n / 8 * 8 = linkOff n := by
  simp only [linkOff]
  omega

include hn in
theorem State.rowOf_linkOff : s.rowOf ⟨.pf l, linkOff n, 4, d⟩ = if d.getLsbD 2 = true then "LINK_PORT_ENABLE" else "LINK_PORT_DISABLE" := by
  have hreg := lkReg_linkOff hn
  have hq := inQueues_linkOff hn
  have hlo : 0x200000 ≤ linkOff n ∧ linkOff n < 0x210000 := by simp only [linkOff]; omega
  unfold State.rowOf
  simp only [linkOff_aligned, linkOff_doubleword, hq, hreg, whoWhole, Bool.not_true, Bool.false_eq_true, if_false]
  rw [if_neg (by omega), if_neg (by omega), if_neg (by omega), if_neg (by omega), if_neg (by omega), if_neg (by omega), if_neg (by omega),
    if_pos hlo]

include hn in
theorem State.regWrite_linkOff : s.regWrite ⟨.pf l, linkOff n, 4, d⟩ = s.setLinkPort n { s.linkPort n with en := d.getLsbD 2 } := by
  have hreg := lkReg_linkOff hn
  have hq := inQueues_linkOff hn
  have hlo : 0x200000 ≤ linkOff n ∧ linkOff n < 0x210000 := by simp only [linkOff]; omega
  unfold State.regWrite
  simp only [linkOff_aligned, linkOff_doubleword, hq, whoWhole, Bool.not_true, Bool.false_eq_true, if_false]
  rw [if_neg (by omega), if_neg (by omega), if_pos (by omega), if_pos ⟨trivial, hlo.2⟩, State.writeLink,
    if_neg (by omega), if_neg (by simp), hreg]

end

theorem linkWrites : Claims.LinkWrites := by
  intro s l d hl
  refine ⟨fun q hq => ⟨fun hd hs => ?_, fun hd hs => ?_, fun hd hs => ?_⟩, fun n hn => ⟨fun hd => ?_, fun hd => ?_⟩⟩
  · refine ⟨_, State.hostWrite_next hl ((s.rowOf_peerOff hq l d).trans (State.peerRow_activate hd hs)) (s.regWrite_peerOff hq l d), ?_⟩
    have hw : ((s.setPeer q ((s.peer q).written d)).peer q).st ≠ .active := by rw [State.peer_setPeer_self]; exact hs
    rw [State.writePeer_eq, hd, State.peerState_active hw, State.peer_setPeer_self, State.peer_setPeer_self]
    exact ⟨rfl, rfl, rfl, rfl, rfl, rfl, rfl⟩
  · refine ⟨_, State.hostWrite_next hl ((s.rowOf_peerOff hq l d).trans (State.peerRow_disable hd (by simp [hs])))
      (s.regWrite_peerOff hq l d), ?_⟩
    have hw : ((s.setPeer q ((s.peer q).written d)).peer q).st = .isolated := by rw [State.peer_setPeer_self]; exact hs
    rw [State.writePeer_eq, hd, State.peerState_isolated hw, State.peer_setPeer_self, State.peer_setPeer_self]
    exact ⟨rfl, rfl⟩
  · refine ⟨_, State.hostWrite_next hl ((s.rowOf_peerOff hq l d).trans (State.peerRow_disable hd (by simp [hs])))
      (s.regWrite_peerOff hq l d), ?_⟩
    have hw : ((s.setPeer q ((s.peer q).written d)).peer q).st = .active := by rw [State.peer_setPeer_self]; exact hs
    rw [State.writePeer_eq, hd, State.peerState_disabled hw, State.peer_failRequests, State.peer_setPeer_self, State.peer_setPeer_self]
    exact ⟨rfl, rfl, rfl⟩
  · exact State.hostWrite_next hl ((s.rowOf_linkOff l hn d).trans (by rw [hd]; rfl)) ((s.regWrite_linkOff l hn d).trans (by rw [hd]))
  · exact State.hostWrite_next hl ((s.rowOf_linkOff l hn d).trans (by rw [hd]; rfl)) ((s.regWrite_linkOff l hn d).trans (by rw [hd]))

/-- Settles O51: each write is of its row and has its effect in the block of its offset. -/
theorem registerWrites : Obligations.RegisterWrites := ⟨queueWrites, otherWrites, linkWrites⟩

end Sys2Proof.Machine
end

section
/-! The firmware mailbox (R19, R62, R66, R82, R83, R87): the start of a command and its effect. -/

namespace Sys2Proof.Machine

open Claims

/-! The start of a command: the reads of its parameter block. -/

theorem pageSpans_zero (fuel a : Nat) : pageSpans fuel a 0 = [] := by cases fuel <;> rfl

/-- The spans of a block that begins at a page (R19). -/
theorem pageSpans_aligned : ∀ (fuel a n : Nat), a % 4096 = 0 → (n + 4095) / 4096 ≤ fuel →
    pageSpans fuel a n = (List.range ((n + 4095) / 4096)).map (fun k => (a + 4096 * k, min 4096 (n - 4096 * k)))
  | 0, a, n, _, hf => by
    have h : (n + 4095) / 4096 = 0 := by omega
    simp [pageSpans, h]
  | fuel + 1, a, n, ha, hf => by
    by_cases h0 : n = 0
    · simp [pageSpans, h0]
    · simp only [pageSpans, if_neg h0]
      by_cases hn : n ≤ 4096
      · have h1 : (n + 4095) / 4096 = 1 := by omega
        have ho : n - min n (4096 - a % 4096) = 0 := by omega
        have hm : min n (4096 - a % 4096) = min 4096 n := by omega
        rw [ho, pageSpans_zero, h1, hm]
        simp
      · have hm : min n (4096 - a % 4096) = 4096 := by omega
        have hc : (n + 4095) / 4096 = (n - 4096 + 4095) / 4096 + 1 := by omega
        rw [hm, pageSpans_aligned fuel (a + 4096) (n - 4096) (by omega) (by omega), hc, List.range_succ_eq_map, List.map_cons, List.map_map]
        congr 1
        · simp; omega
        · refine List.map_congr_left fun k _ => ?_
          simp only [Function.comp, Prod.mk.injEq]
          omega

/-- What the read of a parameter block emits, one request for each span. -/
def mailReads (addr len : Nat) : List Out :=
  (pageSpans (len / 4096 + 2) addr len).map (fun b => .hostRead 0 b.1 b.2)

/-- The part once a write of the mailbox has started a command. -/
def State.mailStarted (s : State) (d : W64) : State :=
  { s with
    board := { s.board with mb := { s.board.mb with cmd := fld d 23 16, done := s.board.mb.done && !d.getLsbD 2, busy := true, result := none } },
    out := s.out ++ mailReads s.board.mb.addr.toNat s.board.mb.len.toNat }

theorem State.foldl_emit {α : Type} (f : α → Out) (l : List α) (s : State) :
    l.foldl (fun s b => s.emit (f b)) s = { s with out := s.out ++ l.map f } := by
  induction l generalizing s with
  | nil => simp
  | cons x l ih =>
    rw [List.foldl_cons, ih]
    simp [State.emit]

section
variable (s : State) (d : W64)

theorem State.regWrite_mail : s.regWrite ⟨.pf 0, 0x1000, 8, d⟩ =
    { s with board := { s.board with mb := { s.board.mb with cmd := fld d 23 16, done := s.board.mb.done && !d.getLsbD 2 } } } := by
  rw [State.regWrite_plain s rfl (by simp [plainOff])]
  simp [State.writeBoard]

theorem State.startMail_mail : s.startMail ⟨.pf 0, 0x1000, 8, d⟩ = s.mailStarted d := by
  rw [State.startMail, State.regWrite_mail]
  exact State.foldl_emit (fun b : Nat × Nat => .hostRead 0 b.1 b.2) _ _

theorem State.rowOf_mail : s.rowOf ⟨.pf 0, 0x1000, 8, d⟩ = s.mailRow 0x1000 d d := by
  rw [State.rowOf_plain s rfl (by simp [plainOff]) d (by decide)]
  simp

end

/-- The row of a write that starts a command, by the command and FWSTATE (R66). -/
def mailName (cmd fwstate : Nat) : String :=
  match cmd, fwstate with
  | 1, 0 => "LOADFW"
  | 2, 2 => "WORLDREQ"
  | 3, 2 => "ENROL"
  | 4, 2 => "SVNRAISE"
  | _, _ => "MAILBOX_BADCMD"

theorem mailName_badcmd {cmd : Nat} (h : cmd = 0 ∨ 4 < cmd) (fwstate : Nat) : mailName cmd fwstate = "MAILBOX_BADCMD" := by
  unfold mailName
  split <;> simp_all

section
variable {s : State} {cmd : Nat} {d : W64} (hw : MailWrite s cmd d)

include hw in
theorem State.mailRow_start : s.mailRow 0x1000 d d = mailName cmd s.board.fwstate := by
  obtain ⟨-, hheld, hbusy, hgo, hcmd⟩ := hw
  have h : ¬ ((0x1000 : Nat) ≠ 0x1000 ∨ (!d.getLsbD 0) = true ∨ s.board.mb.busy = true ∨ s.board.held = true) := by
    simp only [hheld, hbusy, hgo]
    decide
  rw [State.mailRow, if_neg h, hcmd]
  rfl

include hw in
/-- A command with its parameter block starts. -/
theorem State.mailRun_next {row : String} (hr : s.mailRow 0x1000 d d = row) {blk : Option (List Byte)}
    (hb : ∀ b, blk = some b → b.length = s.board.mb.len.toNat) (k : State → List Byte → State) :
    s.mailRun row ⟨.pf 0, 0x1000, 8, d⟩ blk k = .next ((s.mailStarted d).withBlock blk k) := by
  have hf : s.blockFits ⟨.pf 0, 0x1000, 8, d⟩ blk = true := by
    cases blk with
    | none => rfl
    | some b => simp [State.blockFits, State.regWrite_mail, hb b rfl]
  rw [State.mailRun, hf, Bool.not_true, if_neg (by simp),
    State.rowWrite_next _ (show s.present (.pf 0) = true from hw.1) ((s.rowOf_mail d).trans hr), State.startMail_mail]

theorem State.limitsOk_mailStarted (ha : s.board.mb.addr.toNat % 4096 = 0) (hl : s.board.mb.len.toNat ≤ 2 ^ 24) :
    (s.mailStarted d).board.mb.limitsOk = true := by
  simpa [Mailbox.limitsOk, State.mailStarted] using And.intro ha hl

/-- A parameter block within the mailbox's limits is read. -/
theorem State.withBlock_some {b : List Byte} (hb : MailBlock s b) (k : State → List Byte → State) :
    (s.mailStarted d).withBlock (some b) k = k (s.mailStarted d) b := by
  rw [State.withBlock, State.limitsOk_mailStarted hb.1 hb.2.1]
  rfl

include hw in
/-- A command whose block reads well has its effect. -/
theorem State.mailRun_some {row : String} (hr : s.mailRow 0x1000 d d = row) {b : List Byte} (hb : MailBlock s b)
    (k : State → List Byte → State) : s.mailRun row ⟨.pf 0, 0x1000, 8, d⟩ (some b) k = .next (k (s.mailStarted d) b) := by
  rw [State.mailRun_next hw hr (by rintro _ ⟨rfl⟩; exact hb.2.2), State.withBlock_some hb]

end

/-- The payload of a signed block reaches the command, and its SEQ is accepted. -/
theorem State.secureMail_signed {s : State} {b p : List Byte} (hp : MailSigned s b p) (k : State → List Byte → State) :
    s.secureMail b k = k { s with board := { s.board with mb := { s.board.mb with seq := leNat (b.take 8) + 1 } } } p := by
  obtain ⟨o, ho, hlen, hseq, hsig, hpay⟩ := hp
  have hg : ¬ (b.length < 2436 || leNat (b.take 8) + 1 ≤ s.board.mb.seq ||
      !Config.ownerVerify o (sha3 (b.take (b.length - 2420))) (asciiBytes "ALROS-MB") (b.drop (b.length - 2420))) = true := by
    rw [hsig]
    simp
    omega
  rw [State.secureMail, State.secureBlock, ho]
  dsimp only
  rw [if_neg hg, hpay]

end Sys2Proof.Machine
end

section
/-! The changes of worlds that are asked for (R6, R86, R87). -/

namespace Sys2Proof.Machine

/-- A step that leaves the value alone at every element of a list leaves it alone. -/
theorem foldl_unchanged {α β : Type} (f : β → α → β) (l : List α) (h : ∀ c ∈ l, ∀ w, f w c = w) (w : β) : l.foldl f w = w := by
  induction l with
  | nil => rfl
  | cons c l ih => rw [List.foldl_cons, h c (by simp), ih fun x hx => h x (by simp [hx])]

/-- What a change says of the world of a plot, and of a region entry. -/
def WorldChange.plotBit (p : Nat) (w : Bool) : WorldChange → Bool
  | .plot q x => if q = p then x else w
  | .region _ _ _ => w

def WorldChange.regionWords (r : Nat) (w : W64 × W64) : WorldChange → W64 × W64
  | .plot _ _ => w
  | .region q a b => if q = r then (a, b) else w

/-- Whether a change is not of a plot, and not of a region entry. -/
def WorldChange.notPlot (p : Nat) : WorldChange → Bool
  | .plot q _ => q ≠ p
  | .region _ _ _ => true

def WorldChange.notRegion (r : Nat) : WorldChange → Bool
  | .plot _ _ => true
  | .region q _ _ => q ≠ r

theorem WorldChange.plotBit_notPlot {p : Nat} {c : WorldChange} (h : c.notPlot p = true) (w : Bool) : c.plotBit p w = w := by
  cases c with
  | plot q x => exact if_neg (of_decide_eq_true h)
  | region q a b => rfl

theorem WorldChange.plotBit_plot_ne {p q : Nat} (h : q ≠ p) {c : WorldChange} (hc : c.notPlot p = false) (w : Bool) : c.plotBit q w = w := by
  cases c with
  | plot n x =>
    have hn : n = p := by simpa [WorldChange.notPlot] using hc
    exact if_neg (hn ▸ h.symm)
  | region n a b => rfl

theorem WorldChange.regionWords_notRegion {r : Nat} {c : WorldChange} (h : c.notRegion r = true) (w : W64 × W64) :
    c.regionWords r w = w := by
  cases c with
  | plot q x => rfl
  | region q a b => exact if_neg (of_decide_eq_true h)

theorem State.wantsPlot_eq (s : State) (p : Nat) :
    s.wantsPlot p = s.board.worldPend.foldl (WorldChange.plotBit p) (s.plotSecure p) := rfl

theorem State.wantsRegion_eq (s : State) (r : Nat) : s.wantsRegion r =
    s.board.worldPend.foldl (WorldChange.regionWords r) (Tab.get 0 s.board.wrega r, Tab.get 0 s.board.wregb r) := rfl

section
variable (s : State) (p r : Nat) (w : Bool) (a b : W64)

theorem State.askPlot_worldPend : (s.askPlot p w).board.worldPend = if w = s.plotSecure p then s.board.worldPend.filter (WorldChange.notPlot p)
    else s.board.worldPend.filter (WorldChange.notPlot p) ++ [.plot p w] := rfl

theorem State.askRegion_worldPend : (s.askRegion r a b).board.worldPend =
    if a = Tab.get 0 s.board.wrega r ∧ b = Tab.get 0 s.board.wregb r then s.board.worldPend.filter (WorldChange.notRegion r)
    else s.board.worldPend.filter (WorldChange.notRegion r) ++ [.region r a b] := rfl

/-- A plot that is asked for a world wants it. -/
theorem State.wantsPlot_askPlot_self : (s.askPlot p w).wantsPlot p = w := by
  have hrest : (s.board.worldPend.filter (WorldChange.notPlot p)).foldl (WorldChange.plotBit p) (s.plotSecure p) = s.plotSecure p :=
    foldl_unchanged _ _ (fun c hc => WorldChange.plotBit_notPlot (List.mem_filter.1 hc).2) _
  rw [State.wantsPlot_eq, State.askPlot_worldPend, show (s.askPlot p w).plotSecure p = s.plotSecure p from rfl]
  split
  next h => rw [hrest, h]
  · rw [List.foldl_append, hrest]
    exact if_pos rfl

/-- No other plot's wish changes. -/
theorem State.wantsPlot_askPlot_ne {q : Nat} (h : q ≠ p) : (s.askPlot p w).wantsPlot q = s.wantsPlot q := by
  have hrest : (s.board.worldPend.filter (WorldChange.notPlot p)).foldl (WorldChange.plotBit q) (s.plotSecure q) = s.wantsPlot q := by
    rw [List.foldl_filter, State.wantsPlot_eq]
    congr 1
    funext x c
    split
    · rfl
    next hc => exact (WorldChange.plotBit_plot_ne h (by simpa using hc) x).symm
  rw [State.wantsPlot_eq, State.askPlot_worldPend, show (s.askPlot p w).plotSecure q = s.plotSecure q from rfl]
  split
  · exact hrest
  · rw [List.foldl_append, hrest]
    exact if_neg h.symm

/-- A region entry that is asked for is wanted. -/
theorem State.wantsRegion_askRegion : (s.askRegion r a b).wantsRegion r = (a, b) := by
  have hrest (w : W64 × W64) : (s.board.worldPend.filter (WorldChange.notRegion r)).foldl (WorldChange.regionWords r) w = w :=
    foldl_unchanged _ _ (fun c hc => WorldChange.regionWords_notRegion (List.mem_filter.1 hc).2) w
  rw [State.wantsRegion_eq, State.askRegion_worldPend]
  split
  next h => rw [hrest, h.1, h.2]; rfl
  · rw [List.foldl_append]
    exact if_pos rfl

end

/-- The doubleword with one bit set. -/
theorem getLsbD_dword_two_pow {k i : Nat} (hi : i < 64) : (dword (2 ^ k)).getLsbD i = decide (k = i) := by
  rw [dword, BitVec.getLsbD_ofNat, Nat.testBit_two_pow, decide_eq_true hi, Bool.true_and]

/-- A doubleword with one bit written: that bit reads what is written, and no other bit changes. -/
theorem getLsbD_writeBit_self (v : W64) (w : Bool) {k : Nat} (hk : k < 64) :
    (if w then v ||| dword (2 ^ k) else v &&& ~~~dword (2 ^ k)).getLsbD k = w := by
  cases w with
  | true => rw [if_pos rfl, BitVec.getLsbD_or, getLsbD_dword_two_pow hk, decide_eq_true rfl, Bool.or_true]
  | false => rw [if_neg (by simp), BitVec.getLsbD_and, BitVec.getLsbD_not, getLsbD_dword_two_pow hk, decide_eq_true rfl]; simp

theorem getLsbD_writeBit_ne (v : W64) (w : Bool) {k i : Nat} (h : i ≠ k) :
    (if w then v ||| dword (2 ^ k) else v &&& ~~~dword (2 ^ k)).getLsbD i = v.getLsbD i := by
  by_cases hi : i < 64
  · cases w with
    | true => rw [if_pos rfl, BitVec.getLsbD_or, getLsbD_dword_two_pow hi, decide_eq_false h.symm, Bool.or_false]
    | false =>
      rw [if_neg (by simp), BitVec.getLsbD_and, BitVec.getLsbD_not, getLsbD_dword_two_pow hi, decide_eq_false h.symm, decide_eq_true hi]
      simp
  · rw [BitVec.getLsbD_of_ge _ _ (by omega), BitVec.getLsbD_of_ge _ _ (by omega)]

/-- A port tile's world bit takes effect at once (R86). -/
theorem State.portSecure_setPortWorld (s : State) (n : Nat) (w : Bool) : (s.setPortWorld n w).portSecure n = w := by
  rw [State.portSecure, State.setPortWorld]
  dsimp only
  rw [Tab.get_put_self]
  exact getLsbD_writeBit_self _ w (Nat.mod_lt _ (by decide))

end Sys2Proof.Machine
end

section
/-! The mailbox's commands (R62, R66, R82, R83, R87). -/

namespace Sys2Proof.Machine

open Claims

theorem State.wantsPlot_mailResult (s : State) (st p : Nat) : (s.mailResult st).wantsPlot p = s.wantsPlot p := rfl

theorem State.wantsRegion_mailResult (s : State) (st r : Nat) : (s.mailResult st).wantsRegion r = s.wantsRegion r := rfl

/-- A WORLDREQ payload of one entry makes its change. -/
theorem State.worldReq_one {s : State} {p : List Byte} {e : Nat × Nat × W64 × W64} (hl : 8 ≤ p.length) (hz : leNat ((p.drop 4).take 4) = 0)
    (he : worldEntries (leNat (p.take 4)) (p.drop 8) = some [e]) : s.worldReq p = (s.worldEntry e).mailResult 0 := by
  have hg : ¬ (p.length < 8 || leNat ((p.drop 4).take 4) ≠ 0) = true := by
    simp [hz]
    omega
  rw [State.worldReq, if_neg hg, he]
  rfl

theorem State.worldEntry_seq (s : State) (e : Nat × Nat × W64 × W64) : (s.worldEntry e).board.mb.seq = s.board.mb.seq := by
  unfold State.worldEntry
  split <;> rfl

theorem State.worldEntry_plot {s : State} {e : Nat × Nat × W64 × W64} (h : e.1 = 0) : s.worldEntry e = s.askPlot e.2.1 (e.2.2.1 = 1) := by
  simp only [State.worldEntry, h]

theorem State.worldEntry_port {s : State} {e : Nat × Nat × W64 × W64} (h : e.1 = 1) :
    s.worldEntry e = s.setPortWorld e.2.1 (e.2.2.1 = 1) := by
  simp only [State.worldEntry, h]

theorem State.worldEntry_region {s : State} {e : Nat × Nat × W64 × W64} (h : e.1 = 2) :
    s.worldEntry e = s.askRegion e.2.1 e.2.2.1 e.2.2.2 := by
  simp only [State.worldEntry, h]

/-- ENROL with a key of its length fills the slot (R83). -/
theorem State.enrol_key {s : State} {p : List Byte} (hl : p.length = 1320) (hk : leNat (p.take 1) ≤ 15)
    (hz : leNat ((p.take 8).drop 1) = 0) : s.enrol p =
      { s with board := { s.board with keys := Tab.set s.board.keys (leNat (p.take 1)) (p.drop 8) } }.mailResult 0 := by
  have hd : (p.drop 8).length = 1312 := by rw [List.length_drop, hl]
  have hne : p.drop 8 ≠ [] := fun h => by simp [h] at hd
  have hg : ¬ (p.length < 8 || 15 < leNat (p.take 1) || leNat ((p.take 8).drop 1) ≠ 0 ||
      (p.drop 8 ≠ [] && (p.drop 8).length ≠ 1312)) = true := by
    simp only [hd, hl, hz]
    simp
    omega
  rw [State.enrol]
  dsimp only
  rw [if_neg hg, if_neg hne]

theorem mailboxCommands : Claims.MailboxCommands := by
  refine ⟨fun s d b hw h0 => ⟨fun hb => ?_, fun ha hl => ?_⟩, fun s d b p e hw h2 hb hp hl hz he => ?_,
    fun s d b hw h2 hb ho => ?_, fun s d b p hw h2 hb hp => ?_, fun s d cmd hw hc => ?_, fun s st hb hr => ?_⟩
  · refine ⟨_, State.mailRun_some hw ((State.mailRow_start hw).trans (by rw [h0]; rfl)) hb _, rfl, rfl, rfl, rfl, ?_⟩
    show s.out ++ mailReads _ _ = _
    rw [mailReads, pageSpans_aligned _ _ _ hb.1 (by omega), List.map_map]
    rfl
  · refine ⟨_, State.mailRun_next (row := "LOADFW") (blk := none) hw ((State.mailRow_start hw).trans (by rw [h0]; rfl)) (by simp) _, ?_⟩
    rw [State.withBlock, State.limitsOk_mailStarted ha hl]
    exact ⟨rfl, h0⟩
  · refine ⟨_, State.mailRun_some hw ((State.mailRow_start hw).trans (by rw [h2]; rfl)) hb _, ?_⟩
    have hp' : MailSigned (s.mailStarted d) b p := hp
    rw [State.secureMail_signed hp', State.worldReq_one hl hz he]
    refine ⟨rfl, State.worldEntry_seq .., fun h => ?_, fun h => ?_, fun h => ?_⟩
    · rw [State.worldEntry_plot h]
      exact (State.wantsPlot_mailResult ..).trans (State.wantsPlot_askPlot_self ..)
    · rw [State.worldEntry_port h]
      exact State.portSecure_setPortWorld ..
    · rw [State.worldEntry_region h]
      exact (State.wantsRegion_mailResult ..).trans (State.wantsRegion_askRegion ..)
  · intro p k hl hk hz
    refine ⟨_, State.mailRun_some hw ((State.mailRow_start hw).trans (by rw [h2]; rfl)) hb _, ?_⟩
    have ho' : (s.mailStarted d).board.owner = none := ho
    rw [ho', State.enrol_key hl hk hz]
    exact ⟨rfl, rfl, Tab.find_set_self ..⟩
  · refine ⟨_, State.mailRun_some hw ((State.mailRow_start hw).trans (by rw [h2]; rfl)) hb _, ?_⟩
    have hp' : MailSigned (s.mailStarted d) b p := hp
    rw [State.secureMail_signed hp']
    exact ⟨rfl, rfl⟩
  · refine ⟨_, State.rowWrite_next (fun s => (s.startMail _).mailResult 1) (show s.present (.pf 0) = true from hw.1)
      ((s.rowOf_mail d).trans ((State.mailRow_start hw).trans (mailName_badcmd hc _))), ?_⟩
    rw [State.startMail_mail]
    exact ⟨rfl, rfl⟩
  · show execMailboxDone s = _
    simp only [execMailboxDone, hb, hr]
    rfl

end Sys2Proof.Machine
end

section
/-! Firmware, bring-up and measurements (R18, R62, R82, R84, R85). -/

namespace Sys2Proof.Machine

open Claims

/-! The modes that firmware sets (R18). -/

/-- A host link given its mode: one whose mode changes trains anew (R18). -/
def State.setMode (s : State) (m : Nat × Nat) : State :=
  if (s.hostLink m.2).mode = m.1 then s else s.setHostLink m.2 { s.hostLink m.2 with mode := m.1, lanes := 0, rate := 0 }

theorem State.setMode_board (s : State) (m) : (s.setMode m).board = s.board := by
  unfold State.setMode
  split <;> rfl

theorem State.mode_setMode_self (s : State) (m : Nat × Nat) : ((s.setMode m).hostLink m.2).mode = m.1 := by
  unfold State.setMode
  split
  next h => exact h
  · rw [State.hostLink_setHostLink_self]

theorem State.mode_setMode_ne (s : State) (m : Nat × Nat) {n : Nat} (h : n ≠ m.2) : (s.setMode m).hostLink n = s.hostLink n := by
  unfold State.setMode
  split
  · rfl
  · exact State.hostLink_setHostLink_ne _ _ h

/-- Modes set from link `k` on leave the links before it. -/
theorem State.hostLink_setModes_lt (ms : List Nat) (k : Nat) (s : State) {n : Nat} (h : n < k) :
    ((ms.zipIdx k).foldl State.setMode s).hostLink n = s.hostLink n := by
  induction ms generalizing k s with
  | nil => rfl
  | cons m ms ih => rw [List.zipIdx_cons, List.foldl_cons, ih (k + 1) _ (by omega), State.mode_setMode_ne s _ (by simp only; omega)]

/-- Each link of a list of modes takes its own. -/
theorem State.mode_setModes (ms : List Nat) (k : Nat) (s : State) {n : Nat} (hk : k ≤ n) (hn : n < k + ms.length) :
    (((ms.zipIdx k).foldl State.setMode s).hostLink n).mode = ms.getD (n - k) 0 := by
  induction ms generalizing k s with
  | nil => simp at hn; omega
  | cons m ms ih =>
    rw [List.zipIdx_cons, List.foldl_cons]
    by_cases h : n = k
    · rw [h, State.hostLink_setModes_lt ms (k + 1) _ (by omega), State.mode_setMode_self s (m, k), Nat.sub_self]
      rfl
    · rw [List.length_cons] at hn
      have hd : n - k = n - (k + 1) + 1 := by omega
      rw [ih (k + 1) _ (by omega) (by omega), hd]
      rfl

/-- Expanders are numbered below the greatest number of one link (R20). -/
theorem numbered_lt {exps : List (Nat × Nat)} {b : Nat} (h : ∀ l < 4, (exps.filter (fun e => e.1 = l)).length ≤ b) :
    ∀ e ∈ numbered exps, e.2.1 < b := by
  intro e he
  simp only [numbered, List.mem_flatMap, List.mem_range, List.mem_map] at he
  obtain ⟨l, hl, x, hx, rfl⟩ := he
  have hlt := (List.mem_zipIdx' hx).1
  exact Nat.lt_of_lt_of_le hlt (h l hl)

/-- Fewer expanders are at most as many on each link. -/
theorem length_filter_filter_le {α : Type} (l : List α) (p q : α → Bool) : ((l.filter p).filter q).length ≤ (l.filter q).length :=
  (List.filter_sublist.filter q).length_le

/-- Firmware that the ROM refused does not start (R82). -/
theorem execFirmwareStart_refused {s : State} {st svn : Nat} {dg : BitVec 256} (h1 : s.board.fwstate = 1)
    (hp : s.board.fwPend = some (st, svn, dg)) (h : st ≠ 0) (modes exps) : exec (.firmwareStart modes exps) s =
      .next ({ s with board := { s.board with fwPend := none, fwstate := if st = 3 then 4 else 3 } }.mailResult st) := by
  show execFirmwareStart modes exps s = _
  rw [execFirmwareStart, hp]
  exact (if_neg (by simp [h1])).trans (if_pos h)

/-- The part as firmware that starts finds it, with the second tier that it maps (R20, R84). -/
def State.firmware (s : State) (svn : Nat) (dg : BitVec 256) (lp : List (Nat × Nat × Nat)) (ex : List (Nat × Nat × Nat × Nat × Bool)) : State :=
  { s with board := { s.board with fwPend := none, fwstate := 2, svn := svn, fwDigest := dg, attest := some (attestCert dg), island := true,
                                   lpddr := lp, expanders := ex } }

/-- Firmware that passed starts (R62, R84), with the modes of the host links set. -/
theorem execFirmwareStart_passed {s : State} {svn : Nat} {dg : BitVec 256} (h1 : s.board.fwstate = 1)
    (hp : s.board.fwPend = some (0, svn, dg)) {modes : List Nat} {exps : List (Nat × Nat)}
    (he : ∀ l < 4, (exps.filter (fun e => e.1 = l)).length ≤ 8) (hl : modes.length = 4) (h0 : modes.headD 2 ≤ 1)
    (hm : ∀ m ∈ modes, m ≤ 2) :
    ∃ lp ex, exec (.firmwareStart modes exps) s = .next ((modes.zipIdx.foldl State.setMode (s.firmware svn dg lp ex)).mailResult 0) := by
  have hx : ∀ e ∈ numbered (exps.filter (fun e => modes.getD e.1 0 = 2)), e.2.1 < 8 :=
    numbered_lt fun l hl => (length_filter_filter_le ..).trans (he l hl)
  have hg : ¬ (modes.length ≠ 4 || 1 < modes.headD 2 || modes.any (fun m => decide (2 < m)) ||
      (numbered (exps.filter (fun e => modes.getD e.1 0 = 2))).any (fun e => decide (7 < e.2.1))) = true := by
    simp only [Bool.or_eq_true, decide_eq_true_eq, List.any_eq_true, not_or, not_exists, not_and]
    exact ⟨⟨⟨by omega, by omega⟩, fun m h => by have := hm m h; omega⟩, fun e h => by have := hx e h; omega⟩
  show ∃ lp ex, execFirmwareStart modes exps s = _
  rw [execFirmwareStart, hp]
  exact ⟨_, _, (if_neg (by simp [h1])).trans ((if_neg (by simp)).trans (if_neg hg))⟩

/-! What assays leave as it was, and the blocks that they spend (R140, R300, R302). -/

theorem State.queues_blocks_notice (s : State) (sec code tval) : (s.notice sec code tval).queues = s.queues ∧
    (s.notice sec code tval).blocks = s.blocks :=
  have h : (s.notice sec code tval).frame = s.frame := State.pushRecord_frame ..
  ⟨State.queues_of_frame h, State.blocks_of_frame h⟩

theorem State.queues_blocks_abortGraph (s : State) (j status c) : (s.abortGraph j status c).queues = s.queues ∧
    (s.abortGraph j status c).blocks = s.blocks := by
  have hd (sec r) : ((s.pushRecord sec r).dropGraph j).ledger = s.ledger :=
    (State.dropGraph_ledger ..).trans (State.ledger_of_frame (State.pushRecord_frame ..))
  unfold State.abortGraph
  split
  · exact ⟨rfl, rfl⟩
  · exact ⟨(State.failJob_keeps ..).1.trans (State.queues_of_ledger (hd ..)), (State.failJob_keeps ..).2.trans (State.blocks_of_ledger (hd ..))⟩

theorem State.queues_blocks_loseEngine (s : State) (p) : (s.loseEngine p).queues = s.queues ∧ (s.loseEngine p).blocks = s.blocks :=
  ⟨foldl_keeps State.queues (fun s j => (s.queues_blocks_abortGraph j _ _).1) _ s,
    foldl_keeps State.blocks (fun s j => (s.queues_blocks_abortGraph j _ _).2) _ s⟩

theorem State.queues_blocks_dropLink (s : State) (l) : (s.dropLink l).queues = s.queues ∧ (s.dropLink l).blocks = s.blocks := by
  cases l with
  | ual n => exact State.queues_blocks_notice ..
  | host n => exact State.queues_blocks_notice ..

theorem State.queues_blocks_blockNotice (s : State) (b code) : (s.blockNotice b code).queues = s.queues ∧
    (s.blockNotice b code).blocks = s.blocks :=
  State.queues_blocks_notice ..


/-- What the loss of a block takes with it (R302). -/
def State.loseBlock (s : State) (b p : Nat) : State :=
  if b < 4096 then s else
  match portKind p with
  | .mem _ => s.loseEngine p
  | .link n => s.dropLink (.ual n)
  | .host n _ => (s.dropLink (.host n)).loseEngine p

theorem State.spend_eq (s : State) (b : Nat) :
    s.spend b = ((s.setBlock b { s.block b with spent := true }).blockNotice b 245).loseBlock b (b - 4096) := by
  unfold State.spend
  generalize (s.setBlock b { s.block b with spent := true }).blockNotice b 245 = u
  generalize b - 4096 = p
  rfl

theorem State.queues_blocks_loseBlock (s : State) (b p) : (s.loseBlock b p).queues = s.queues ∧ (s.loseBlock b p).blocks = s.blocks := by
  unfold State.loseBlock
  split
  · exact ⟨rfl, rfl⟩
  · split
    · exact State.queues_blocks_loseEngine ..
    · exact State.queues_blocks_dropLink ..
    · exact ⟨(State.queues_blocks_loseEngine ..).1.trans (State.queues_blocks_dropLink ..).1,
        (State.queues_blocks_loseEngine ..).2.trans (State.queues_blocks_dropLink ..).2⟩

/-- A block that is spent is marked, and no queue changes. -/
theorem State.queues_blocks_spend (s : State) (b) : (s.spend b).queues = s.queues ∧
    (s.spend b).blocks = Tab.set s.blocks b { s.block b with spent := true } := by
  rw [State.spend_eq]
  exact ⟨(State.queues_blocks_loseBlock ..).1.trans (State.queues_blocks_blockNotice ..).1,
    (State.queues_blocks_loseBlock ..).2.trans (State.queues_blocks_blockNotice ..).2⟩

theorem State.spent_spend_self (s : State) (b : Nat) : ((s.spend b).block b).spent = true := by
  rw [State.block, (s.queues_blocks_spend b).2, Tab.get_set_self]

theorem State.spent_spend {s : State} {b : Nat} (h : (s.block b).spent = true) (x : Nat) : ((s.spend x).block b).spent = true := by
  by_cases hx : b = x
  · rw [hx]
    exact State.spent_spend_self s x
  · rw [State.block, (s.queues_blocks_spend x).2, Tab.get_set_ne _ _ _ hx]
    exact h

/-- Every block of a list of spent ones is spent in the end. -/
theorem State.spent_foldl_spend (l : List Nat) (s : State) {b : Nat} (h : b ∈ l ∨ (s.block b).spent = true) :
    ((l.foldl State.spend s).block b).spent = true := by
  induction l generalizing s with
  | nil => exact h.resolve_left (by simp)
  | cons x l ih =>
    rw [List.foldl_cons]
    refine ih _ ?_
    rcases h with h | h
    · rcases List.mem_cons.1 h with rfl | h
      · exact .inr (State.spent_spend_self s b)
      · exact .inl h
    · exact .inr (State.spent_spend h x)

theorem State.measure_queues (s : State) (t drift age) : (s.measure t drift age).queues = s.queues := by
  unfold State.measure
  extract_lets b d hist l old u
  split
  · exact (State.queues_blocks_notice u _ _ _).1
  · rfl

/-- The assay of every tile spends what has lasting faults, and no queue changes. -/
theorem State.assayAll_spent (s : State) (x : Assays) {b : Nat} (h : b ∈ x.lasting) : ((s.assayAll x).block b).spent = true :=
  State.spent_foldl_spend x.lasting _ (.inl h)

theorem State.assayAll_queues (s : State) (x : Assays) : (s.assayAll x).queues = s.queues :=
  (foldl_keeps State.queues (fun s b => (s.queues_blocks_spend b).1) _ _).trans
    (foldl_keeps State.queues (fun s t => s.measure_queues t _ _) _ s)

/-! READY (R63, R71). -/

/-- A queue that is enabled, and Disabled or Running. -/
def Queue.willRun (q : Queue) : Prop := q.en = true ∧ (q.st = .disabled ∨ q.st = .running)

/-- Such a queue of a READY part runs. -/
theorem Queue.settle_willRun {q : Queue} (h : q.willRun) : (q.settle true).en = true ∧ (q.settle true).st = .running := by
  obtain ⟨he, hs | hs⟩ := h
  · obtain ⟨hst, hcfg, -⟩ := Queue.settle_run hs he
    exact ⟨by rw [Queue.en, hcfg]; exact he, hst⟩
  · by_cases hf : q.flr = true ∧ q.retire = q.head
    · rw [Queue.settle_of_flr hf]
      exact ⟨he, if_pos ⟨rfl, he, rfl⟩⟩
    · rw [Queue.settle_of_live hf (by simp [hs])]
      exact ⟨he, (if_neg (by simp [hs])).trans hs⟩

/-- Queues that settle one after another in a READY part: each of them that will run does. -/
theorem State.running_foldl_settle (l : List Nat) (s : State) {q : Nat} (hr : s.board.ready = true) (hq : (s.queue q).willRun)
    (h : q ∈ l ∨ (s.queue q).st = .running) :
    ((l.foldl (fun s n => s.settleQueue n (s.queue n)) s).queue q).st = .running := by
  induction l generalizing s with
  | nil => exact h.resolve_left (by simp)
  | cons x l ih =>
    rw [List.foldl_cons]
    by_cases hx : q = x
    · obtain ⟨he, hst⟩ := Queue.settle_willRun hq
      have hq' : (s.settleQueue x (s.queue x)).queue q = (s.queue q).settle true := by rw [← hx, State.queue_settleQueue, hr]
      exact ih _ hr (by rw [hq']; exact ⟨he, .inr hst⟩) (.inr (by rw [hq', hst]))
    · have hq' : (s.settleQueue x (s.queue x)).queue q = s.queue q := State.queue_setQueue_ne _ _ hx
      refine ih _ hr (by rwa [hq']) ?_
      rw [hq']
      exact h.imp_left fun h => (List.mem_cons.1 h).resolve_left hx

theorem State.makeReady_board (s : State) : s.makeReady.board = { s.board with ready := true } :=
  foldl_keeps State.board (fun _ _ => by rfl) _ _

theorem State.makeReady_blocks (s : State) : s.makeReady.blocks = s.blocks := foldl_keeps State.blocks (fun _ _ => by rfl) _ _

/-- A queue that will run does once the part is READY. -/
theorem State.running_makeReady {s : State} {q : Nat} {x : Queue} (hf : Tab.find s.queues q = some x) (hx : x.willRun) :
    (s.makeReady.queue q).st = .running := by
  have hq : s.queue q = x := Tab.get_of_find hf
  exact State.running_foldl_settle _ { s with board := { s.board with ready := true } } rfl (hq ▸ hx)
    (.inl (List.mem_map.2 ⟨_, Tab.mem_of_find hf, rfl⟩))

theorem State.loadWorld_keeps (s : State) (e) : (s.loadWorld e).queues = s.queues ∧ (s.loadWorld e).blocks = s.blocks := by
  unfold State.loadWorld
  dsimp only
  split
  · exact ⟨rfl, rfl⟩
  split
  · exact ⟨rfl, rfl⟩
  split
  · split <;> exact ⟨rfl, rfl⟩
  · exact ⟨rfl, rfl⟩

/-- Bring-up (R62): the part is assayed, then READY. -/
theorem execBringupComplete_next {s : State} (h2 : s.board.fwstate = 2) (hr : s.board.ready = false) (hc : s.board.cooling ≠ .shutdown)
    (found : Assays) (worlds ports a n) : ∃ t : State, exec (.bringupComplete found worlds ports a n) s = .next t.makeReady ∧
      t.board.upDone = true ∧ t.queues = s.queues ∧ t.blocks = (s.assayAll found).blocks := by
  have hg : ¬ (s.board.fwstate ≠ 2 || s.board.ready || s.board.cooling = .shutdown) = true := by simp [h2, hr, hc]
  refine ⟨_, if_neg hg, rfl, ?_, ?_⟩
  · exact ((foldl_keeps State.queues (fun _ _ => by rfl) _ _).trans (foldl_keeps State.queues (fun s e => (s.loadWorld_keeps e).1) _ _)).trans
      (State.assayAll_queues s found)
  · exact (foldl_keeps State.blocks (fun _ _ => by rfl) _ _).trans (foldl_keeps State.blocks (fun s e => (s.loadWorld_keeps e).2) _ _)

theorem firmware : Claims.Firmware := by
  refine ⟨fun s modes exps st svn dg h1 hp => ⟨fun h => ?_, fun h he hl h0 hm => ?_⟩, fun s found worlds ports a n h2 hr hc => ?_,
    fun s nonce hl h2 hn => ?_⟩
  · exact ⟨_, execFirmwareStart_refused h1 hp h modes exps, rfl, rfl, rfl, rfl⟩
  · obtain ⟨lp, ex, hx⟩ := execFirmwareStart_passed h1 (h ▸ hp) he hl h0 hm
    refine ⟨_, hx, ?_⟩
    have hb : (modes.zipIdx.foldl State.setMode (s.firmware svn dg lp ex)).board = (s.firmware svn dg lp ex).board :=
      foldl_keeps State.board State.setMode_board _ _
    have hmode (n : Nat) (hn : n < 4) := State.mode_setModes modes 0 (s.firmware svn dg lp ex) (Nat.zero_le n) (by omega)
    rw [State.mailResult, hb]
    exact ⟨rfl, rfl, rfl, rfl, rfl, rfl, hmode⟩
  · obtain ⟨t, hx, hup, hq, hb⟩ := execBringupComplete_next h2 hr hc found worlds ports a n
    refine ⟨_, hx, by rw [State.makeReady_board], by rw [State.makeReady_board]; exact hup, fun b hm => ?_, fun q x hf hst hen => ?_⟩
    · rw [State.block, State.makeReady_blocks, hb]
      exact State.assayAll_spent s found hm
    · exact State.running_makeReady (hq ▸ hf) ⟨hen, .inl hst⟩
  · refine ⟨_, ?_, if_neg (by simp [hl, h2, hn])⟩
    exact List.suffix_append ..

end Sys2Proof.Machine
end

section
/-! The worlds (R86, R87). -/

namespace Sys2Proof.Machine

open Claims

/-- A plot that no graph holds takes the world that is asked for (R86). -/
theorem execPlotWorldChange_next {s : State} {p : Nat} {w : Bool} (hp : s.board.worldPend = [.plot p w]) (hh : s.holders p = []) :
    exec (.plotWorldChange p) s = .next (State.resettle { s with board := { s.board with
      wplot := Tab.put 0 s.board.wplot (p / 64) (if w then Tab.get 0 s.board.wplot (p / 64) ||| dword (2 ^ (p % 64))
        else Tab.get 0 s.board.wplot (p / 64) &&& ~~~dword (2 ^ (p % 64))),
      worldPend := [] } }) := by
  have hw : s.wantsPlot p = w := by rw [State.wantsPlot_eq, hp]; exact if_pos rfl
  show execPlotWorldChange p s = _
  rw [execPlotWorldChange]
  simp only [hp, hh, hw]
  simp

/-- Where no request in flight is to local memory, none is to a part of it. -/
theorem State.idle_of_noLoc {s : State} (hi : ∀ x ∈ s.inflight, ∀ pa, x.tgt ≠ .loc pa) (hq : ∀ e ∈ s.ports, e.2.reqs = [])
    (f : Bool → Target → Bool) (hf : ∀ w t, (∀ pa, t ≠ .loc pa) → f w t = false) :
    ¬ (s.inflight.any (fun x => f x.world x.tgt) ||
      s.ports.any (fun p => p.2.reqs.any (fun r => r.2.tags.any (fun t => t.reply.isNone && t.tgt.any (f (s.jobSecure r.2.job)))))) = true := by
  rw [Bool.or_eq_true, not_or]
  refine ⟨fun h => ?_, fun h => ?_⟩
  · obtain ⟨x, hx, h⟩ := List.any_eq_true.1 h
    rw [hf _ _ (hi x hx)] at h
    cases h
  · obtain ⟨e, he, h⟩ := List.any_eq_true.1 h
    rw [hq e he] at h
    cases h

/-- Whether an access of a world targets what a region entry covers, or what it will cover (R86). -/
def State.targetsRegion (s : State) (r : Nat) (a b : W64) (w : Bool) : Target → Bool
  | .loc pa => (inRegion (Tab.get 0 s.board.wrega r) (Tab.get 0 s.board.wregb r) pa || inRegion a b pa) && s.secureAt pa = w
  | _ => false

theorem State.targetsRegion_of_noLoc {s : State} (r : Nat) (a b : W64) (w : Bool) {t : Target} (h : ∀ pa, t ≠ .loc pa) :
    s.targetsRegion r a b w t = false := by
  cases t with
  | loc pa => exact absurd rfl (h pa)
  | _ => rfl

/-- A region entry that no request in flight targets takes the words that are asked for (R86). -/
theorem execRegionWorldChange_next {s : State} {r : Nat} {a b : W64} (hp : s.board.worldPend = [.region r a b])
    (hi : ∀ x ∈ s.inflight, ∀ pa, x.tgt ≠ .loc pa) (hq : ∀ e ∈ s.ports, e.2.reqs = []) :
    exec (.regionWorldChange r) s = .next { s with board := { s.board with
      wrega := Tab.put 0 s.board.wrega r a, wregb := Tab.put 0 s.board.wregb r b, worldPend := [] } } := by
  have hw : s.wantsRegion r = (a, b) := by rw [State.wantsRegion_eq, hp]; exact if_pos rfl
  show execRegionWorldChange r s = _
  rw [execRegionWorldChange, hw]
  refine (if_neg ?_).trans ?_
  · rw [hp, Bool.or_eq_true, not_or]
    exact ⟨State.idle_of_noLoc hi hq (s.targetsRegion r a b) fun w t ht => State.targetsRegion_of_noLoc r a b w ht, by simp⟩
  · rw [hp]
    simp

/-! Writes of the world tables (R87). -/

theorem testBit_bitsNat (l : List Bool) (i : Nat) : (bitsNat l).testBit i = l.getD i false := by
  induction l generalizing i with
  | nil => simp [bitsNat]
  | cons b l ih =>
    cases i with
    | zero => cases b <;> simp [bitsNat]
    | succ i =>
      have hd : ((if b then 1 else 0) + 2 * bitsNat l) / 2 = bitsNat l := by split <;> omega
      rw [bitsNat, Nat.testBit_succ, hd, ih]
      rfl

/-- A doubleword of given bits. -/
theorem getLsbD_dword_bitsNat (f : Nat → Bool) {i : Nat} (hi : i < 64) :
    (dword (bitsNat ((List.range 64).map f))).getLsbD i = f i := by
  rw [dword, BitVec.getLsbD_ofNat, testBit_bitsNat, decide_eq_true hi]
  simp [hi]

/-- Asking for each bit that a write changes. -/
theorem State.wantsPlot_askChanges (base : Nat) (v old : W64) (l : List Nat) (s : State)
    (h : ∀ i ∈ l, v.getLsbD i = old.getLsbD i → s.wantsPlot (base + i) = v.getLsbD i) {i : Nat}
    (hi : i ∈ l ∨ s.wantsPlot (base + i) = v.getLsbD i) :
    (l.foldl (fun s i => if v.getLsbD i = old.getLsbD i then s else s.askPlot (base + i) (v.getLsbD i)) s).wantsPlot (base + i) = v.getLsbD i := by
  induction l generalizing s with
  | nil => exact hi.resolve_left (by simp)
  | cons x l ih =>
    rw [List.foldl_cons]
    have ht : ∀ j ∈ l, v.getLsbD j = old.getLsbD j → s.wantsPlot (base + j) = v.getLsbD j := fun j hj => h j (List.mem_cons_of_mem _ hj)
    by_cases hx : v.getLsbD x = old.getLsbD x
    · rw [if_pos hx]
      refine ih s ht ?_
      rcases hi with hi | hi
      · rcases List.mem_cons.1 hi with rfl | hi
        · exact .inr (h i (by simp) hx)
        · exact .inl hi
      · exact .inr hi
    · have hother {j : Nat} (hj : j ≠ x) : (s.askPlot (base + x) (v.getLsbD x)).wantsPlot (base + j) = s.wantsPlot (base + j) :=
        State.wantsPlot_askPlot_ne _ _ _ (by omega)
      have hself : (s.askPlot (base + x) (v.getLsbD x)).wantsPlot (base + x) = v.getLsbD x := State.wantsPlot_askPlot_self ..
      rw [if_neg hx]
      refine ih _ (fun j hj he => ?_) ?_
      · rw [hother (by rintro rfl; exact hx he)]
        exact ht j hj he
      · by_cases hix : i = x
        · exact .inr (hix ▸ hself)
        · rw [hother hix]
          exact hi.imp_left fun h => (List.mem_cons.1 h).resolve_left hix

section
variable (s : State) {k : Nat} (hk : k < 4) (d : W64)

theorem plainOff_world (o : Nat) (ho : o < 0x40) (h8 : o % 8 = 0) : plainOff (0x600000 + o) := by
  simp only [plainOff]
  omega

/-- A write of a world table is of its row, whoever makes it. -/
theorem State.rowOf_world (w : Who) (hw : whoWhole w = true) {o : Nat} (ho : o < 0x40) (h8 : o % 8 = 0) :
    s.rowOf ⟨w, 0x600000 + o, 8, d⟩ = "WORLD_TABLE_WRITE" := by
  rw [State.rowOf_plain s hw (plainOff_world o ho h8) d (by omega), if_neg (by omega), if_neg (by omega), if_neg (by omega),
    if_neg (by omega), if_neg (by omega), if_neg (by omega), if_neg (by omega), if_pos (by omega)]

theorem State.regWrite_world (w : Who) (hw : whoWhole w = true) {o : Nat} (ho : o < 0x40) (h8 : o % 8 = 0) :
    s.regWrite ⟨w, 0x600000 + o, 8, d⟩ = if whoSecure w = true then s.writeWorld o 8 d else s := by
  rw [State.regWrite_plain s hw (plainOff_world o ho h8), if_neg (by omega), if_neg (by omega), if_neg (by omega), if_neg (by omega),
    if_pos (by omega), Nat.add_sub_cancel_left]

include hk in
/-- The secure world's write of WPLOT asks for what it changes. -/
theorem State.writeWorld_wplot : ∃ old : W64, (∀ i < 64, old.getLsbD i = s.wantsPlot (64 * k + i)) ∧ s.writeWorld (8 * k) 8 d =
    (List.range 64).foldl (fun s i => if d.getLsbD i = old.getLsbD i then s else s.askPlot (64 * k + i) (d.getLsbD i)) s := by
  have hd : 8 * k / 8 = k := by omega
  have ho : k * 8 < 0x20 := by omega
  refine ⟨dword (bitsNat ((List.range 64).map (fun i => s.wantsPlot (64 * k + i)))), fun i hi => getLsbD_dword_bitsNat _ hi, ?_⟩
  rw [State.writeWorld]
  dsimp only [mergeWrite_whole]
  rw [hd, if_pos ho, Nat.mul_div_cancel k (by decide)]

include hk in
theorem State.writeWorld_wport : s.writeWorld (0x20 + 8 * k) 8 d =
    { s with board := { s.board with wport := Tab.put 0 s.board.wport k d } } := by
  have ho : (0x20 + 8 * k) / 8 * 8 = 0x20 + 8 * k := by omega
  have hd : (0x20 + 8 * k - 0x20) / 8 = k := by omega
  rw [State.writeWorld]
  simp only [ho, hd, mergeWrite_whole]
  rw [if_neg (by omega), if_pos (by omega)]

end

theorem worlds : Claims.Worlds := by
  refine ⟨fun s p w hp hh => ?_, fun s r a b hp hi hq => execRegionWorldChange_next hp hi hq, fun s k d hk => ⟨?_, ?_, fun hl => ?_⟩⟩
  · have hlt : p % 64 < 64 := Nat.mod_lt _ (by decide)
    exact ⟨_, getLsbD_writeBit_self _ w hlt, fun i hi => getLsbD_writeBit_ne _ w hi, execPlotWorldChange_next hp hh⟩
  · obtain ⟨old, hold, hw⟩ := s.writeWorld_wplot hk d
    refine ⟨_, State.rowWrite_next (fun s => s.regWrite _) rfl (s.rowOf_world d .secure rfl (by omega) (by omega)), ?_⟩
    rw [State.regWrite_world s d .secure rfl (by omega) (by omega), if_pos (show whoSecure .secure = true from rfl), hw]
    refine ⟨foldl_keeps (fun s => s.board.wplot) (fun s i => ?_) _ s, fun i hi => ?_⟩
    · split <;> rfl
    · exact State.wantsPlot_askChanges _ d old _ s (fun j hj he => by rw [← hold j (List.mem_range.1 hj), he]) (.inl (List.mem_range.2 hi))
  · have ho : 0x600020 + 8 * k = 0x600000 + (0x20 + 8 * k) := by omega
    rw [ho]
    refine (State.rowWrite_next (fun s => s.regWrite _) rfl (s.rowOf_world d .secure rfl (by omega) (by omega))).trans ?_
    rw [State.regWrite_world s d .secure rfl (by omega) (by omega), if_pos (show whoSecure .secure = true from rfl), State.writeWorld_wport s hk d]
  · have hp : s.present (.pf 0) = true := hl
    refine (State.rowWrite_next (fun s => s.regWrite _) hp (s.rowOf_world d (.pf 0) rfl (by omega) (by omega))).trans ?_
    rw [State.regWrite_world s d (.pf 0) rfl (by omega) (by omega)]
    rfl

/-- Settles O50: a command's write starts it and its effect follows from its block, firmware's steps set what they name, and the
worlds change where the plot or the region is free. -/
theorem firmwareEvents : Obligations.FirmwareEvents := ⟨mailboxCommands, firmware, worlds⟩

end Sys2Proof.Machine
end

section
/-! The fetch of job records (R17, R71, R72, R74, R89). -/

namespace Sys2Proof.Machine

open Claims

/-- The end of a job with a status of its own: the job has failed, and its queue and memory are as they were. -/
theorem State.job_endJob_self (s : State) (j status cause : Nat) : (s.endJob j status cause).job j = (s.job j).failed status cause :=
  State.job_failJob_self ..

theorem State.endJob_queue (s : State) (j status cause q : Nat) : (s.endJob j status cause).queue q = s.queue q :=
  State.queue_of_queues (State.failJob_keeps ..).1 q

/-- The job that a record becomes (R89, R110). -/
def JobRec.job (r : JobRec) (n : Nat) (i : W32) : Job :=
  { queue := n, index := i, jr := r, account := if r.quota = 0 then none else some r.quota }

/-- The part with the job of a record that has been fetched, before R74 and R91 have their say. -/
def State.entered (s : State) (n : Nat) (r : JobRec) : State :=
  (s.newId.2.setJob s.nextId (r.job n (s.queue n).head)).setQueue n { s.queue n with head := (s.queue n).head + 1 }

section
variable (s : State) (n : Nat) (r : JobRec)

theorem State.job_entered : (s.entered n r).job s.nextId = r.job n (s.queue n).head :=
  State.job_setJob_self s.newId.2 s.nextId (r.job n (s.queue n).head)

theorem State.queue_entered : (s.entered n r).queue n = { s.queue n with head := (s.queue n).head + 1 } := State.queue_setQueue_self ..

theorem State.newJob_refused : s.newJob n r false = (s.entered n r).endJob s.nextId stBadRec 0 := rfl

theorem State.newJob_accepted : s.newJob n r true =
    if r.dep && (((s.entered n r).pred s.nextId).isNone && (s.queue n).last.any (· ≠ 0)) then (s.entered n r).endJob s.nextId stAborted 0
    else if r.nop then (s.entered n r).setJob s.nextId { (s.entered n r).job s.nextId with st := .ended, started := true, everLoaded := true }
    else s.entered n r := rfl

/-- A record that does not depend on its predecessor becomes a Fetched job, or one that has ended where it is a no-operation. -/
theorem State.job_newJob_free (h : r.dep = false) : ((s.newJob n r true).job s.nextId).fail = none ∧
    ((s.newJob n r true).job s.nextId).st = if r.nop then .ended else .fetched := by
  rw [State.newJob_accepted, h, Bool.false_and, if_neg (by simp)]
  split
  · rw [State.job_setJob_self, State.job_entered]
    exact ⟨rfl, rfl⟩
  · rw [State.job_entered]
    exact ⟨rfl, rfl⟩

/-- What of a job its record alone decides. -/
def Job.ofRecord (b : Job) (r : JobRec) (n : Nat) (i : W32) : Prop :=
  b.jr = r ∧ b.queue = n ∧ b.index = i ∧ b.parent = none ∧ b.account = if r.quota = 0 then none else some r.quota

/-- A record makes a job of its own at QHEAD, which moves on (R72, R89). -/
theorem State.newJob_ofRecord (ok : Bool) : ((s.newJob n r ok).job s.nextId).ofRecord r n (s.queue n).head ∧
    ((s.newJob n r ok).queue n).head = (s.queue n).head + 1 := by
  have hend (status : Nat) : (((s.entered n r).endJob s.nextId status 0).job s.nextId).ofRecord r n (s.queue n).head ∧
      (((s.entered n r).endJob s.nextId status 0).queue n).head = (s.queue n).head + 1 := by
    rw [State.job_endJob_self, State.endJob_queue, State.job_entered, State.queue_entered]
    exact ⟨⟨rfl, rfl, rfl, rfl, rfl⟩, rfl⟩
  cases ok with
  | false => exact hend _
  | true =>
    rw [State.newJob_accepted]
    split
    · exact hend _
    · split
      · rw [State.job_setJob_self, State.job_entered]
        exact ⟨⟨rfl, rfl, rfl, rfl, rfl⟩, congrArg Queue.head (s.queue_entered n r)⟩
      · rw [State.job_entered, State.queue_entered]
        exact ⟨⟨rfl, rfl, rfl, rfl, rfl⟩, rfl⟩

/-- A record that R74 refuses ends its job with BADREC. -/
theorem State.job_newJob_refused : ((s.newJob n r false).job s.nextId).st = .ended ∧
    ((s.newJob n r false).job s.nextId).fail = some (1, 0) := by
  rw [State.newJob_refused, State.job_endJob_self, State.job_entered]
  exact ⟨rfl, rfl⟩

end

/-! What a turn has read (R17, R72). -/

section
variable (s : State) (q : Nat) (got : Tab Bytes)

theorem State.takeRecord_part (h : ∃ i < 16, Tab.find got i = none) : s.takeRecord q got = s.setQueue q { s.queue q with got := got } := by
  obtain ⟨i, hi, hn⟩ := h
  have hw : ¬ (List.range 16).all (fun i => (Tab.find got i).isSome) = true := fun h => by
    have := List.all_eq_true.1 h i (List.mem_range.2 hi)
    rw [hn] at this
    cases this
  rw [State.takeRecord, if_neg hw]

/-- The queue that gives up what it has read. -/
def State.consumed : State := (s.dropOwn (.ring q)).setQueue q { s.queue q with got := [] }

theorem State.queue_consumed : (s.consumed q).queue q = { s.queue q with got := [] } := State.queue_setQueue_self ..

theorem State.takeRecord_whole (h : ∀ i < 16, Tab.find got i ≠ none) :
    let r := recordOf ((List.range 16).flatMap (fun i => (Tab.get [] got i).map (·.1))) (s.queue q).secure
    s.takeRecord q got = (s.consumed q).newJob q r.1 r.2 := by
  have hw : (List.range 16).all (fun i => (Tab.find got i).isSome) = true :=
    List.all_eq_true.2 fun i hi => Option.isSome_iff_ne_none.2 (h i (List.mem_range.1 hi))
  dsimp only
  rw [State.takeRecord, if_pos hw]
  rfl

theorem State.haltQueue_queue : (s.haltQueue q).queue q = { s.queue q with st := .halted, got := [] : Queue }.error 5 :=
  State.queue_setQueue_self ..

end

theorem fetches : Claims.Fetches := by
  intro s q dws ext bs rest s1 x new part got rec? hst hr hht hlen hnew hrd
  have hturn : exec (.recordFetch q ⟨dws, ext⟩) s =
      .next (if new.any (fun i => anyDross (part i)) then s1.haltQueue q else s1.takeRecord q got) := by
    have hg : ¬ (x.st ≠ .running || !s.board.ready || x.head = x.tail || 16 ≤ (s.queueJobs q).length) = true := by
      simp [hst, hr, hht, hlen]
    show execRecordFetch q ⟨dws, ext⟩ s = _
    rw [execRecordFetch]
    refine (if_neg hg).trans ((if_neg hnew).trans ?_)
    rw [hrd]
    exact (apply_ite Host.Outcome.next _ _ _).symm
  refine ⟨fun hd => ?_, fun hd hp => ?_, fun hd hw => ?_⟩
  · have ha : new.any (fun i => anyDross (part i)) = true := List.any_eq_true.2 hd
    refine ⟨_, hturn, ?_⟩
    rw [if_pos ha, State.haltQueue_queue, Queue.error]
    refine ⟨?_, rfl, ?_⟩
    · split <;> rfl
    · split <;> rfl
  all_goals
    have ha : ¬ new.any (fun i => anyDross (part i)) = true := fun h => by
      obtain ⟨i, hi, h⟩ := List.any_eq_true.1 h
      rw [hd i hi] at h
      cases h
    rw [if_neg ha] at hturn
  · rw [hturn, State.takeRecord_part _ _ _ hp]
  · have hnext : (s1.consumed q).nextId = s1.nextId := rfl
    obtain ⟨⟨hjr, hqu, hix, hpa, hac⟩, hhead⟩ := State.newJob_ofRecord (s1.consumed q) q rec?.1 rec?.2
    rw [hnext] at hjr hqu hix hpa hac
    rw [State.queue_consumed] at hix hhead
    have htake : s1.takeRecord q got = (s1.consumed q).newJob q rec?.1 rec?.2 := State.takeRecord_whole s1 q got hw
    rw [htake] at hturn
    refine ⟨_, hturn, hhead, ?_, hjr, hqu, hix, hpa, hac, fun hok => ?_, fun hok hdep => ?_⟩
    · exact State.newJob_mem ..
    · rw [hok]
      exact State.job_newJob_refused (s1.consumed q) q rec?.1
    · rw [hok]
      exact State.job_newJob_free (s1.consumed q) q rec?.1 hdep

end Sys2Proof.Machine
end

section
/-! The verification of images (R81, R82, R90). -/

namespace Sys2Proof.Machine

open Claims

/-- The rest of a verification, by what the read of the whole image has come to (R81). -/
def State.verifyWhole (s : State) (j : Nat) : Got × Bytes × State → Res
  | (.ok bs, _, s) => .next (((s.dropOwn (.verify j)).verified j bs).notePlaceable j)
  | (g, _, s') => orWait "IMAGE_VERIFY" s (s'.readStop j (.verify j) stBadImage g)

section
variable {s : State} {j : Nat} {b : Job} (hf : Tab.find s.jobs j = some b) (hst : b.st = .fetched) (hw : s.waits (.verify j) = false)

include hf in
theorem State.job_of_find : s.job j = b := Tab.get_of_find hf

include hf hst hw in
/-- A verification of a Fetched job that waits for nothing, once the start of its image is read. -/
theorem execImageVerify_header {ext h e1 : Bytes} {s1 : State}
    (hr : s.readFor j (.verify j) b.jr.image.toNat (256 - b.jr.image.toNat % 256) ext = (.ok h, e1, s1)) :
    exec (.imageVerify j ext) s =
      if anyDross h || Machine.field (h.map (·.1)) 8 4 < 2752 || Machine.field (h.map (·.1)) 8 4 % 64 ≠ 0 then
        .next (s1.endJob j stBadImage 0)
      else if !s.copyFits (Machine.field (h.map (·.1)) 8 4) then orWait "IMAGE_VERIFY" s (s.copyWaits j)
      else s.verifyWhole j (s.readFor j (.verify j) b.jr.image.toNat (Machine.field (h.map (·.1)) 8 4) ext) := by
  have hj := State.job_of_find hf
  have hl : s.live j = true := State.live_of_find hf (by simp [hst])
  have hg : ¬ (!s.live j || (s.job j).st ≠ .fetched || s.waits (.verify j)) = true := by simp [hl, hj, hst, hw]
  show execImageVerify j ext s = _
  rw [execImageVerify]
  refine (if_neg hg).trans ?_
  rw [hj, hr]
  rfl

theorem State.jobNotice_graphs (s : State) (j : Nat) (c : Cause) : (s.jobNotice j c).graphs = s.graphs :=
  State.graphs_of_frame (State.jobNotice_frame s j c)

/-- A job whose copy has no room is reported once (R81). -/
theorem State.copyWaits_first (hc : (s.job j).copyWarned = false) : (s.copyWaits j).job j = { s.job j with copyWarned := true } ∧
    (s.copyWaits j).graphs = s.graphs := by
  rw [State.copyWaits]
  simp only [hc]
  exact ⟨State.job_setJob_self .., State.jobNotice_graphs s j _⟩

/-- The note of a job that nothing can take changes nothing else of it (R112). -/
theorem State.notePlaceable_keeps (s : State) (j : Nat) : ((s.notePlaceable j).job j).st = (s.job j).st ∧
    ((s.notePlaceable j).job j).image = (s.job j).image ∧ (s.notePlaceable j).graphs = s.graphs := by
  unfold State.notePlaceable
  extract_lets x
  split
  · exact ⟨rfl, rfl, rfl⟩
  · rw [State.job_setJob_self]
    exact ⟨rfl, rfl, State.jobNotice_graphs s j _⟩

/-- A verified image of the non-secure world is the job's (R82). -/
theorem State.verified_image {bs : Bytes} {m : Image} (hd : anyDross bs = false) (hs : s.signedImage (bs.map (·.1)) = true)
    (hm : imageOf (bs.map (·.1)) = some m) (hsec : m.secure = false) :
    s.verified j bs = s.setJob j { s.job j with image := some m, st := .waiting, failedPages := [] } := by
  rw [State.verified]
  simp [hd, hs, hm, hsec]

end

theorem verifications : Claims.Verifications := by
  intro s j b ext h e1 s1 hf hst hw hr len
  have hexec := execImageVerify_header hf hst hw hr
  have hj := State.job_of_find hf
  refine ⟨fun hb => ?_, fun hd hlen hmod hc hwarn => ?_, fun bs e2 s2 m hd hlen hmod hc hr2 hd2 hsig himg hsec => ?_⟩
  · have hg : (anyDross h || len < 2752 || len % 64 ≠ 0) = true := by
      simpa [or_assoc] using hb
    rw [if_pos hg] at hexec
    refine ⟨_, hexec, ?_⟩
    rw [State.job_endJob_self]
    exact ⟨rfl, rfl⟩
  all_goals
    have hg : ¬ (anyDross h || len < 2752 || len % 64 ≠ 0) = true := by
      simp [hd, hmod]
      omega
    rw [if_neg hg, hc] at hexec
  · obtain ⟨hjob, hgr⟩ := State.copyWaits_first (s := s) (j := j) (hj ▸ hwarn)
    have hne : s.copyWaits j ≠ s := fun he => by
      have := congrArg Job.copyWarned (he ▸ hjob)
      rw [hj, hwarn] at this
      cases this
    exact ⟨_, hexec.trans (Laws.orWait_next.2 ⟨hne, rfl⟩), hj ▸ hjob, hgr⟩
  · rw [hr2] at hexec
    change exec (.imageVerify j ext) s = .next (((s2.dropOwn (.verify j)).verified j bs).notePlaceable j) at hexec
    obtain ⟨hs, hi, hgr⟩ := ((s2.dropOwn (.verify j)).verified j bs).notePlaceable_keeps j
    have hv : (s2.dropOwn (.verify j)).verified j bs = _ := State.verified_image hd2 hsig himg hsec
    refine ⟨_, hexec, hs.trans ?_, hi.trans ?_, hgr.trans ?_⟩
    · rw [hv, State.job_setJob_self]
    · rw [hv, State.job_setJob_self]
    · rw [hv]
      rfl

end Sys2Proof.Machine
end

section
/-! Loads and the wavefronts of welds (R75, R99, R101, R167). -/

namespace Sys2Proof.Machine

open Claims

/-- A field of a job that is set as it was reads the same for every job. -/
theorem State.job_setJob_field {α : Type} (f : Job → α) {s : State} {j : Nat} {b : Job} (h : f b = f (s.job j)) (k : Nat) :
    f ((s.setJob j b).job k) = f (s.job k) := by
  by_cases hk : k = j
  · rw [hk, State.job_setJob_self, h]
  · rw [State.job_setJob_ne _ _ hk]

/-- The account of a tree follows from the parents and the accounts of its jobs (R110). -/
theorem State.accountOf_setJob {s : State} {j : Nat} {b : Job} (hp : b.parent = (s.job j).parent) (ha : b.account = (s.job j).account)
    (k : Nat) : (s.setJob j b).accountOf k = s.accountOf k := by
  simp only [State.accountOf, State.root, State.job_setJob_field Job.parent hp]
  exact State.job_setJob_field Job.account ha _

/-! What a load leaves of a graph (R235). -/

theorem State.walkElem_frame (pasid slot failed affine write who) (l : List (Nat × Nat)) (e : Option TlbEntry) (s : State) :
    (State.walkElem pasid slot failed affine write who l e s).2.frame = s.frame := by
  induction l generalizing e s with
  | nil => rfl
  | cons x t ih => grind [State.walkElem, State.translate_frame]

/-- A graph but for its streams and channels. -/
def Graph.core (g : Graph) : Graph := { g with streams := [], chans := [] }

/-- The core of a graph, and the jobs: what the latching of a port entry leaves. -/
def State.loadView (s : State) (j : Nat) : Graph × Tab Job := ((s.graph j).core, s.jobs)

theorem State.loadView_of_frame {s u : State} (h : u.frame = s.frame) (j : Nat) : u.loadView j = s.loadView j :=
  (congrArg (fun x : State => x.loadView j) h :)

theorem State.loadView_setStream (s : State) (j n : Nat) (x : Stream) :
    (s.setGraph j ((s.graph j).setStream n x)).loadView j = s.loadView j := by
  rw [State.loadView, State.graph_setGraph_self]
  rfl

theorem State.latchStream_view (s : State) (j n : Nat) : (s.latchStream j n).loadView j = s.loadView j := by
  unfold State.latchStream
  extract_lets st va moves
  split
  · rfl
  · split
    next h =>
      rw [State.loadView_setStream]
      refine State.loadView_of_frame ?_ j
      have hw := State.walkElem_frame (s.pasidOf j) st.port [] true st.writes (.elem j n st.next) [(va, 1)] none s
      rwa [h] at hw
    · rfl

theorem Graph.endStream_core (g : Graph) (n : Nat) : (g.endStream n).core = g.core := by
  unfold Graph.endStream
  extract_lets st h
  split
  · rfl
  · exact foldl_keeps Graph.core (fun _ _ => by rfl) _ h

/-- The part with the port entries that the completion of a load latches (R235). -/
def State.latched (s : State) (j : Nat) : State := (((s.graph j).streams).map (·.1)).foldl (fun s n => s.latchStream j n) (s.dropOwn (.load j))

/-- The graph in which the streams without elements have ended (R434). -/
def State.latchedGraph (s : State) (j : Nat) : Graph :=
  (((s.latched j).graph j).streams.map (·.1)).foldl Graph.endStream ((s.latched j).graph j)

theorem State.latched_view (s : State) (j : Nat) : (s.latched j).loadView j = s.loadView j :=
  foldl_keeps (fun s => s.loadView j) (fun s n => s.latchStream_view j n) _ (s.dropOwn (.load j))

theorem State.latchedGraph_core (s : State) (j : Nat) : (s.latchedGraph j).core = (s.graph j).core :=
  (foldl_keeps Graph.core Graph.endStream_core _ _).trans (congrArg Prod.fst (s.latched_view j))

/-- The graph made Resident, or Quenching where a quench waits for it, with what is parked queued again. -/
def State.loadedGraph (s : State) (j : Nat) : State :=
  (s.latchedGraph j).parked.foldl State.requeue
    ((s.latched j).setGraph j { s.latchedGraph j with phase := if (s.latchedGraph j).quench.isSome then .quenching else .resident, parked := [] })

/-- Its job made Resident. -/
def State.loadedJob (s : State) (j : Nat) : State := (s.loadedGraph j).setJob j { (s.loadedGraph j).job j with st := .resident }

theorem State.becomeResident_eq (s : State) (j : Nat) : s.becomeResident j =
    if (s.loadedJob j).accountOf j = some 0 then ((s.loadedJob j).beginQuench j).markStall j else s.loadedJob j := rfl

section
variable {s : State} {j : Nat} (hq : (s.graph j).quench = none) (hp : (s.graph j).parked = [])

include hq hp in
theorem State.loadedGraph_plain : s.loadedGraph j = (s.latched j).setGraph j { s.latchedGraph j with phase := .resident, parked := [] } := by
  have hq' : (s.latchedGraph j).quench = none := (congrArg Graph.quench (s.latchedGraph_core j) :).trans hq
  have hp' : (s.latchedGraph j).parked = [] := (congrArg Graph.parked (s.latchedGraph_core j) :).trans hp
  rw [State.loadedGraph, hp', hq']
  rfl

include hq hp in
/-- A load that completes in a tree with quota left: the graph is Resident, and so is its job. -/
theorem State.becomeResident_reads (ha : s.accountOf j ≠ some 0) : ((s.becomeResident j).graph j).phase = .resident ∧
    ((s.becomeResident j).job j).st = .resident ∧ ((s.becomeResident j).graph j).argsDone = (s.graph j).argsDone ∧
      ((s.becomeResident j).graph j).actors = (s.graph j).actors := by
  have hg := State.loadedGraph_plain hq hp
  have hj : (s.loadedGraph j).jobs = s.jobs := (congrArg State.jobs hg).trans (congrArg Prod.snd (s.latched_view j) :)
  have hacc : (s.loadedJob j).accountOf j = s.accountOf j :=
    (State.accountOf_setJob (b := { (s.loadedGraph j).job j with st := .resident }) rfl rfl j).trans (State.accountOf_of_jobs hj j)
  rw [State.becomeResident_eq, if_neg (hacc ▸ ha), State.loadedJob, State.job_setJob_self, State.graph_setJob, hg, State.graph_setGraph_self]
  exact ⟨rfl, rfl, (congrArg Graph.argsDone (s.latchedGraph_core j) :), (congrArg Graph.actors (s.latchedGraph_core j) :)⟩

end

/-- A load without arguments and without streams reads nothing (R36, R75). -/
theorem State.readArgs_none {s : State} {j : Nat} (ha : (s.job j).jr.argLen = 0) (hs : (s.graph j).streams = []) (m : Image) (ext : Bytes) :
    s.readArgs j m ext = (s, true) := by
  rw [State.readArgs, hs]
  exact if_pos ha

section
variable {s : State} {j : Nat} {m : Image} (hm : (s.job j).image = some m) (hg : s.hasGraph j = true) (hph : (s.graph j).phase = .loading)
  (hw : s.waits (.load j) = false) (hall : ∀ e ∈ (s.graph j).actors, e.2.loaded = true) (ext : Bytes)

include hm hg hph hw hall in
/-- A load with its arguments in place completes. -/
theorem execConfigLoadDone_argsDone (ha : (s.graph j).argsDone = true) : exec (.configLoadDone j ext) s = .next (s.becomeResident j) := by
  have hwhole : (s.graph j).actors.all (fun e => e.2.loaded) = true := List.all_eq_true.2 hall
  show execConfigLoadDone j ext s = _
  simp [execConfigLoadDone, hm, hg, hph, hw, ha, hwhole]

include hm hg hph hw hall in
/-- A load without arguments and without streams completes at once. -/
theorem execConfigLoadDone_noArgs (hd : (s.graph j).argsDone = false) (ha : (s.job j).jr.argLen = 0) (hs : (s.graph j).streams = []) :
    exec (.configLoadDone j ext) s = .next (((s.setJob j { s.job j with failedPages := [] }).setGraph j
      { s.graph j with argsDone := true }).becomeResident j) := by
  have hwhole : (s.graph j).actors.all (fun e => e.2.loaded) = true := List.all_eq_true.2 hall
  show execConfigLoadDone j ext s = _
  simp only [execConfigLoadDone, hm, hg, hph, hw, hd, hwhole, State.readArgs_none ha hs m ext, State.graph_setJob]
  rfl

end

/-! The wavefront of a weld (R101, R167). -/

/-- A wavefront with or without its marker. -/
theorem execWeldWavefront_mark {s : State} {j t : Nat} {f : Option (W64 × V512)} {u : State} (h : exec (.weldWavefront j ⟨t, f⟩) s = .next u) :
    ∃ v, s.takeMark t 0 { kind := 5, world := s.jobSecure j } f = some v ∧ ∃ g, u = v.setGraph j g := by
  change execWeldWavefront j ⟨t, f⟩ s = _ at h
  unfold execWeldWavefront at h
  extract_lets g tile here free at h
  split at h
  · cases h
  · split at h
    · cases h
    next v hv => 
      cases h
      exact ⟨v, hv, _, rfl⟩

theorem MarkWant.fits_weld {world : Option Bool} {w : W64} {pl : V512} (h : MarkWant.fits { kind := 5, world := world } w pl = true) :
    pl = BitVec.ofNat 512 5 ∧ fld w 31 30 = 2 := by
  simp only [MarkWant.fits, Bool.and_eq_true, decide_eq_true_eq] at h
  exact ⟨h.2, h.1.1.1.1.1⟩

theorem State.flitError_assaying (s : State) (block aid chan : Nat) : ((s.flitError block aid chan).block block).assaying = true := by
  rw [State.flitError, State.block_of_blocks (State.blocks_of_frame (State.blockNotice_frame ..))]
  exact State.addRecord_assaying ..

/-- A wavefront's step where the predecessor has left the tile. -/
theorem execWeldWavefront_free {s : State} {j t p : Nat} (hg : s.hasGraph j = true) (hph : (s.graph j).phase = .loading)
    (hp : (s.job j).welded = some p) (he : ∃ e ∈ (s.graph j).actors, e.2.tile = t ∧ e.2.loaded = false)
    (hf : (s.graph p).phase = .saved ∨ ∀ e ∈ (s.graph p).actors, e.2.tile ≠ t ∨ e.2.ended = true) :
    exec (.weldWavefront j ⟨t, none⟩) s = .next (s.setGraph j { s.graph j with actors := (s.graph j).actors.map (fun e =>
      if e.2.tile = t then (e.1, { e.2 with loaded := true }) else e) }) := by
  obtain ⟨e, hmem, htile, hload⟩ := he
  have hhere : (s.graph j).actors.filter (fun e => e.2.tile = t && !e.2.loaded) ≠ [] :=
    List.ne_nil_of_mem (List.mem_filter.2 ⟨hmem, by simp [htile, hload]⟩)
  have hfree : ((s.graph p).phase = .saved || (s.graph p).actors.all (fun e => e.2.tile ≠ t || e.2.ended ||
      (s.graph p).quench.any (fun q => q.saved.contains e.1))) = true := by
    rcases hf with hf | hf
    · simp [hf]
    · refine Bool.or_eq_true_iff.2 (.inr (List.all_eq_true.2 fun e he => ?_))
      rcases hf e he with h | h <;> simp [h]
  show execWeldWavefront j ⟨t, none⟩ s = _
  unfold execWeldWavefront
  rw [hp]
  refine (if_neg ?_).trans rfl
  simp only [hg, hph, hfree]
  simpa using hhere

theorem loads : Claims.Loads := by
  refine ⟨fun s j ext m hm hg hph hw hq hp ha hall hargs => ?_, fun s j t p hg hph hp he hf => execWeldWavefront_free hg hph hp he hf,
    fun s j t w pl u h => ?_⟩
  · by_cases hd : (s.graph j).argsDone = true
    · obtain ⟨hphase, hst, hdone, hact⟩ := State.becomeResident_reads hq hp ha
      exact ⟨_, execConfigLoadDone_argsDone hm hg hph hw hall ext hd, hphase, hst, hdone.trans hd, hact, State.becomeResident_mem ..⟩
    · obtain ⟨hal, hs⟩ := hargs.resolve_left hd
      let s' := (s.setJob j { s.job j with failedPages := [] }).setGraph j { s.graph j with argsDone := true }
      have hgr : s'.graph j = { s.graph j with argsDone := true } := State.graph_setGraph_self ..
      have hacc : s'.accountOf j = s.accountOf j := State.accountOf_setJob (b := { s.job j with failedPages := [] }) rfl rfl j
      obtain ⟨hphase, hst, hdone, hact⟩ := State.becomeResident_reads (s := s') (j := j) (hgr ▸ hq) (hgr ▸ hp) (hacc ▸ ha)
      exact ⟨_, execConfigLoadDone_noArgs hm hg hph hw hall ext (by simpa using hd) hal hs, hphase, hst, hdone.trans (by rw [hgr]),
        hact.trans (by rw [hgr]), (State.becomeResident_mem ..).trans rfl⟩
  · obtain ⟨v, hv, g, rfl⟩ := execWeldWavefront_mark h
    rw [State.takeMark] at hv
    refine ⟨fun hok => ?_, fun hok => ?_⟩
    · rw [hok, Bool.not_true, if_neg (by simp)] at hv
      split at hv
      next hfit => exact MarkWant.fits_weld hfit
      · cases hv
    · rw [hok, Bool.not_false, if_pos rfl] at hv
      cases hv
      exact State.flitError_assaying s t 0 _

end Sys2Proof.Machine
end

section
/-! What the state of the jobs before a decision leaves as it was (R91, R92, R112). -/

namespace Sys2Proof.Machine

/-- The part without its jobs and what their notices touch. -/
def State.jobless (s : State) : State := { s.frame with jobs := [] }

theorem State.jobless_of_frame {s u : State} (h : u.frame = s.frame) : u.jobless = s.jobless :=
  (congrArg (fun x : State => { x with jobs := [] }) h :)

theorem State.graphs_of_jobless {s u : State} (h : u.jobless = s.jobless) : u.graphs = s.graphs := (congrArg State.graphs h :)
theorem State.queues_of_jobless {s u : State} (h : u.jobless = s.jobless) : u.queues = s.queues := (congrArg State.queues h :)

/-- A job but for its candidacy: what a refresh leaves of it. -/
def Job.core (b : Job) : Job := { b with st := .fetched, eff := 0, passes := 0, unplaceable := false, welded := none }

/-- The part has no job of the number. -/
def State.noJob (s : State) (j : Nat) : Prop := ∀ e ∈ s.jobs, e.1 ≠ j

theorem State.noJob_setJob {s : State} {j k : Nat} (h : s.noJob j) (hk : k ≠ j) (b : Job) : (s.setJob k b).noJob j := by
  intro e he
  rcases Tab.mem_insert.1 he with rfl | he
  · exact hk
  · exact h e (List.mem_of_mem_filter he)

/-- Setting a job that is there brings and removes none. -/
theorem State.noJob_setJob_iff {s : State} {k : Nat} (hk : ¬ s.noJob k) (b : Job) (j : Nat) : (s.setJob k b).noJob j ↔ s.noJob j := by
  refine ⟨fun h e he hj => ?_, fun h => State.noJob_setJob h (by rintro rfl; exact hk h) b⟩
  have hne : k ≠ j := h (k, b) (Tab.mem_insert.2 (.inl rfl))
  exact h e (Tab.mem_insert.2 (.inr (List.mem_filter.2 ⟨he, by simp [hj, hne.symm]⟩))) hj

theorem State.find_of_noJob {s : State} {j : Nat} (h : s.noJob j) : Tab.find s.jobs j = none := Tab.find_none j _ h

/-- Only the candidacy of jobs has changed, and no job has come. -/
structure State.Refreshed (s u : State) : Prop where
  jobless : u.jobless = s.jobless
  core : ∀ i, (u.job i).core = (s.job i).core
  noJob : ∀ i, u.noJob i ↔ s.noJob i

namespace State.Refreshed

theorem refl (s : State) : Refreshed s s := ⟨rfl, fun _ => rfl, fun _ => Iff.rfl⟩

theorem trans {s t u : State} (h : Refreshed s t) (h' : Refreshed t u) : Refreshed s u :=
  ⟨h'.jobless.trans h.jobless, fun i => (h'.core i).trans (h.core i), fun i => (h'.noJob i).trans (h.noJob i)⟩

theorem of_frame {s u : State} (h : u.frame = s.frame) : Refreshed s u :=
  have hj := State.jobs_of_frame h
  ⟨State.jobless_of_frame h, fun i => by rw [State.job_of_jobs hj], fun i => by rw [State.noJob, State.noJob, hj]⟩

theorem setJob {s : State} {k : Nat} {b : Job} (hk : ¬ s.noJob k) (h : b.core = (s.job k).core) : Refreshed s (s.setJob k b) :=
  ⟨rfl, State.job_setJob_field Job.core h, State.noJob_setJob_iff hk b⟩

theorem unweld {s : State} {k : Nat} (hk : ¬ s.noJob k) : Refreshed s (s.unweld k) := by
  unfold State.unweld
  extract_lets b
  split
  · exact setJob hk rfl
  · exact refl s

theorem notePlaceable {s : State} {k : Nat} (hk : ¬ s.noJob k) : Refreshed s (s.notePlaceable k) := by
  unfold State.notePlaceable
  extract_lets b
  split
  · exact refl s
  · have hn := of_frame (State.jobNotice_frame s k { code := 289, tval := BitVec.ofNat 64 b.queue })
    exact hn.trans (setJob (fun h => hk ((hn.noJob k).1 h)) (hn.core k).symm)

theorem refreshJob {s : State} {k : Nat} (hk : ¬ s.noJob k) : Refreshed s (s.refreshJob k) := by
  have hu := unweld hk
  have hn := hu.trans (notePlaceable fun h => hk ((hu.noJob k).1 h))
  have hset {b : Job} (h : b.core = (((s.unweld k).notePlaceable k).job k).core) :
      Refreshed s (((s.unweld k).notePlaceable k).setJob k b) := hn.trans (setJob (fun h => hk ((hn.noJob k).1 h)) h)
  unfold State.refreshJob
  extract_lets st t b
  split
  · exact refl s
  split
  · exact hset rfl
  split
  · split
    · exact hset rfl
    · exact hset rfl
  · exact hset rfl

/-- The jobs of a part before a decision. -/
theorem jobs (s : State) : Refreshed s ((s.jobs.map (·.1)).foldl State.refreshJob s) := by
  refine List.foldlRecOn _ _ (refl s) fun t h k hk => h.trans (refreshJob fun hn => ?_)
  obtain ⟨e, he, hke⟩ := List.mem_map.1 hk
  exact (h.noJob k).1 hn e he hke

end State.Refreshed

/-! The same for the whole refresh, which forgets the credits of sources without a candidate besides (R93). -/

theorem State.refresh_queues (s : State) : s.refresh.queues = s.queues := (State.queues_of_jobless (State.Refreshed.jobs s).jobless :)

theorem State.refresh_graphs (s : State) : s.refresh.graphs = s.graphs := (State.graphs_of_jobless (State.Refreshed.jobs s).jobless :)

theorem State.refresh_core (s : State) (i : Nat) : (s.refresh.job i).core = (s.job i).core := (State.Refreshed.jobs s).core i

theorem State.refresh_noJob {s : State} {i : Nat} (h : s.noJob i) : s.refresh.noJob i := ((State.Refreshed.jobs s).noJob i).2 h

end Sys2Proof.Machine
end

section
/-! The end of graphs and the retirement of jobs (R76 to R79, R105, R164). -/

namespace Sys2Proof.Machine

open Claims

/-! GRAPH_END. -/

/-- A graph whose requesters hold no request performs none as it goes (R55). -/
theorem State.performTaken_idle {s : State} {j : Nat} (h : ∀ r ∈ s.reqsOf j, r.2.tags = []) : s.performTaken j = s := by
  refine foldl_unchanged _ _ (fun e he w => ?_) s
  refine foldl_unchanged _ _ (fun r hr w => ?_) w
  have hmem : (e.1, r.2) ∈ s.reqsOf j := List.mem_flatMap.2 ⟨e, he, List.mem_map.2 ⟨r, hr, rfl⟩⟩
  have ht : r.2.tags = [] := h (e.1, r.2) hmem
  rw [ht]
  rfl

theorem State.dropGraph_mem (s : State) (j : Nat) : (s.dropGraph j).mem = (s.performTaken j).mem :=
  foldl_keeps State.mem (fun _ _ => by rfl) _ _

theorem State.reqsOf_of_allEnded {s : State} {j : Nat} (h : s.allEnded j = true) : ∀ r ∈ s.reqsOf j, r.2.tags = [] := by
  simp only [State.allEnded, Bool.and_eq_true] at h
  obtain ⟨⟨⟨⟨⟨-, -⟩, hr⟩, -⟩, -⟩, -⟩ := h
  intro r hm
  exact of_decide_eq_true (Bool.and_eq_true_iff.1 (List.all_eq_true.1 hr r hm)).2

/-- A job whose graph has ended (R105, R107). -/
def Job.closed (b : Job) : Job := { b with st := .ended, fail := if b.marked then b.fail.or (some (stDepth, 0)) else b.fail }

/-- A graph of which nothing is left ends, and its job with it. -/
theorem execGraphEnd_next {s : State} {j : Nat} (hg : s.hasGraph j = true) (hp : (s.graph j).phase = .resident) (ha : s.allEnded j = true)
    (hk : ∀ k, (s.job k).st ≠ .earmarked) : exec (.graphEnd j) s = .next ((s.dropGraph j).setJob j (s.job j).closed) := by
  have hguard : ¬ (!s.hasGraph j || (s.graph j).phase ≠ .resident || !s.allEnded j) = true := by simp [hg, hp, ha]
  have hjobs : (s.dropGraph j).jobs = s.jobs := State.jobs_of_ledger (s.dropGraph_ledger j)
  have hexec : exec (.graphEnd j) s = .next ((s.dropGraph j).setJob j ((s.dropGraph j).job j).closed).settleEarmarks := if_neg hguard
  rw [hexec, State.job_of_jobs hjobs, State.settleEarmarks_of_none]
  intro k
  by_cases hkj : k = j
  · rw [hkj, State.job_setJob_self]
    exact JState.noConfusion
  · rw [State.job_setJob_ne _ _ hkj, State.job_of_jobs hjobs]
    exact hk k

theorem State.hasGraph_dropGraph (s : State) (j : Nat) : (s.dropGraph j).hasGraph j = false := by
  rw [State.hasGraph, State.dropGraph_graphs, Tab.find_erase_self]
  rfl

theorem State.dropGraph_mem_of_allEnded {s : State} {j : Nat} (h : s.allEnded j = true) : (s.dropGraph j).mem = s.mem := by
  rw [State.dropGraph_mem, State.performTaken_idle (State.reqsOf_of_allEnded h)]

/-! DEADLOCK_DETECT. -/

section
variable {s : State} {j : Nat} (hg : s.hasGraph j = true) (hp : (s.graph j).phase = .resident) (hs : s.stuck j = true)

include hg hp hs in
theorem execDeadlockDetect_next : exec (.deadlockDetect j) s = .next (s.takeCause j { code := 98, suspends := false }) := by
  show execDeadlockDetect j s = _
  simp [execDeadlockDetect, hg, hp, hs]

include hg in
/-- Without a fault actor, DEADLOCK aborts the graph. -/
theorem State.takeCause_abort (hf : (s.graph j).fault = none) (c : Cause) : s.takeCause j c = s.abortGraph j stFault c := by
  have ht : (s.graph j).takes = none := by rw [Graph.takes, hf]; rfl
  simp [State.takeCause, hg, ht]

include hg in
/-- A fault actor with room takes the cause. -/
theorem State.takeCause_deliver {fa : FaultActor} (hq : (s.graph j).quench = none) (hf : (s.graph j).fault = some fa)
    (he : ((s.graph j).actor fa.aid).ended = false) (hd : ((s.graph j).actor fa.aid).deliveries.length < 16) {c : Cause}
    (hc : c.suspends = false) : ((s.takeCause j c).actor j fa.aid).deliveries = (s.actor j fa.aid).deliveries ++ [c] := by
  have ht : (s.graph j).takes = some fa := by rw [Graph.takes, hf]; simp [he]
  have hx : s.takeCause j c = s.setGraph j ((s.graph j).setActor fa.aid
      { (s.graph j).actor fa.aid with deliveries := ((s.graph j).actor fa.aid).deliveries ++ [c] }) := by
    simp [State.takeCause, hg, ht, hq, hc]
    omega
  rw [hx, State.actor, State.graph_setGraph_self, Graph.actor, Graph.setActor, Tab.get_set_self]
  rfl

end

end Sys2Proof.Machine
end

section
/-! The retirement of jobs (R76 to R79). -/

namespace Sys2Proof.Machine

open Claims

/-! A job that is gone. -/

/-- The part without a job whose lease has come back (R76, R136). -/
def State.gone (s : State) (j : Nat) : State :=
  { s.returnLease j with jobs := Tab.erase (s.returnLease j).jobs j,
                         kiln := { (s.returnLease j).kiln with failed := Tab.erase (s.returnLease j).kiln.failed j } }

theorem State.gone_noJob (s : State) (j : Nat) : (s.gone j).noJob j := Tab.erase_ne _ _

theorem State.job_gone (s : State) {i j : Nat} (h : i ≠ j) : (s.gone j).job i = s.job i :=
  (Tab.get_erase_ne _ _ h).trans (State.job_setJob_ne _ _ h)

/-- The queue of a retired job moves on, with its interrupt (R77, R78). -/
def State.movedOn (s : State) (j : Nat) (b : Job) : State :=
  let q := s.queue b.queue
  let t := if q.cfg.getLsbD 17 && (b.jr.irq || b.jr.sigOp = 3) then (s.gone j).emit (.msix q.link q.fn b.jr.vec) else s.gone j
  t.settleQueue b.queue { q with retire := q.retire + 1, last := some ((b.fail.map (·.1)).getD 0) }

/-- A dependent successor of a failure ends (R76). -/
def State.abortNext (b : Job) (s : State) (k : Nat) : State :=
  if (s.job k).index = b.index + 1 && (s.job k).jr.dep && (s.job k).fail.isNone then s.endJob k stAborted 0 else s

theorem State.retire_child {s : State} {j p : Nat} (h : (s.job j).parent = some p) :
    s.retire j = (s.gone j).passUp p (s.job j).fail := by
  simp only [State.retire, h]
  rfl

theorem State.retire_queued {s : State} {j : Nat} (h : (s.job j).parent = none) : s.retire j =
    if (((s.job j).fail.map (·.1)).getD 0 : Nat) = 0 then s.movedOn j (s.job j)
    else ((s.movedOn j (s.job j)).queueJobs (s.job j).queue).foldl (State.abortNext (s.job j)) (s.movedOn j (s.job j)) := by
  simp only [State.retire, h]
  rfl

theorem State.movedOn_jobs (s : State) (j : Nat) (b : Job) : (s.movedOn j b).jobs = (s.gone j).jobs := by
  unfold State.movedOn
  extract_lets q t
  show t.jobs = _
  simp only [t]
  split <;> rfl

/-- A queue that is not in a function reset keeps its QRETIRE as it settles. -/
theorem Queue.settle_retire {q : Queue} (h : q.flr = false) (ready : Bool) : (q.settle ready).retire = q.retire := by
  have hf : ¬ (q.flr = true ∧ q.retire = q.head) := by simp [h]
  by_cases hd : q.st = .draining ∧ q.retire = q.head
  · rw [Queue.settle_of_drained hf hd]
    rfl
  · rw [Queue.settle_of_live hf hd]
    rfl

theorem State.movedOn_retire {s : State} {b : Job} (h : (s.queue b.queue).flr = false) (j : Nat) :
    ((s.movedOn j b).queue b.queue).retire = (s.queue b.queue).retire + 1 := by
  unfold State.movedOn
  extract_lets q t
  rw [State.queue_settleQueue, Queue.settle_retire (show ({ q with retire := q.retire + 1, last := _ } : Queue).flr = false from h)]

theorem State.abortNext_queue (b : Job) (s : State) (k q : Nat) : (State.abortNext b s k).queue q = s.queue q := by
  unfold State.abortNext
  split
  · exact State.endJob_queue ..
  · rfl

theorem State.abortNext_noJob {b : Job} {s : State} {j k : Nat} (h : s.noJob j) (hk : k ≠ j) : (State.abortNext b s k).noJob j := by
  unfold State.abortNext
  split
  · rw [State.noJob, State.endJob, State.failJob_jobs]
    exact State.noJob_setJob (s := s) h hk _
  · exact h

theorem State.ne_of_mem_queueJobs {s : State} {j k q : Nat} (h : s.noJob j) (hk : k ∈ s.queueJobs q) : k ≠ j := by
  obtain ⟨e, he, rfl⟩ := List.mem_map.1 hk
  exact h e (List.mem_of_mem_filter he)

/-- A queued job that retires is gone, and its queue's QRETIRE has moved on. -/
theorem State.retire_queued_reads {s : State} {j : Nat} (h : (s.job j).parent = none) : (s.retire j).noJob j ∧
    ((s.queue (s.job j).queue).flr = false →
      ((s.retire j).queue (s.job j).queue).retire = (s.queue (s.job j).queue).retire + 1) := by
  have hn : (s.movedOn j (s.job j)).noJob j := by
    rw [State.noJob, State.movedOn_jobs]
    exact s.gone_noJob j
  rw [State.retire_queued h]
  split
  · exact ⟨hn, fun hf => State.movedOn_retire hf j⟩
  · refine ⟨List.foldlRecOn (motive := fun t : State => t.noJob j) _ _ hn fun t ht k hk =>
      State.abortNext_noJob ht (State.ne_of_mem_queueJobs hn hk), fun hf => ?_⟩
    have hq := foldl_keeps (fun t : State => t.queue (s.job j).queue) (fun t k => State.abortNext_queue (s.job j) t k _)
      ((s.movedOn j (s.job j)).queueJobs (s.job j).queue) (s.movedOn j (s.job j))
    exact (congrArg Queue.retire hq).trans (State.movedOn_retire hf j)

/-- The only job of a part leaves it without jobs. -/
theorem State.retire_sole {s : State} {j : Nat} {b : Job} (hj : s.jobs = [(j, b)]) (hp : b.parent = none) : (s.retire j).jobs = [] := by
  have hb : s.job j = b := State.job_of_sole hj
  have hg : (s.gone j).jobs = [] := by
    show Tab.erase (Tab.set s.jobs j _) j = []
    rw [hj, Tab.set_sole]
    simp [Tab.erase]
  have hm : (s.movedOn j (s.job j)).jobs = [] := (State.movedOn_jobs ..).trans hg
  rw [State.retire_queued (by rw [hb, hp])]
  split
  · exact hm
  · rw [State.queueJobs, hm]
    exact hm

/-- A child that retires with a fault passes it up to a parent without one (R79). -/
theorem State.retire_child_reads {s : State} {j p : Nat} (h : (s.job j).parent = some p) (hpj : p ≠ j) : (s.retire j).noJob j ∧
    ∀ c, (s.job j).fail = some (3, c) → (s.job p).fail = none → ((s.retire j).job p).fail = some (3, c) := by
  rw [State.retire_child h]
  refine ⟨?_, fun c hf hn => ?_⟩
  · unfold State.passUp
    split
    · split
      · exact State.noJob_setJob (s.gone_noJob j) hpj _
      · exact s.gone_noJob j
    · exact s.gone_noJob j
  · have hc : [stFault, stDepth, stUncorr, stWorld].contains 3 = true := by decide
    rw [hf, State.passUp]
    dsimp only
    rw [if_pos hc, State.job_setJob_self, s.job_gone hpj, hn]
    rfl

/-! The stages of a retirement without a signal. -/

theorem State.signal_none {s : State} {j : Nat} (h : (s.job j).jr.sigOp = 0) : s.signal j = .done s := by simp only [State.signal, h]

theorem State.writeStatus_child {s : State} {j p : Nat} (h : (s.job j).parent = some p) : s.writeStatus j = .done s := by
  simp [State.writeStatus, h]

/-- A job at a stage of its retirement. -/
def Job.atStage (b : Job) (n : Nat) : Job := { b with retStage := n }

def State.setStage (s : State) (j n : Nat) : State := s.setJob j ((s.job j).atStage n)

@[simp] theorem State.job_setStage (s : State) (j n : Nat) : (s.setStage j n).job j = (s.job j).atStage n := State.job_setJob_self ..

theorem State.stage_done {s : State} {j : Nat} (h : s.ownDone j = true) (n : Nat) (go : State → State) :
    s.stage j n go = go (s.setStage j n) := if_pos h

theorem State.stage_waits {s : State} {j : Nat} (h : s.ownDone j = false) (n : Nat) (go : State → State) :
    s.stage j n go = s.setStage j n := if_neg (show ¬ s.ownDone j = true by simp [h])

theorem State.signalOut_none {s : State} {j : Nat} (hs : (s.job j).jr.sigOp = 0) (ho : s.ownDone j = true) :
    s.signalOut j = (s.setStage j 2).retire j := by
  rw [State.signalOut, State.signal_none hs]
  exact State.stage_done ho 2 _

/-- A job without a signal whose DW15 is written retires at once. -/
theorem State.stage_signalOut {s : State} {j : Nat} (hs : (s.job j).jr.sigOp = 0) (ho : s.ownDone j = true) :
    s.stage j 1 (fun s => s.signalOut j) = ((s.setStage j 1).setStage j 2).retire j := by
  rw [State.stage_done ho]
  exact State.signalOut_none (by rw [State.job_setStage]; exact hs) ho

theorem State.statusOut_none {s s1 : State} {j : Nat} (hs : (s.job j).jr.sigOp = 0) (hw : s.writeStatus j = .done s1) :
    s.statusOut j = s1.stage j 1 (fun s => s.signalOut j) := by
  rw [State.statusOut, State.signal_none hs]
  dsimp only
  rw [hw]

/-- The first stage of a retirement without a signal. -/
theorem State.retireStep_first {s s1 : State} {j : Nat} (h0 : (s.job j).retStage = 0) (hs : (s.job j).jr.sigOp = 0)
    (hw : s.writeStatus j = .done s1) : s.retireStep j = s1.stage j 1 (fun s => s.signalOut j) := by
  rw [State.retireStep, h0, State.signal_none hs]
  exact State.statusOut_none hs hw

/-- Two states that differ in how far one job has retired. -/
structure State.Staged (s v : State) (j : Nat) : Prop where
  parent : (v.job j).parent = (s.job j).parent
  fail : (v.job j).fail = (s.job j).fail
  others : ∀ i, i ≠ j → v.job i = s.job i

theorem State.Staged.setStage (s : State) (j n : Nat) : State.Staged s (s.setStage j n) j :=
  ⟨by rw [State.job_setStage]; rfl, by rw [State.job_setStage]; rfl, fun _ hi => State.job_setJob_ne _ _ hi⟩

theorem State.Staged.trans {s t v : State} {j : Nat} (h : State.Staged s t j) (h' : State.Staged t v j) : State.Staged s v j :=
  ⟨h'.parent.trans h.parent, h'.fail.trans h.fail, fun i hi => (h'.others i hi).trans (h.others i hi)⟩

/-- A child without a signal, whose writes are done, retires at whatever stage it is: it has no DW15 (R77). -/
theorem State.retireStep_child {s : State} {j p : Nat} (hp : (s.job j).parent = some p) (hs : (s.job j).jr.sigOp = 0)
    (ho : s.ownDone j = true) : ∃ v, s.retireStep j = v.retire j ∧ State.Staged s v j := by
  match hst : (s.job j).retStage with
  | 0 =>
    rw [State.retireStep_first hst hs (State.writeStatus_child hp), State.stage_signalOut hs ho]
    exact ⟨_, rfl, (State.Staged.setStage s j 1).trans (State.Staged.setStage _ j 2)⟩
  | 1 =>
    rw [State.retireStep, hst]
    exact ⟨_, State.signalOut_none hs ho, State.Staged.setStage s j 2⟩
  | n + 2 =>
    rw [State.retireStep, hst]
    exact ⟨s, rfl, rfl, rfl, fun _ _ => rfl⟩

section
variable {s : State} {j : Nat} {b : Job} (hf : Tab.find s.jobs j = some b) (hst : b.st = .ended) (hc : s.children j = [])
  (he : s.effectsDone j = true) (ho : s.ownDone j = true) (hq : b.parent.isSome = true ∨ ∀ k ∈ s.queueJobs b.queue, j ≤ k)

include hf hst hc he ho hq in
theorem execJobRetire_step : exec (.jobRetire j) s =
    orWait "JOB_RETIRE" s (if (Tab.find (s.retireStep j).jobs j).isNone then (s.retireStep j).refresh else s.retireStep j) := by
  have hj := State.job_of_find hf
  have hfirst : ((s.job j).parent.isSome || (s.queueJobs (s.job j).queue).all (fun k => decide (j ≤ k))) = true := by
    rw [hj, Bool.or_eq_true_iff]
    exact hq.imp_right fun h => List.all_eq_true.2 fun k hk => decide_eq_true (h k hk)
  have hover : (s.job j).st.over = true := by rw [hj, hst]; rfl
  show execJobRetire j s = _
  rw [execJobRetire]
  refine if_neg ?_
  rw [hfirst, hover, hf, hc, he, ho]
  simp

include hf hst hc he ho hq in
/-- A job that has come to its end is gone. -/
theorem execJobRetire_gone (h : (s.retireStep j).noJob j) : exec (.jobRetire j) s = .next (s.retireStep j).refresh := by
  rw [execJobRetire_step hf hst hc he ho hq, if_pos (by rw [State.find_of_noJob h]; rfl)]
  refine Laws.orWait_next.2 ⟨fun hs => ?_, rfl⟩
  have hn := State.find_of_noJob (State.refresh_noJob h)
  rw [hs, hf] at hn
  cases hn

include hf hst hc he ho hq in
/-- A job whose DW15 travels waits at its first stage (R77). -/
theorem execJobRetire_waits {s1 : State} {x : Job} (h : s.retireStep j = s1.setJob j x) (hx : x ≠ b) :
    exec (.jobRetire j) s = .next (s1.setJob j x) := by
  have hfind : Tab.find (s1.setJob j x).jobs j = some x := Tab.find_set_self ..
  rw [execJobRetire_step hf hst hc he ho hq, h, hfind, if_neg (by simp)]
  refine Laws.orWait_next.2 ⟨fun hs => ?_, rfl⟩
  rw [hs, hf] at hfind
  exact hx (Option.some.inj hfind).symm

end

theorem State.refresh_mem_of_none {s : State} (h : s.jobs = []) : s.refresh.mem = s.mem := by
  rw [State.refresh, h]
  rfl

theorem State.fail_refresh (s : State) (i : Nat) : (s.refresh.job i).fail = (s.job i).fail :=
  (congrArg Job.fail (s.refresh_core i) :)

theorem ends : Claims.Ends := by
  refine ⟨fun s j hg hp ha hk => ?_, fun s j hg hp hs hq => ⟨fun hf => ?_, fun fa hf he hd => ?_⟩,
    fun s j b hf hst hc he ho hsig => ⟨fun p hp hpj => ?_, fun s1 hp hq h0 hw hj1 => ?_⟩⟩
  · refine ⟨_, execGraphEnd_next hg hp ha hk, State.hasGraph_dropGraph s j, ?_, State.dropGraph_mem_of_allEnded ha, ?_⟩
    · rw [State.job_setJob_self]
      rfl
    · rw [State.job_setJob_self]
      rfl
  · rw [execDeadlockDetect_next hg hp hs, State.takeCause_abort hg hf]
    rfl
  · exact ⟨_, execDeadlockDetect_next hg hp hs, State.takeCause_deliver hg hq hf he hd rfl⟩
  all_goals
    have hj := State.job_of_find hf
    subst hj
  · obtain ⟨v, hv, hpar, hfail, hoth⟩ := State.retireStep_child hp hsig ho
    obtain ⟨hgone, hpass⟩ := State.retire_child_reads (hpar.trans hp) hpj
    refine ⟨_, execJobRetire_gone hf hst hc he ho (.inl (by rw [hp]; rfl)) (hv ▸ hgone), ?_, fun c hc hn => ?_⟩
    · exact State.find_of_noJob (State.refresh_noJob (hv ▸ hgone))
    · rw [State.fail_refresh, hv]
      exact hpass c (hfail.trans hc) (by rw [hoth p hpj, hn])
  · have hstep := State.retireStep_first h0 hsig hw
    refine ⟨fun hown => ?_, fun hown hflr => ?_⟩
    · rw [State.stage_waits hown, State.setStage, hj1] at hstep
      refine execJobRetire_waits hf hst hc he ho (.inr hq) hstep fun hx => ?_
      rw [← hx] at h0
      cases h0
    · rw [State.stage_signalOut (by rw [hj1]; exact hsig) hown] at hstep
      let v := (s1.setStage j 1).setStage j 2
      have hv : v.job j = ((s.job j).atStage 1).atStage 2 := by rw [State.job_setStage, State.job_setStage, hj1]
      have hpv : (v.job j).parent = none := by rw [hv]; exact hp
      have hqv : (v.job j).queue = (s.job j).queue := by rw [hv]; rfl
      obtain ⟨hgone, hret⟩ := State.retire_queued_reads hpv
      rw [hqv] at hret
      refine ⟨_, execJobRetire_gone hf hst hc he ho (.inr hq) (hstep ▸ hgone), ?_, fun hsole => ?_, ?_⟩
      · exact State.find_of_noJob (State.refresh_noJob (hstep ▸ hgone))
      · have hvj : v.jobs = [(j, ((s.job j).atStage 1).atStage 2)] := by
          show Tab.set (Tab.set s1.jobs j _) j (((s1.setStage j 1).job j).atStage 2) = _
          rw [State.job_setStage, hj1, hsole, Tab.set_sole, Tab.set_sole]
        have hnone : (s.retireStep j).jobs = [] := by rw [hstep]; exact State.retire_sole hvj hp
        rw [State.refresh_mem_of_none hnone, hstep, State.retire_mem]
        rfl
      · rw [State.queue_of_queues (State.refresh_queues _), hstep]
        exact hret hflr

end Sys2Proof.Machine
end

section
/-! Dispatch decisions (R91 to R95, R111, R112). -/

namespace Sys2Proof.Machine

open Claims

/-! What a candidacy does not decide: the world, the variants and the places of a job (R81, R98, R112). -/

theorem State.Refreshed.field {α : Type} (f : Job → α) {s u : State} (h : State.Refreshed s u) (i : Nat) :
    f (u.job i).core = f (s.job i).core := by rw [h.core]

theorem State.Refreshed.parent {s u : State} (h : State.Refreshed s u) (i : Nat) : (u.job i).parent = (s.job i).parent :=
  (h.field Job.parent i :)

theorem State.Refreshed.root {s u : State} (h : State.Refreshed s u) (i : Nat) : u.root i = s.root i := by
  simp only [State.root, h.parent]

theorem State.Refreshed.jobSecure {s u : State} (h : State.Refreshed s u) (i : Nat) : u.jobSecure i = s.jobSecure i := by
  have hq : (u.job (s.root i)).queue = (s.job (s.root i)).queue := (h.field Job.queue _ :)
  rw [State.jobSecure, State.jobSecure, h.root, hq, State.queue_of_queues (State.queues_of_jobless h.jobless)]

theorem State.Refreshed.shape {s u : State} (h : State.Refreshed s u) (i v : Nat) : u.shape i v = s.shape i v := by
  have hi : (u.job i).image = (s.job i).image := (h.field Job.image i :)
  rw [State.shape, State.shape, hi]

theorem State.Refreshed.placeable {s u : State} (h : State.Refreshed s u) (i v : Nat) : u.placeable i v = s.placeable i v := by
  have hr : u.roomy = s.roomy := (congrArg State.roomy h.jobless :)
  have hp : u.plotSecure = s.plotSecure := (congrArg State.plotSecure h.jobless :)
  rw [State.placeable, State.placeable, h.shape, h.jobSecure, hr, hp]

theorem State.Refreshed.variants {s u : State} (h : State.Refreshed s u) (i : Nat) : u.variants i = s.variants i := by
  have hg : u.hasGraph = s.hasGraph := (congrArg State.hasGraph h.jobless :)
  have hv : u.graph = s.graph := (congrArg State.graph h.jobless :)
  have hi : (u.job i).image = (s.job i).image := (h.field Job.image i :)
  have hj : (u.job i).jr = (s.job i).jr := (h.field Job.jr i :)
  have hr : (u.job i).resume = (s.job i).resume := (h.field Job.resume i :)
  rw [State.variants, State.variants, hg, hv, hi, hj, hr]

/-- Whether some place in the part can ever take a job (R112). -/
def State.hasPlace (s : State) (j : Nat) : Bool := (s.variants j).any (s.placeable j)

theorem State.Refreshed.hasPlace {s u : State} (h : State.Refreshed s u) (i : Nat) : u.hasPlace i = s.hasPlace i := by
  rw [State.hasPlace, State.hasPlace, h.variants, funext (h.placeable i)]

/-! A part with one job and no graph. -/

theorem index_succ_ne (x : W32) : x + 1 ≠ x := by
  intro h
  have hx := congrArg BitVec.toNat h
  simp at hx
  omega

/-- A lone job that its order admits and that some place can take. -/
structure State.Lone (s : State) (j : Nat) (b : Job) : Prop where
  jobs : s.jobs = [(j, b)]
  graphs : s.graphs = []
  image : b.image ≠ none
  parent : b.parent = none
  free : b.jr.dep = false
  place : s.hasPlace j = true

/-- A candidate with its base priority (R91, R92). -/
def Job.candidate (b : Job) (prio : Nat) : Job := { b with st := .candidate, eff := prio, passes := 0, unplaceable := false }

/-- The candidacy that a refresh gives a job that its order admits. -/
def Job.offered (b : Job) (prio : Nat) : Job := if b.st = .candidate then { b with unplaceable := false } else b.candidate prio

section
variable {s : State} {j : Nat} {b : Job} (h : s.Lone j b)

include h in
theorem State.Lone.noGraph (k : Nat) : s.hasGraph k = false := by rw [State.hasGraph, h.graphs]; rfl

include h in
theorem State.Lone.eligible (hs : b.st = .waiting ∨ b.st = .candidate) : s.eligibleJob j = true := by
  have hj := State.job_of_sole h.jobs
  have hpred : s.pred j = none := by
    have hq : s.queueJobs b.queue = [j] := by simp [State.queueJobs, h.jobs, h.parent]
    rw [State.pred, hj, hq, List.find?_cons, hj, decide_eq_false (index_succ_ne b.index)]
    rfl
  rw [State.eligibleJob]
  rcases hs with hs | hs <;> simp [hj, hs, h.image, h.noGraph, h.parent, h.free, hpred, JState.over]

include h in
/-- A refresh makes it a candidate, or leaves it one. -/
theorem State.Lone.refreshJob (hs : b.st = .waiting ∨ b.st = .candidate) : s.refreshJob j = s.setJob j (b.offered (s.basePrio j)) := by
  have hj := State.job_of_sole h.jobs
  have hplace : (s.variants j).any (s.placeable j) = true := h.place
  have hu : s.unweld j = s := by simp [State.unweld, h.noGraph]
  have hn : s.notePlaceable j = s := by simp [State.notePlaceable, hplace]
  have hst : ¬ (b.st ≠ .waiting && b.st ≠ .candidate && b.st ≠ .parked && b.st ≠ .stalled) = true := by
    rcases hs with hs | hs <;> simp [hs]
  rw [State.refreshJob, hu, hn, hj]
  refine (if_neg hst).trans ?_
  simp only [hj, hplace, h.eligible hs, Bool.not_true, Bool.and_false, Bool.false_eq_true, if_false, if_true]
  exact (apply_ite (s.setJob j) _ _ _).symm

theorem Job.offered_core (b : Job) (prio : Nat) : (b.offered prio).core = b.core := by
  unfold Job.offered
  split <;> rfl

theorem Job.offered_st (b : Job) (prio : Nat) : (b.offered prio).st = .candidate := by
  unfold Job.offered
  split
  next h => exact h
  · rfl

include h in
theorem State.Lone.refresh_reads (hs : b.st = .waiting ∨ b.st = .candidate) :
    s.refresh.jobs = [(j, b.offered (s.basePrio j))] ∧ s.refresh.mem = s.mem := by
  have hr : (s.jobs.map (·.1)).foldl State.refreshJob s = s.setJob j (b.offered (s.basePrio j)) := by
    rw [h.jobs]
    exact h.refreshJob hs
  rw [State.refresh, hr]
  refine ⟨?_, rfl⟩
  show Tab.set s.jobs j _ = _
  rw [h.jobs, Tab.set_sole]

include h in
/-- It is alone after a refresh too. -/
theorem State.Lone.refresh (hs : b.st = .waiting ∨ b.st = .candidate) : s.refresh.Lone j (b.offered (s.basePrio j)) := by
  have hc := b.offered_core (s.basePrio j)
  exact ⟨(h.refresh_reads hs).1, (s.refresh_graphs).trans h.graphs, (congrArg Job.image hc :).trans_ne h.image,
    (congrArg Job.parent hc :).trans h.parent, (congrArg (fun b => b.jr.dep) hc :).trans h.free,
    ((State.Refreshed.jobs s).hasPlace j :).trans h.place⟩

include h in
/-- A waiting job has nothing before the Kiln (R111). -/
theorem State.Lone.notPending (hs : b.st = .waiting) : s.kilnPending = false := by
  have hr : execJobRetire j s = disabled "JOB_RETIRE" := by
    rw [execJobRetire]
    exact if_pos (by simp [State.job_of_sole h.jobs, hs, JState.over])
  simp [State.kilnPending, h.graphs, h.jobs, hr, disabled, Res.off]

end

/-! Decisions that place nothing. -/

/-- The part but for what a decision that places nothing leaves in the Kiln (R93, R100). -/
def State.undecided (s : State) : State := { s with kiln := { s.kiln with capBind := false, failed := [] } }

theorem State.capNow_of_undecided {s u : State} (h : u.undecided = s.undecided) : u.capNow = s.capNow := (congrArg State.capNow h :)

/-- Under a cap of 0 nothing is placed (R94). -/
theorem State.place1_capped {s : State} (h : s.capNow = 0) (j : Nat) : s.place1 j = .no s := by
  rw [State.place1, h]
  rfl

theorem State.tryEach_capped (l : List Nat) (s : State) (h : s.capNow = 0) :
    (State.tryEach l s).2 = none ∧ (State.tryEach l s).1.undecided = s.undecided := by
  induction l generalizing s with
  | nil => exact ⟨rfl, rfl⟩
  | cons c l ih =>
    rw [State.tryEach, State.place1_capped h]
    exact ih (s.noteFailed c) h

/-- An attempt that places nothing. -/
theorem State.tryEach_none {l : List Nat} {s : State} (h : s.capNow = 0) :
    ∃ t, State.tryEach l s = (t, none) ∧ t.undecided = s.undecided := by
  obtain ⟨hnone, hund⟩ := State.tryEach_capped l s h
  exact ⟨_, Prod.ext rfl hnone, hund⟩

theorem State.levels_capped (n : Nat) (s : State) (cands : List Nat) (h : s.capNow = 0) : (State.levels n s cands).undecided = s.undecided := by
  induction n generalizing s with
  | zero => rfl
  | succ n ih =>
    rw [State.levels]
    generalize s.offered.filter (fun j => (s.job j).eff = n) = level
    dsimp only
    split
    · exact ih s h
    · generalize s.levelOrder level = ob
      have hb : (if ob.2 then { s with kiln := { s.kiln with capBind := true } } else s).undecided = s.undecided := by split <;> rfl
      generalize (if ob.2 then { s with kiln := { s.kiln with capBind := true } } else s) = t at hb ⊢
      have ht : t.capNow = 0 := (State.capNow_of_undecided hb).trans h
      obtain ⟨v, hv, hund⟩ := State.tryEach_none (l := ob.1) ht
      rw [hv]
      exact (ih v ((State.capNow_of_undecided hund).trans ht)).trans (hund.trans hb)

theorem State.decide1_capped {s : State} (h : s.capNow = 0) : s.decide1.undecided = s.undecided := by
  rw [State.decide1]
  dsimp only
  split
  · obtain ⟨v, hv, hund⟩ := State.tryEach_none (s := { s with kiln := { s.kiln with capBind := false } }) h
    rw [hv]
    exact hund
  · exact State.levels_capped 8 _ _ h

theorem State.Lone.of_undecided {s u : State} {j : Nat} {b : Job} (h : s.Lone j b) (hu : u.undecided = s.undecided) : u.Lone j b :=
  ⟨(congrArg State.jobs hu :).trans h.jobs, (congrArg State.graphs hu :).trans h.graphs, h.image, h.parent, h.free,
    (congrArg (fun x : State => x.hasPlace j) hu :).trans h.place⟩

/-! DISPATCH_DECISION. -/

section
variable {s : State} (hh : s.kiln.halt = false) (hf : s.board.fwstate ≠ 5) (hr : s.board.ready = true) (hp : s.kilnPending = false)

include hh hf hr hp in
/-- A decision with a candidate (R111). -/
theorem execDispatchDecision_next (hc : s.settleEarmarks.refresh.candidates ≠ []) (hne : s.settleEarmarks.refresh.decide1.refresh ≠ s) :
    exec .dispatchDecision s = .next s.settleEarmarks.refresh.decide1.refresh := by
  have hg : ¬ (s.kiln.halt || s.board.fwstate = 5 || !s.board.ready || s.kilnPending) = true := by simp [hh, hf, hr, hp]
  show execDispatchDecision s = _
  rw [execDispatchDecision, if_neg hg]
  dsimp only
  rw [if_neg hc]
  exact Laws.orWait_next.2 ⟨hne, rfl⟩

end

/-- A decision over a lone waiting job under a cap of 0 makes it a candidate and places nothing (R91, R94). -/
theorem State.Lone.decision {s : State} {j : Nat} {b : Job} (h : s.Lone j b) (hs : b.st = .waiting) (hcap : s.kiln.cap = 0) :
    (s.settleEarmarks.refresh.candidates = [j]) ∧
      s.settleEarmarks.refresh.decide1.refresh.jobs = [(j, b.candidate (s.basePrio j))] ∧
      s.settleEarmarks.refresh.decide1.refresh.graphs = [] ∧ s.settleEarmarks.refresh.decide1.refresh.mem = s.mem := by
  have hcap' : s.refresh.capNow = 0 := by
    have hn : s.capNow = 0 := by simp [State.capNow, hcap]
    exact (congrArg State.capNow (State.Refreshed.jobs s).jobless :).trans hn
  have ho : b.offered (s.basePrio j) = b.candidate (s.basePrio j) := if_neg (by simp [hs])
  have hlone := h.refresh (.inl hs)
  have hd : s.refresh.decide1.undecided = s.refresh.undecided := State.decide1_capped hcap'
  have hlone' := hlone.of_undecided hd
  have hst : (b.offered (s.basePrio j)).st = .waiting ∨ (b.offered (s.basePrio j)).st = .candidate := .inr (b.offered_st _)
  obtain ⟨hjobs, hmem⟩ := hlone'.refresh_reads hst
  rw [State.settleEarmarks_of_sole h.jobs (by simp [hs])]
  refine ⟨?_, hjobs.trans ?_, (State.refresh_graphs _).trans hlone'.graphs, ?_⟩
  · rw [State.candidates, hlone.jobs]
    simp [b.offered_st]
  · rw [ho]
    rfl
  · exact (hmem.trans (congrArg State.mem hd :)).trans (h.refresh_reads (.inl hs)).2

end Sys2Proof.Machine
end

section
/-! The placement of a lone candidate (R93). -/

namespace Sys2Proof.Machine

open Claims

/-- The placement of one candidate leaves every credit as it was: what the level adds, the candidate pays (R93). -/
theorem get_creditsAfter_sole (src w : Nat → Nat) (j q : Nat) (t : Tab Int) :
    Tab.get 0 (creditsAfter src w [j] j t) q = Tab.get 0 t q := by
  simp only [creditsAfter, List.foldl_cons, List.foldl_nil, Tab.get_put_self]
  by_cases hq : q = src j
  · rw [hq, Tab.get_put_self]
    simp [sumOf]
  · rw [Tab.get_put_ne _ _ _ hq, Tab.get_put_ne _ _ _ hq]

theorem State.passAll_sole (s : State) (j : Nat) : s.passAll [j] j = s := by simp [State.passAll]

/-- Whether the cap binds for a level of one candidate (R93). -/
def State.capBinds (s : State) (j : Nat) : Bool := decide (s.capNow < s.charged + s.chargeOf (s.shape j ((s.variants j).headD 0)))

theorem State.levelOrder_sole (s : State) (j : Nat) : s.levelOrder [j] = ([j], s.capBinds j) := by
  by_cases h : s.capNow < s.charged + s.chargeOf (s.shape j ((s.variants j).headD 0))
  · exact (if_pos h).trans (Prod.ext rfl (decide_eq_true h).symm)
  · exact (if_neg h).trans (Prod.ext rfl (decide_eq_false h).symm)

/-- The part after the placement of a lone candidate (R93). -/
def State.credited (s1 : State) (src w : Nat → Nat) (j : Nat) : State :=
  { s1 with kiln := { s1.kiln with credits := creditsAfter src w [j] j s1.kiln.credits } }

/-- The part with the mark of whether the cap binds (R93). -/
def State.withBind (s : State) (c : Bool) : State := { s with kiln := { s.kiln with capBind := c } }

theorem State.job_withBind (s : State) (c : Bool) (j : Nat) : (s.withBind c).job j = s.job j := rfl

theorem State.withBind_mark (s : State) (c : Bool) :
    (if c then { s.withBind false with kiln := { (s.withBind false).kiln with capBind := true } } else s.withBind false) = s.withBind c := by
  cases c with
  | true => rfl
  | false => rfl

section
variable {s s1 : State} {j : Nat} (ho : s.offered = [j]) (hp : (s.withBind (s.capBinds j)).place1 j = .ok s1)

include ho hp in
/-- The levels above that of a lone candidate are empty, and at its own it is placed. -/
theorem State.levels_sole (n : Nat) (hn : (s.job j).eff < n) : ∃ src w, State.levels n (s.withBind false) [j] = s1.credited src w j := by
  have ho' : (s.withBind false).offered = [j] := ho
  induction n with
  | zero => omega
  | succ n ih =>
    rw [State.levels, ho']
    dsimp only
    by_cases he : (s.job j).eff = n
    · have hl : [j].filter (fun j => ((s.withBind false).job j).eff = n) = [j] := by simp [s.job_withBind, he]
      have ht : State.tryEach [j] (s.withBind (s.capBinds j)) = (s1, some (j, true)) := by rw [State.tryEach, hp]
      have hbind : (s.withBind false).capBinds j = s.capBinds j := rfl
      rw [hl, if_neg (by simp), State.levelOrder_sole, hbind]
      dsimp only
      rw [State.withBind_mark, ht]
      exact ⟨_, _, State.passAll_sole _ j⟩
    · have hl : [j].filter (fun j => ((s.withBind false).job j).eff = n) = [] := by simp [s.job_withBind, he]
      rw [hl, if_pos rfl]
      exact ih (by omega)

include ho hp in
/-- A decision places a lone candidate that can be placed (R93). -/
theorem State.decide1_sole (hc : s.candidates = [j]) (hh : (s.job j).held = none) (he : (s.job j).eff ≤ 7) :
    ∃ src w, s.decide1 = s1.credited src w j := by
  have hheld : (s.withBind false).offered.filter (fun k => ((s.withBind false).job k).held.isSome) = [] := by
    rw [show (s.withBind false).offered = [j] from ho]
    simp [s.job_withBind, hh]
  have hd : s.decide1 = State.levels 8 (s.withBind false) s.candidates := if_neg (not_not.2 hheld)
  rw [hd, hc]
  exact State.levels_sole ho hp 8 (Nat.lt_succ_of_le he)

end

/-- A refresh keeps the credit of each source that has a candidate (R93). -/
theorem State.credits_refresh {s : State} {q : Nat} (h : ∃ k ∈ s.refresh.candidates, s.refresh.source k = q) :
    Tab.get 0 s.refresh.kiln.credits q = Tab.get 0 s.kiln.credits q := by
  obtain ⟨k, hk, rfl⟩ := h
  have hkeep : ((s.jobs.map (·.1)).foldl State.refreshJob s).kiln.credits = s.kiln.credits :=
    (congrArg (fun x : State => x.kiln.credits) (State.Refreshed.jobs s).jobless :)
  refine (Tab.get_filter_key 0 _ fun e he hq => ?_).trans (congrArg (fun t => Tab.get 0 t _) hkeep)
  exact List.any_eq_true.2 ⟨k, hk, decide_eq_true hq.symm⟩

theorem decisions : Claims.Decisions := by
  refine ⟨fun s j b hh hf hr hcap hjobs hg hs hi hp hd hpl => ?_, fun s j s1 hh hf hr hp => ?_⟩
  · have hl : s.Lone j b := ⟨hjobs, hg, Option.isSome_iff_ne_none.1 hi, hp, hd, hpl⟩
    obtain ⟨hcand, hj, hgr, hmem⟩ := hl.decision hs hcap
    refine ⟨_, execDispatchDecision_next hh hf hr (hl.notPending hs) (by rw [hcand]; simp) fun he => ?_, ?_, ?_, ?_, hgr, hmem⟩
    · have hst := congrArg Job.st (State.job_of_sole (he ▸ hj))
      rw [State.job_of_sole hjobs, hs] at hst
      cases hst
    all_goals
      rw [State.job_of_sole hj]
      rfl
  · intro r binds hc ho hheld heff hplace hne
    obtain ⟨src, w, hdec⟩ := State.decide1_sole ho hplace hc hheld heff
    have hgr : r.decide1.refresh.graphs = s1.graphs := (State.refresh_graphs _).trans (by rw [hdec]; rfl)
    refine ⟨_, execDispatchDecision_next hh hf hr hp (by rw [hc]; simp) fun he => hne (by rw [← hgr, he]), hgr, fun q hq => ?_⟩
    rw [State.credits_refresh hq, hdec]
    exact get_creditsAfter_sole src w j q _

/-- Settles O52: each step of a job's life is of the state that it names, and leaves what it says. -/
theorem jobEvents : Obligations.JobEvents := ⟨fetches, verifications, decisions, loads, ends⟩

end Sys2Proof.Machine
end

section
/-! Energy and the quenches of an empty account (R110, R135 to R137). -/

namespace Sys2Proof.Machine

/-- A graph that is asked for a quench changes no job (R171). -/
theorem State.askQuench_jobs (s : State) (j : Nat) : (s.askQuench j).jobs = s.jobs := by
  unfold State.askQuench
  extract_lets g
  split
  · rfl
  · split <;> rfl

theorem State.beginQuench_jobs (s : State) (j : Nat) : (s.beginQuench j).jobs = s.jobs :=
  foldl_keeps State.jobs State.askQuench_jobs _ s

theorem State.markStall_jobs (s : State) (j : Nat) : (s.markStall j).jobs = s.jobs := by
  unfold State.markStall
  split <;> rfl

/-- The stop of a tree is a matter of its graphs (R110, R137). -/
theorem State.stall_jobs (s : State) (r : Nat) : (s.stall r).jobs = s.jobs :=
  (foldl_keeps State.jobs State.markStall_jobs _ _).trans (foldl_keeps State.jobs State.beginQuench_jobs _ s)

theorem State.markStall_phase (s : State) (j : Nat) : ((s.markStall j).graph j).phase = (s.graph j).phase := by
  unfold State.markStall
  split
  · rw [State.graph_setGraph_self]
  · rfl

/-- The root of a job follows from the parents of the jobs alone (R79). -/
theorem State.root_setJob {s : State} {k : Nat} {b : Job} (hp : b.parent = (s.job k).parent) (j : Nat) :
    (s.setJob k b).root j = s.root j := by
  simp only [State.root, State.job_setJob_field Job.parent hp]

section
variable {s : State} {j : Nat} {g : Graph} (hg : s.graphs = [(j, g)])

include hg in
theorem State.graph_of_sole : s.graph j = g := by simp [State.graph, hg, Tab.get]

include hg in
/-- A tree with the one graph of the part. -/
theorem State.treeGraphs_sole {r : Nat} (hr : s.root j = r) : s.treeGraphs r = [j] := by simp [State.treeGraphs, hg, hr]

include hg in
/-- A lone graph is welded with none. -/
theorem State.weldSet_sole (n : Nat) : s.weldSet (n + 1) [j] = [j] := by
  have hp : s.partners j = [] := by simp [State.partners, hg]
  simp [State.weldSet, hp]

include hg in
/-- A lone resident graph that is asked for a quench is quenching (R171). -/
theorem State.beginQuench_sole (hp : g.phase = .resident) (hq : g.quench = none) : ((s.beginQuench j).graph j).phase = .quenching := by
  have ha : s.beginQuench j = s.askQuench j := by rw [State.beginQuench, s.weldSet_sole hg 255]; rfl
  have hh : s.hasGraph j = true := by simp [State.hasGraph, hg, Tab.find]
  rw [ha, State.askQuench]
  simp [hh, State.graph_of_sole hg, hp, hq]

include hg in
/-- The stop of a tree with one resident graph (R110, R137). -/
theorem State.stall_sole {r : Nat} (hr : s.root j = r) (hp : g.phase = .resident) (hq : g.quench = none) :
    ((s.stall r).graph j).phase = .quenching := by
  have hs : s.stall r = (s.beginQuench j).markStall j := by rw [State.stall, State.treeGraphs_sole hg hr]; rfl
  rw [hs, State.markStall_phase]
  exact State.beginQuench_sole hg hp hq

include hg in
theorem State.stalling_sole {r : Nat} (hr : s.root j = r) (hq : g.quench = none) : s.stalling r = false := by
  simp [State.stalling, State.treeGraphs_sole hg hr, State.graph_of_sole hg, hq]

end

/-- Whom the energy of a block may be charged to (R135). -/
theorem State.chargeable_of {s : State} {b j : Nat} {idle : Bool}
    (h : (idle = true ∧ b < 4096 ∧ (s.lowest b).any (fun x => decide (x.1 = j)) = true) ∨
      (idle = false ∧ b < 4096 ∧ (s.residents b).any (fun x => decide (x.1 = j ∧ x.2.2.slot = (s.tile b).last)) = true) ∨
      (idle = false ∧ 4096 ≤ b ∧ ((s.port (b - 4096)).eng.copy.any (fun c => decide (c.job = j)) = true ∨
        (∃ c ∈ (s.port (b - 4096)).eng.ending, c.job = j) ∨ ∃ q ∈ (s.port (b - 4096)).reqs, q.2.job = j))) :
    s.chargeable b j idle = true := by
  rcases h with ⟨rfl, hb, h⟩ | ⟨rfl, hb, h⟩ | ⟨rfl, hb, h⟩
  · simpa [State.chargeable, hb] using h
  · simpa [State.chargeable, hb] using h
  · rw [State.chargeable, if_neg (by omega)]
    simpa [or_assoc] using h

section
variable {s : State} {b j uj : Nat} {idle : Bool} (hc : s.chargeable b j idle = true)

include hc in
/-- Nothing is charged to an empty account, nor while the quenches that it has caused go on (R137). -/
theorem execEnergyCharge_stopped (h : (s.job (s.root j)).account = some 0 ∨ s.stalling (s.root j) = true) :
    exec (.energyCharge b j ⟨uj, idle⟩) s = .next s := by
  show execEnergyCharge b j ⟨uj, idle⟩ s = _
  simp [execEnergyCharge, hc, h]

include hc in
/-- The step of a tile above 44 is paid from the lease (R136). -/
theorem execEnergyCharge_lease (ha : b < 4096 ∧ 44 < s.commonStep b) (h0 : (s.job (s.root j)).account ≠ some 0)
    (hs : s.stalling (s.root j) = false) : exec (.energyCharge b j ⟨uj, idle⟩) s =
      .next (s.setJob (s.root j) { s.job (s.root j) with lease := (s.job (s.root j)).lease - uj }) := by
  show execEnergyCharge b j ⟨uj, idle⟩ s = _
  simp [execEnergyCharge, hc, h0, hs, ha]

include hc in
/-- A tree without an account pays nothing at or below step 44 (R110, R137). -/
theorem execEnergyCharge_free (ha : ¬ (b < 4096 ∧ 44 < s.commonStep b)) (hn : (s.job (s.root j)).account = none) :
    exec (.energyCharge b j ⟨uj, idle⟩) s = .next s := by
  show execEnergyCharge b j ⟨uj, idle⟩ s = _
  simp only [execEnergyCharge, hc, if_neg ha, hn]
  simp

/-- The part with what is left on the account of a job's tree. -/
def State.paid (s : State) (j uj n : Nat) : State := s.setJob (s.root j) { s.job (s.root j) with account := some (n - uj) }

include hc in
/-- An account pays at or below step 44; the tree stops where nothing is left (R110, R137). -/
theorem execEnergyCharge_account (ha : ¬ (b < 4096 ∧ 44 < s.commonStep b)) {n : Nat} (hn : (s.job (s.root j)).account = some n)
    (h0 : 0 < n) (hs : s.stalling (s.root j) = false) : exec (.energyCharge b j ⟨uj, idle⟩) s =
      .next (if n ≤ uj then ((s.paid j uj n).stall (s.root j)).refresh else s.paid j uj n) := by
  have hg : ¬ ((s.job (s.root j)).account = some 0 || s.stalling (s.root j)) = true := by simp [hn, hs]; omega
  have he : (n - uj = 0 && n ≠ 0) = true ↔ n ≤ uj := by simp; omega
  show execEnergyCharge b j ⟨uj, idle⟩ s = _
  rw [execEnergyCharge]
  refine (if_neg (by simp [hc])).trans ((if_neg hg).trans ((if_neg ha).trans ?_))
  rw [hn]
  exact congrArg Host.Outcome.next (if_congr he rfl rfl)

end

/-- A lone resident graph whose account has been emptied quenches (R110, R137). -/
theorem State.paid_stall {s : State} {j uj n : Nat} {g : Graph} (hg : s.graphs = [(j, g)]) (hp : g.phase = .resident)
    (hq : g.quench = none) (hn : n ≤ uj) : ((((s.paid j uj n).stall (s.root j)).refresh).job (s.root j)).account = some 0 ∧
      ((((s.paid j uj n).stall (s.root j)).refresh).graph j).phase = .quenching := by
  have hr : (s.paid j uj n).root j = s.root j := State.root_setJob (b := { s.job (s.root j) with account := some (n - uj) }) rfl j
  refine ⟨?_, ?_⟩
  · have hc := congrArg Job.account (State.refresh_core ((s.paid j uj n).stall (s.root j)) (s.root j))
    refine hc.trans ((congrArg Job.account (State.job_of_jobs (State.stall_jobs (s.paid j uj n) _) _)).trans ?_)
    rw [State.paid, State.job_setJob_self, Nat.sub_eq_zero_of_le hn]
  · have hs : ((s.paid j uj n).stall (s.root j)).refresh.graphs = ((s.paid j uj n).stall (s.root j)).graphs := State.refresh_graphs _
    rw [State.graph, hs]
    exact State.stall_sole (s := s.paid j uj n) hg hr hp hq

end Sys2Proof.Machine
end

section
/-! Heat (R123), and what energy and heat come to. -/

namespace Sys2Proof.Machine

section
variable {s : State} {b c : Nat}

theorem execThermalRead_stops (hc : 110 ≤ c) (hs : (s.block b).stopped = false) : exec (.thermalRead b c) s =
    .next ((s.setBlock b { s.block b with temp := c, stopped := true }).blockNotice b 241) := by
  show execThermalRead b c s = _
  simp [execThermalRead, hc, hs]

theorem execThermalRead_starts (hc : c < 100) (hs : (s.block b).stopped = true) : exec (.thermalRead b c) s =
    .next (s.setBlock b { s.block b with temp := c, stopped := false, tstep := 0 }) := by
  show execThermalRead b c s = _
  simp [execThermalRead, hc, hs]

theorem execThermalRead_stays (h : (c < 110 ∧ (s.block b).stopped = false) ∨ (100 ≤ c ∧ (s.block b).stopped = true)) :
    exec (.thermalRead b c) s = .next (s.setBlock b { s.block b with temp := c }) := by
  show execThermalRead b c s = _
  rcases h with ⟨hc, hs⟩ | ⟨hc, hs⟩
  · simp [execThermalRead, hs, Nat.not_le.2 hc]
  · simp [execThermalRead, hs, Nat.not_lt.2 hc]

theorem execThermalStep_down (ht : s.tthrot b ≤ (s.block b).temp) (h0 : 0 < (s.block b).tstep) :
    exec (.thermalStep b) s = .next (s.setBlock b { s.block b with tstep := (s.block b).tstep - 1 }) := by
  show execThermalStep b s = _
  simp [execThermalStep, ht, Nat.ne_of_gt h0]

theorem execThermalStep_up (ht : (s.block b).temp + 5 < s.tthrot b) (h : (s.block b).tstep < 68) :
    exec (.thermalStep b) s = .next (s.setBlock b { s.block b with tstep := (s.block b).tstep + 1 }) := by
  have hn : ¬ s.tthrot b ≤ (s.block b).temp := by omega
  show execThermalStep b s = _
  simp [execThermalStep, hn, ht, h]

end

theorem energyAndHeat : Claims.EnergyAndHeat := by
  refine ⟨fun s b j uj idle h => ?_, fun s b c => ?_⟩
  · have hc := State.chargeable_of h
    intro r above
    refine ⟨execEnergyCharge_stopped hc, fun ha h0 hs => execEnergyCharge_lease hc ha h0 hs, fun ha hn => execEnergyCharge_free hc ha hn,
      fun n ha hn hs hlt => ?_, fun n ha hn hle hg hp hq h0 => ?_⟩
    · rw [execEnergyCharge_account hc ha hn (by omega) hs, if_neg (by omega)]
      rfl
    · have hs : s.stalling r = false := State.stalling_sole hg rfl hq
      rw [execEnergyCharge_account hc ha hn h0 hs, if_pos hle]
      exact ⟨_, rfl, State.paid_stall hg hp hq hle⟩
  · exact ⟨execThermalRead_stops, execThermalRead_starts, execThermalRead_stays, execThermalStep_down, execThermalStep_up⟩

end Sys2Proof.Machine
end

section
/-! Power windows (R124, R125). -/

namespace Sys2Proof.Machine

/-- The part once a window has been counted: whether the cap binds, and the calm windows up to this one (R124, R125). -/
def State.windowed (s : State) (watts : Nat) : State :=
  { s with kiln := { s.kiln with bound := decide (s.capNow < watts),
                                 calm := if 100 * watts < 95 * s.capNow then min (s.kiln.calm + 1) 11 else 0 } }

/-- A window is counted, and throttles or undoes a throttle action (R124, R125). -/
theorem execPowerWindow_next (s : State) (watts : Nat) : exec (.powerWindow watts) s =
    .next (if s.capNow < watts then (s.windowed watts).throttle
      else if 100 * watts < 95 * s.capNow ∧ 10 ≤ s.kiln.calm then (s.windowed watts).unthrottle else s.windowed watts) := by
  show execPowerWindow watts s = _
  by_cases hl : 100 * watts < 95 * s.capNow
  · simp [execPowerWindow, State.windowed, hl]
  · simp [execPowerWindow, State.windowed, hl]

/-- The part without its graphs. -/
def State.graphless (s : State) : State := { s with graphs := [] }

theorem State.throttle_graphless (s : State) : s.throttle.graphless = s.graphless := by
  unfold State.throttle
  extract_lets
  split
  · rfl
  · extract_lets
    split <;> rfl

theorem State.unthrottle_graphless (s : State) : s.unthrottle.graphless = s.graphless := by
  unfold State.unthrottle
  extract_lets
  split
  · rfl
  · split <;> rfl

/-- Of the rest of the part a window leaves what it has counted. -/
theorem execPowerWindow_graphless (s : State) (watts : Nat) :
    ∃ u, exec (.powerWindow watts) s = .next u ∧ u.graphless = (s.windowed watts).graphless := by
  refine ⟨_, execPowerWindow_next s watts, ?_⟩
  split
  · exact State.throttle_graphless _
  · split
    · exact State.unthrottle_graphless _
    · rfl

section
variable {s : State} {r : Ranked} (hr : s.ranked = [r]) {al : Alloy} (ha : Tab.find (s.graph r.job).alloys r.alloy = some al)

include ha in
theorem State.limitOf_of_find : s.limitOf r = al.limit := congrArg Alloy.limit (Tab.get_of_find ha)

include ha in
theorem State.find_setLimit (k : Nat) : Tab.find ((s.setLimit r k).graph r.job).alloys r.alloy = some { al with limit := k } := by
  rw [State.setLimit, State.graph_setGraph_self]
  dsimp only
  rw [Tab.find_modify_self, ha]
  rfl

include hr ha in
/-- The lone alloy of a graph that has no half-row mode is throttled by a step (R124). -/
theorem State.throttle_sole (hl : (s.graph r.job).large = false) (h0 : 0 < al.limit) : s.throttle = s.setLimit r (al.limit - 1) := by
  simp [State.throttle, hr, hl, State.limitOf_of_find ha, h0, firstOf]

include hr ha in
/-- A lone alloy below step 68 gets a step back (R125). -/
theorem State.unthrottle_sole (hl : al.limit < 68) : s.unthrottle = s.setLimit r (al.limit + 1) := by
  simp [State.unthrottle, hr, State.limitOf_of_find ha, hl, firstOf]

end

theorem powerWindows : Claims.PowerWindows := by
  intro s watts cap
  have hcap : cap = s.capNow := rfl
  have he := execPowerWindow_next s watts
  refine ⟨?_, fun r al hr hl ha => ⟨fun hb h0 => ?_, fun hc h10 h68 => ?_⟩⟩
  · obtain ⟨u, hu, hg⟩ := execPowerWindow_graphless s watts
    have hk : u.kiln = (s.windowed watts).kiln := (congrArg State.kiln hg :)
    exact ⟨u, hu, by rw [hk]; rfl, (congrArg State.mem hg :), (congrArg State.jobs hg :), by rw [hk]; rfl⟩
  · rw [if_pos (hcap ▸ hb), State.throttle_sole (s := s.windowed watts) hr ha hl h0] at he
    exact ⟨_, he, State.find_setLimit (s := s.windowed watts) ha _⟩
  · rw [if_neg (by omega), if_pos ⟨hcap ▸ hc, h10⟩, State.unthrottle_sole (s := s.windowed watts) hr ha h68] at he
    exact ⟨_, he, State.find_setLimit (s := s.windowed watts) ha _⟩

end Sys2Proof.Machine
end

section
/-! What placements make of the blocks (R123, R127, R301). -/

namespace Sys2Proof.Machine

/-- Block `y` is block `x` but for its step, its half-row mode and an assay that has stopped. -/
def Block.Lodges (x y : Block) : Prop := ∃ k h r, y = { x with tstep := k, half := h, running := x.running && r }

/-- The blocks after placements: each may have a new step and mode, and its assay may have stopped (R123, R127, R301). -/
def State.Lodges (s u : State) : Prop := ∀ b, (s.block b).Lodges (u.block b)

theorem Block.Lodges.refl (x : Block) : x.Lodges x := ⟨x.tstep, x.half, true, by simp⟩

namespace State.Lodges

theorem of_blocks {s u : State} (h : u.blocks = s.blocks) : s.Lodges u := fun b => by
  rw [State.block_of_blocks h]
  exact .refl _

theorem refl (s : State) : s.Lodges s := of_blocks rfl

theorem trans {s t u : State} (h : s.Lodges t) (h' : t.Lodges u) : s.Lodges u := fun b => by
  obtain ⟨k, m, r, h⟩ := h b
  obtain ⟨k', m', r', h'⟩ := h' b
  exact ⟨k', m', r && r', by rw [h', h, Bool.and_assoc]⟩

theorem setBlock {s : State} {t : Nat} {x : Block} (h : (s.block t).Lodges x) : s.Lodges (s.setBlock t x) := fun b => by
  by_cases hb : b = t
  · rw [hb, State.block_setBlock_self]
    exact h
  · rw [State.block_setBlock_ne _ _ hb]
    exact .refl _

theorem foldl {α : Type} {k : State → α → State} (hk : ∀ (s : State) x, s.Lodges (k s x)) (l : List α) (s : State) : s.Lodges (l.foldl k s) :=
  List.foldlRecOn l k (refl s) fun _ h x _ => h.trans (hk _ x)

theorem freshSteps (s : State) (g : Graph) : s.Lodges (s.freshSteps g) :=
  foldl (fun s t => setBlock ⟨68, (s.block t).half && s.residents t ≠ [], true, by simp⟩) _ s

theorem stopAssays (s : State) (g : Graph) : s.Lodges (s.stopAssays g) := by
  refine foldl (fun s e => ?_) _ s
  split
  · exact setBlock ⟨_, _, false, by rw [Bool.and_false]⟩
  · exact refl s

end State.Lodges

/-! Placements change nothing else of the blocks. -/

theorem State.firstLoad_blocks (s : State) (j : Nat) : (s.firstLoad j).blocks = s.blocks := by
  unfold State.firstLoad
  extract_lets b grant units t
  split
  · rfl
  · show t.blocks = _
    simp only [t]
    split <;> rfl

theorem State.reserveQueues_blocks (s : State) (j : Nat) (g : Graph) : (s.reserveQueues j g).blocks = s.blocks :=
  foldl_keeps State.blocks (fun s t => by split <;> rfl) _ s

theorem State.Lodges.beginLoad (s : State) (j : Nat) (g : Graph) (micro : List Micro) (weld : Option Nat) :
    s.Lodges (s.beginLoad j g micro weld) := by
  have hm : (micro.foldl State.loadMicro (((s.firstLoad j).freshSteps g).stopAssays g)).blocks = _ :=
    foldl_keeps State.blocks (fun _ _ => by rfl) _ _
  have hl : s.Lodges (((s.firstLoad j).freshSteps g).stopAssays g) :=
    ((of_blocks (s.firstLoad_blocks j)).trans (freshSteps _ g)).trans (stopAssays _ g)
  exact hl.trans (of_blocks ((State.reserveQueues_blocks _ j g).trans hm))

theorem State.poisonSite_blocks (s : State) (t : Nat) (e : ErrSite) : (s.poisonSite t e).blocks = s.blocks :=
  congrArg Prod.snd (s.poisonSite_records t e)

theorem State.strike_blocks (s : State) (j : Nat) (h : CtxHit) : (s.strike j h).blocks = s.blocks := by
  have hs : ∀ (t k : Nat) (l : List Nat),
      (l.foldl (fun s o => s.poisonSite t { mem := k, aid := h.aid, off := o }) s).blocks = s.blocks :=
    fun t k l => foldl_keeps State.blocks (fun s _ => s.poisonSite_blocks ..) l s
  unfold State.strike
  extract_lets t sites bits
  split
  · rfl
  · rfl
  · exact hs ..
  · exact hs ..
  · exact hs ..
  · exact hs ..
  · rfl
  · rfl
  · rfl
  · rfl

theorem State.bindReq_blocks {s u : State} {p : Nat} {r : Requester} (h : s.bindReq p r = some u) : u.blocks = s.blocks := by
  unfold State.bindReq at h
  extract_lets x at h
  split at h
  · cases h; rfl
  · cases h

theorem State.bindReqs_blocks {s u : State} {j : Nat} {g : Graph} (h : s.bindReqs j g = some u) : u.blocks = s.blocks := by
  unfold State.bindReqs at h
  refine List.foldlRecOn (motive := fun o => ∀ u, o = some u → u.blocks = s.blocks) _ _ (fun u hu => ?_) (fun o ho e _ u hu => ?_) u h
  · cases hu; rfl
  · obtain ⟨v, hv, he⟩ := Option.bind_eq_some_iff.1 hu
    exact (State.bindReq_blocks he).trans (ho v hv)

theorem State.refuse_blocks (s : State) (j aid : Nat) : (s.refuse j aid).blocks = s.blocks := by
  unfold State.refuse
  extract_lets c
  split
  · exact (State.queues_blocks_abortGraph ..).2
  · exact (State.failJob_keeps ..).2.trans (State.blocks_of_frame (State.pushRecord_frame ..))

theorem State.Lodges.enter (s : State) (j v o : Nat) (weld : Option Nat) : s.Lodges (s.enter j v o weld).state := by
  unfold State.enter
  split
  · exact refl s
  split
  · exact of_blocks (State.refuse_blocks ..)
  · exact of_blocks (State.queues_blocks_abortGraph ..).2
  split
  · exact of_blocks (State.failJob_keeps ..).2
  extract_lets
  split
  · exact refl s
  split
  · exact of_blocks (State.refuse_blocks ..)
  next hu =>
    have hb := State.bindReqs_blocks (Option.ite_none_right_eq_some.1 hu).2
    exact ((of_blocks hb).trans (beginLoad _ j _ _ weld)).trans (of_blocks (foldl_keeps State.blocks (fun s h => s.strike_blocks _ h) _ _))

theorem State.Lodges.enterAll (n : Nat) (s : State) (j v o : Nat) (weld : Option Nat) : s.Lodges (State.enterAll n s j v o weld).state := by
  induction n generalizing s j v o weld with
  | zero => exact enter s j v o weld
  | succ n ih =>
    have he := enter s j v o weld
    unfold State.enterAll
    split
    next t ht =>
      rw [ht] at he
      refine List.foldlRecOn (motive := fun r : Placed => s.Lodges r.state) _ _ he fun r hr y _ => ?_
      split
      next t =>
        dsimp only
        split
        next o' _ =>
          have hi := ih t y ((t.variants y).headD 0) o' (some j)
          split
          next h => rw [h] at hi; exact hr.trans hi
          next h => rw [h] at hi; exact hr.trans hi
          · exact refl s
        · exact refl s
      · exact hr
    · exact he

theorem State.Lodges.settleEarmark (s : State) (j : Nat) : s.Lodges (s.settleEarmark j) := by
  unfold State.settleEarmark
  extract_lets b
  split
  next v o _ _ =>
    have he := enterAll 256 s j v o none
    split
    · exact refl s
    split
    · split
      next h => rw [h] at he; exact he
      next h => rw [h] at he; exact he
      · exact of_blocks rfl
    · exact of_blocks rfl
  · exact refl s

theorem State.refresh_blocks (s : State) : s.refresh.blocks = s.blocks :=
  (congrArg State.blocks (State.Refreshed.jobs s).jobless :)

/-- What a change of the spent tiles makes of the candidates takes no block away (R93, R103). -/
theorem State.Lodges.resettle (s : State) : s.Lodges s.resettle :=
  (foldl State.Lodges.settleEarmark _ s).trans (of_blocks (State.refresh_blocks _))

end Sys2Proof.Machine
end

section
/-! Ageing and assays (R140, R141, R300 to R302). -/

namespace Sys2Proof

theorem Tab.find_map {α : Type} (f : α → α) (t : Tab α) (k : Nat) : Tab.find (t.map fun e => (e.1, f e.2)) k = (Tab.find t k).map f := by
  induction t with
  | nil => rfl
  | cons e t ih =>
    by_cases h : e.1 = k
    · simp [Tab.find, h]
    · simpa [Tab.find, h] using ih

namespace Machine

/-- The measurements that a block keeps: the last thirty (R140). -/
def Block.histWith (b : Block) (drift age : Nat) : List (Nat × Nat) := (b.hist ++ [(age, drift)]).drop (b.hist.length + 1 - 30)

/-- A block as a measurement leaves it (R140, R141). -/
def Block.measured (b : Block) (drift age : Nat) : Block :=
  { b with drift := min drift 255, life := lifeOf (b.histWith (min drift 255) age) (min drift 255) age,
           hist := b.histWith (min drift 255) age, ceilLoss := max b.ceilLoss (2 * driftMarks (min drift 255)),
           aged := b.aged || (!b.aged && decide (lifeOf (b.histWith (min drift 255) age) (min drift 255) age < 6)) }

theorem State.block_measure (s : State) (b drift age : Nat) : (s.measure b drift age).block b = (s.block b).measured drift age := by
  unfold State.measure
  extract_lets x d hist l old u
  have hu : u.block b = x.measured drift age := State.block_setBlock_self ..
  split
  · exact (State.block_of_blocks (State.queues_blocks_blockNotice ..).2 b).trans hu
  · exact hu

/-- A block that has drifted by 50 has no life left (R140). -/
theorem lifeOf_drifted (hist : List (Nat × Nat)) (age : Nat) {drift : Nat} (h : 50 ≤ drift) : lifeOf hist drift age = 0 := if_pos h

theorem Block.histWith_of_room {b : Block} (h : b.hist.length < 30) (drift age : Nat) : b.histWith drift age = b.hist ++ [(age, drift)] := by
  rw [Block.histWith, Nat.sub_eq_zero_of_le h, List.drop_zero]

/-- A block as the end of an assay leaves it, before it is measured: the records that asked show the result (R300, R301). -/
def Block.assayed (b : Block) (lasting : Bool) : Block :=
  { b with assaying := false, running := false, banks := b.banks.map fun e =>
      (e.1, if e.2.assay = 1 then { e.2 with assay := if lasting then 3 else 2 } else e.2) }

/-- The part as the end of an assay leaves it, before lasting faults have their effect (R140, R300, R301). -/
def State.assayEnd (s : State) (b : Nat) (lasting : Bool) (drift age : Nat) : State :=
  State.measure { s.setBlock b ((s.block b).assayed lasting) with
    jobs := s.jobs.map fun e => (e.1, { e.2 with assays := e.2.assays.filter (· ≠ b) }) } b drift age

theorem execAssayComplete_next {s : State} {b : Nat} (ha : (s.block b).assaying = true) (hr : (s.block b).running = true)
    (lasting : Bool) (drift age : Nat) : exec (.assayComplete b lasting drift age) s =
      .next (if lasting then ((s.assayEnd b lasting drift age).spend b).resettle else s.assayEnd b lasting drift age) := by
  show execAssayComplete b lasting drift age s = _
  rw [execAssayComplete]
  exact if_neg (by simp [ha, hr])

theorem State.block_assayEnd (s : State) (b : Nat) (lasting : Bool) (drift age : Nat) :
    (s.assayEnd b lasting drift age).block b = ((s.block b).assayed lasting).measured drift age := by
  rw [State.assayEnd, State.block_measure]
  exact congrArg (Block.measured · drift age) (State.block_setBlock_self ..)

theorem State.block_spend_self (s : State) (b : Nat) : (s.spend b).block b = { s.block b with spent := true } := by
  rw [State.block, (s.queues_blocks_spend b).2, Tab.get_set_self]

/-- A block at the end of its assay: spent where the faults last, and with the result in its records (R300 to R302). -/
theorem execAssayComplete_block {s : State} {b : Nat} (ha : (s.block b).assaying = true) (hr : (s.block b).running = true)
    (lasting : Bool) (drift age : Nat) : ∃ u, exec (.assayComplete b lasting drift age) s = .next u ∧
      (((s.block b).assayed lasting).measured drift age).Lodges { u.block b with spent := (s.block b).spent } ∧
      (u.block b).spent = ((s.block b).spent || lasting) := by
  refine ⟨_, execAssayComplete_next ha hr lasting drift age, ?_⟩
  have hb := s.block_assayEnd b lasting drift age
  cases lasting with
  | false =>
    simp only [Bool.false_eq_true, if_false, hb, Bool.or_false]
    exact ⟨.refl _, rfl⟩
  | true =>
    obtain ⟨k, h, r, hl⟩ := State.Lodges.resettle ((s.assayEnd b true drift age).spend b) b
    rw [State.block_spend_self, hb] at hl
    simp only [if_true, hl, Bool.or_true]
    exact ⟨⟨k, h, r, rfl⟩, trivial⟩

/-- A block that holds no actor is measured (R140). -/
theorem execAgeingMeasure_next {s : State} {b : Nat} (h : s.residents b = []) (d age : Nat) :
    exec (.ageingMeasure b d age) s = .next (s.measure b d age) := if_pos h

/-- An assay that was asked for runs on a port tile, and on a compute tile that holds no actor and is in no move (R301, R302). -/
theorem execAssayRun_next {s : State} {b : Nat} (ha : (s.block b).assaying = true) (hr : (s.block b).running = false)
    (ht : b < 4096 → s.residents b = [] ∧ s.inMove b = false) :
    exec (.assayRun b) s = .next (s.setBlock b { s.block b with running := true }) := by
  show execAssayRun b s = _
  refine if_neg ?_
  by_cases hb : b < 4096
  · obtain ⟨hres, hmove⟩ := ht hb
    simp [ha, hr, hres, hmove]
  · simp [ha, hr, hb]

theorem ageing : Claims.Ageing := by
  refine ⟨fun s b d age h => ⟨_, execAgeingMeasure_next h d age, ?_⟩, fun s b ha => ⟨execAssayRun_next ha, fun lasting d age hr => ?_⟩⟩
  · rw [State.block_measure]
    exact ⟨rfl, fun hd => lifeOf_drifted _ _ (by omega), fun hh => Block.histWith_of_room hh _ _, rfl, rfl⟩
  · obtain ⟨u, hu, ⟨k, h, r, hl⟩, hs⟩ := execAssayComplete_block ha hr lasting d age
    have hbanks : (u.block b).banks = ((s.block b).assayed lasting).banks := (congrArg Block.banks hl :)
    refine ⟨u, hu, (congrArg Block.assaying hl :), (congrArg Block.running hl :), hs, fun n x hx h1 => ?_⟩
    rw [hbanks]
    refine (Tab.find_map (fun x : Bank => if x.assay = 1 then { x with assay := if lasting then 3 else 2 } else x) _ n).trans ?_
    rw [hx, Option.map_some, if_pos h1]

/-- Settles O54: energy, heat, the windows of the package limit, ageing and assays, each by the equations of its events. -/
theorem powerEvents : Obligations.PowerEvents := ⟨energyAndHeat, powerWindows, ageing⟩

end Machine
end Sys2Proof
end

section
/-! A copy starts with the registers of its engine (R201, R316, R407, R409). -/

namespace Sys2Proof

theorem Tab.get_append {α : Type} (d : α) (a b : Tab α) (i : Nat) : Tab.get d (a ++ b) i = Tab.get (Tab.get d b i) a i := by
  induction a with
  | nil => rfl
  | cons e a ih => simp [Tab.get, ih]

/-- A table that a fold builds again entry by entry, with other values where `P` fails, reads as it was at a key where `P` holds. -/
theorem Tab.get_foldl_rebuild {α σ : Type} {P : α → Prop} [DecidablePred P] (v : σ → α) (n : σ → σ) (d : α) (i : Nat) (l : Tab α)
    (h : ∀ e ∈ l, e.1 = i → P e.2) (x : Tab α × σ) :
    Tab.get d (l.foldl (fun x e => if P e.2 then (x.1 ++ [e], x.2) else (x.1 ++ [(e.1, v x.2)], n x.2)) x).1 i = Tab.get d (x.1 ++ l) i := by
  induction l generalizing x with
  | nil => simp
  | cons e l ih =>
    obtain ⟨he, hl⟩ := List.forall_mem_cons.mp h
    rw [List.foldl_cons, ih hl]
    split
    · rw [List.append_assoc, List.singleton_append]
    · next hP =>
      have hi : e.1 ≠ i := fun hi => hP (he hi)
      rw [List.append_assoc, List.singleton_append, Tab.get_append, Tab.get_append d x.1]
      simp only [Tab.get, hi, if_false]

namespace Machine

variable (s : State) (r : Regs)

theorem State.freeVector_snd : s.freeVector.2 = { s with fresh := s.fresh + 8 } := rfl

/-- A register whose load was cut short takes a free value, and nothing else of the part changes. -/
theorem State.keptRegs_keeps {β : Type} {f : State → β} (hf : ∀ (s : State) n, f { s with fresh := n } = f s) :
    f (s.keptRegs r).2 = f s := by
  unfold State.keptRegs
  refine (foldl_keeps (fun y : Tab VReg × State => f y.2) (fun y e => ?_) r.v _).trans
    (foldl_keeps (fun x : Tab SReg × State => f x.2) (fun x e => ?_) r.s ([], s))
  · split
    · rfl
    · exact (congrArg f y.2.freeVector_snd).trans (hf y.2 _)
  · split
    · rfl
    · exact hf x.2 _

theorem State.keptRegs_graphs : (s.keptRegs r).2.graphs = s.graphs := s.keptRegs_keeps r fun _ _ => rfl

theorem State.keptRegs_port (p : Nat) : (s.keptRegs r).2.port p = s.port p := s.keptRegs_keeps r (f := (·.port p)) fun _ _ => rfl

/-- A scalar register keeps its value unless its load was cut short (R316). -/
theorem State.keptRegs_s {i : Nat} (h : ∀ e ∈ r.s, e.1 = i → e.2.pend = []) :
    Tab.get {} (s.keptRegs r).1.s i = Tab.get {} r.s i := by
  exact Tab.get_foldl_rebuild (P := (·.pend = [])) (fun s : State => { val := s.freeValue.1 }) (fun s => s.freeValue.2) {} i r.s h ([], s)

/-- A vector register keeps its value unless its load was cut short (R316). -/
theorem State.keptRegs_v {i : Nat} (h : ∀ e ∈ r.v, e.1 = i → e.2.pend = []) :
    Tab.get {} (s.keptRegs r).1.v i = Tab.get {} r.v i := by
  exact Tab.get_foldl_rebuild (P := (·.pend = [])) (fun s : State => { val := s.freeVector.1 }) (fun s => s.freeVector.2) {} i r.v h ([], _)

/-- The registers with which the copy of a kick begins, but for the program counter: s1 names the record, s2 the template and
s3 the next segment (R201, R407, R409). -/
def Regs.opening (k : Kick) : Regs :=
  ((r.wr 1 0x2000 false).wr 2 (BitVec.ofNat 64 (128 * k.tmpl)) false).wr 3 (BitVec.ofNat 64 k.seg) false

/-- The engine whose copy of a kick begins. -/
def Engine.started (e : Engine) (p : Nat) (k : Kick) (t : Template) (rest : List Kick) : Engine :=
  { e.queued rest with
    regs := { r.opening k with pc := t.mcode }
    copy := some { job := k.job, aid := k.aid, tmpl := k.tmpl, uid := k.uid, cxid := cxidOf p k.tmpl k.aid k.kr, kr := k.kr,
                   seg := k.seg, subs := k.subs, dross := k.dross } }

variable (p : Nat) (k : Kick) (t : Template) (rest : List Kick)

theorem State.startCopy_graphs : (s.startCopy p k t rest).graphs = s.graphs := s.keptRegs_graphs (s.port p).eng.regs

theorem State.startCopy_eng : ((s.startCopy p k t rest).port p).eng =
    (s.port p).eng.started (s.keptRegs (s.port p).eng.regs).1 p k t rest :=
  congrArg Port.eng (State.port_setPort_self ..)

theorem Regs.opening_vals : (r.opening k).val 1 = 0x2000 ∧ (r.opening k).val 2 = BitVec.ofNat 64 (128 * k.tmpl) ∧
    (r.opening k).val 3 = BitVec.ofNat 64 k.seg := by
  refine ⟨?_, ?_, ?_⟩
  · rw [Regs.opening, Regs.val, Regs.rd_wr_ne _ _ _ (by decide), Regs.rd_wr_ne _ _ _ (by decide), Regs.rd_wr_self _ _ _ (by decide)]
  · rw [Regs.opening, Regs.val, Regs.rd_wr_ne _ _ _ (by decide), Regs.rd_wr_self _ _ _ (by decide)]
  · rw [Regs.opening, Regs.val, Regs.rd_wr_self _ _ _ (by decide)]

theorem Regs.get_wr_ne {d : BitVec 5} {i : Nat} (v : W64) (x : Bool) (h : i ≠ d.toNat) :
    Tab.get {} (r.wr d v x).s i = Tab.get {} r.s i := by
  unfold Regs.wr
  split
  · rfl
  · exact Tab.get_set_ne _ _ _ h

theorem Regs.opening_s {i : Nat} (h1 : i ≠ 1) (h2 : i ≠ 2) (h3 : i ≠ 3) : Tab.get {} (r.opening k).s i = Tab.get {} r.s i := by
  rw [Regs.opening, Regs.get_wr_ne _ _ _ h3, Regs.get_wr_ne _ _ _ h2, Regs.get_wr_ne _ _ _ h1]

theorem Regs.opening_v : (r.opening k).v = r.v := by simp [Regs.opening]
theorem Regs.opening_p : (r.opening k).p = r.p := by simp [Regs.opening]

/-- Kicks wait in the fabric only while the sixteen places of the queue are taken (R201). -/
theorem Engine.queued_late {e : Engine} (h : (e.queued rest).late ≠ []) : (e.queued rest).kicks.length = 16 := by
  have hd : rest.drop 16 ≠ [] := h
  have hl : 16 < rest.length := by simpa using hd
  show (rest.take 16).length = 16
  rw [List.length_take]
  omega

variable {s p k t}

/-- An idle engine starts the copy of the oldest kick that no quench holds back (R201, R424). -/
theorem execSiltCopyStart_next (hc : (s.port p).eng.copy = none) (hp : s.portStopped p = false)
    (hk : ((s.port p).eng.kicks ++ (s.port p).eng.late).find? (fun x => !s.kickWaits x p) = some k)
    (ht : (s.graph k.job).template? p k.tmpl = some t) (hr : s.copiesRun k p = true) : exec (.siltCopyStart p) s =
      .next (s.startCopy p k t (((s.port p).eng.kicks ++ (s.port p).eng.late).erase k)) := by
  show execSiltCopyStart p s = _
  simp [execSiltCopyStart, hc, hp, hk, ht, hr]

end Machine
end Sys2Proof
end

section
/-! A kick takes effect (R198, R199, R201, R202). -/

namespace Sys2Proof

theorem Tab.modify_cons {α : Type} (n : Nat) (v : α) (t : Tab α) (i : Nat) (f : α → α) :
    Tab.modify ((n, v) :: t) i f = (n, if n = i then f v else v) :: Tab.modify t i f := by
  by_cases h : n = i <;> simp [Tab.modify, h]

/-- What a change of values keeps of each, it keeps at every key. -/
theorem Tab.get_modify_of_keeps {α β : Type} {π : α → β} {f : α → α} (hf : ∀ x, π (f x) = π x) (d : α) (t : Tab α) (i k : Nat) :
    π (Tab.get d (Tab.modify t i f) k) = π (Tab.get d t k) := by
  induction t with
  | nil => rfl
  | cons e t ih =>
    obtain ⟨n, v⟩ := e
    rw [Tab.modify_cons, Tab.get, Tab.get]
    split
    · split
      · exact hf v
      · rfl
    · exact ih

/-- A copy that reads and writes no tile's memory takes no entry of a scoreboard (R193). -/
theorem Machine.sbEntries_of_remote {t : Template} (hs : t.skind ∉ [1, 2]) (hd : t.dkind ∉ [1, 2, 3]) (kr : V512) (aid uid : Nat) :
    sbEntries t kr aid uid [] = [] := by
  simp_all [sbEntries]

namespace Machine

/-- A state whose actor has another copy under way or complete: its number is used up (R201). -/
def State.withCompletion (s : State) (j aid : Nat) (k : Completion) : State :=
  s.newId.2.setActor j aid { s.actor j aid with comps := (s.actor j aid).comps ++ [k] }

variable (s : State) (j aid p n : Nat) (kr : V512)

/-- The completion of a bound template's kick, as the kick makes it (R200, R202). -/
def State.boundCompletion (handler : Nat) : Completion :=
  { uid := s.nextId, cxid := cxidOf p n aid kr, handler := handler, bound := true }

theorem State.withCompletion_comps (k : Completion) : ((s.withCompletion j aid k).actor j aid).comps = (s.actor j aid).comps ++ [k] :=
  congrArg Actor.comps (State.actor_setActor_self ..)

theorem State.withCompletion_chans (k : Completion) : ((s.withCompletion j aid k).graph j).chans = (s.graph j).chans := by
  rw [State.withCompletion, State.setActor, State.graph_setGraph_self]; rfl

/-- A kick joins the queue of an engine while it has a place and no kick waits in the fabric (R201). -/
theorem Engine.push_of_room {e : Engine} (hk : e.kicks.length < 16) (hl : e.late = []) (k : Kick) :
    e.push k = { e with kicks := e.kicks ++ [k] } := if_pos (by simp [hk, hl])

variable {s j aid p n kr}

/-- A record that carries dross completes its copy at once with cxst 3 (R198, log 28). -/
theorem State.kick_dross : ∃ handler, s.kick j aid p (some n) kr true =
    some (s.withCompletion j aid { s.boundCompletion aid p n kr handler with cxst := 3, released := true }) := by
  cases ht : (s.newId.2.graph j).template? p n with
  | none => exact ⟨0, by unfold State.kick; dsimp only [Option.getD_some]; rw [ht]; rfl⟩
  | some t => exact ⟨t.handler, by unfold State.kick; dsimp only [Option.getD_some]; rw [ht]; rfl⟩

variable {t : Template} (ht : (s.graph j).template? p n = some t) (hb : krBad kr = false)
include ht hb

/-- A copy of no elements completes at once (R199). -/
theorem State.kick_empty (h0 : ∃ d < 4, krCount kr d = 0) : s.kick j aid p (some n) kr false =
    some (s.withCompletion j aid { s.boundCompletion aid p n kr t.handler with released := true }) := by
  have ht' : (s.newId.2.graph j).template? p n = some t := ht
  have h0' : (List.range 4).any (fun d => krCount kr d = 0) = true := by simpa using h0
  unfold State.kick
  dsimp only [Option.getD_some]
  rw [ht']
  exact (if_neg (by rw [hb]; decide)).trans (if_pos h0')

/-- A kick whose copy needs no entry of a scoreboard joins the queue of its engine (R201). -/
theorem State.kick_queued (h0 : ∀ d < 4, krCount kr d ≠ 0) (hs : t.skind ∉ [1, 2]) (hd : t.dkind ∉ [1, 2, 3]) :
    s.kick j aid p (some n) kr false = some ((s.withCompletion j aid (s.boundCompletion aid p n kr t.handler)).setEngine p
      ((s.port p).eng.push { job := j, aid := aid, kr := kr, tmpl := n, uid := s.nextId })) := by
  have ht' : (s.newId.2.graph j).template? p n = some t := ht
  have h0' : (List.range 4).any (fun d => krCount kr d = 0) = false := by simpa using h0
  have h3 : t.dkind ≠ 3 := by simp_all
  unfold State.kick
  dsimp only [Option.getD_some]
  rw [ht']
  refine (if_neg (by rw [hb]; decide)).trans ((if_neg (by rw [h0']; decide)).trans ?_)
  simp only [h3, decide_false, Bool.false_and, List.filter_false, List.map_nil, sbEntries_of_remote hs hd,
    State.sbRoom, List.all_nil, Bool.not_true, List.append_nil]
  rfl

end Machine
end Sys2Proof
end

section
/-! A bound template kicks the record at the head of its channel (R202, R203). -/

namespace Sys2Proof.Machine

theorem Graph.wake_templates (g : Graph) (x : EndPt) : (g.wake x).templates = g.templates := by cases x <;> rfl

/-- Waking the producer of a channel leaves the copies of each actor. -/
theorem Graph.comps_wake (g : Graph) (x : EndPt) (n : Nat) : ((g.wake x).actor n).comps = (g.actor n).comps := by
  cases x with
  | actor aid _ => exact Tab.get_modify_of_keeps (π := Actor.comps) (f := fun a => { a with asleep := false }) (fun _ => rfl) ..
  | _ => rfl

theorem Graph.consume_template? (g : Graph) (c n p k : Nat) : (g.consume c n).template? p k = g.template? p k := by
  simp only [Graph.consume, Graph.template?]
  split
  · rfl
  · rw [Graph.wake_templates]; rfl

theorem Graph.comps_consume (g : Graph) (c n k : Nat) : ((g.consume c n).actor k).comps = (g.actor k).comps := by
  simp only [Graph.consume]
  split
  · rfl
  · exact Graph.comps_wake ..

/-- A state in which the token at the head of a channel has been taken. -/
def State.headTaken (s : State) (j c : Nat) : State := s.setGraph j ((s.graph j).consume c 1)

variable {s : State} {p n j c : Nat} {t : Template} {x : Token} {rest : List Token}

theorem State.headTaken_buf (h : ((s.graph j).chan c).buf = x :: rest) : (((s.headTaken j c).graph j).chan c).buf = rest := by
  rw [State.headTaken, State.graph_setGraph_self, Graph.consume_buf, h, List.drop_one, List.tail_cons]

theorem State.headTaken_template? : ((s.headTaken j c).graph j).template? p n = (s.graph j).template? p n := by
  rw [State.headTaken, State.graph_setGraph_self, Graph.consume_template?]

theorem State.headTaken_comps (k : Nat) : ((s.headTaken j c).actor j k).comps = (s.actor j k).comps := by
  rw [State.headTaken, State.actor, State.graph_setGraph_self, Graph.comps_consume, State.actor]

theorem State.buf_of_chans {u v : State} (h : (u.graph j).chans = (v.graph j).chans) :
    ((u.graph j).chan c).buf = ((v.graph j).chan c).buf := by
  rw [Graph.chan, h, Graph.chan]

section
variable (hl : s.loaded? p n = some (j, t)) (ha : t.armed = true) (hb : t.bound = true) (hp : s.portStopped p = false)
  (hq : (s.graph j).quench = none) (hr : (s.graph j).phase = .resident) (hc : t.declCh = some c)
  (hx : ((s.graph j).chan c).buf = x :: rest)
include hl ha hb hp hq hr hc hx

/-- A null is passed over (R202). -/
theorem execBoundKick_null (h : x.null = true) : exec (.boundKick p n) s = .next (s.headTaken j c) := by
  show execBoundKick p n s = _
  simp [execBoundKick, hl, ha, hb, hp, hq, hr, hc, hx, h, State.headTaken]

/-- Any other token is kicked (R202). -/
theorem execBoundKick_kick {u : State} {dross : Bool} (h : x.null = false) (hd : x.dross = dross)
    (hk : (s.headTaken j c).kick j t.aid p (some n) x.data dross = some u) : exec (.boundKick p n) s = .next u := by
  show execBoundKick p n s = _
  rw [State.headTaken] at hk
  simp [execBoundKick, hl, ha, hb, hp, hq, hr, hc, hx, h, hd, hk]

end

/-- A kick whose copy completes at once takes the record and leaves its completion with the actor, and the engines as they were. -/
theorem State.headTaken_withCompletion (h : ((s.graph j).chan c).buf = x :: rest) (aid : Nat) (k : Completion) :
    ((((s.headTaken j c).withCompletion j aid k).graph j).chan c).buf = rest ∧
      ((s.headTaken j c).withCompletion j aid k).ports = s.ports ∧
      (((s.headTaken j c).withCompletion j aid k).actor j aid).comps = (s.actor j aid).comps ++ [k] :=
  ⟨(State.buf_of_chans (State.withCompletion_chans ..)).trans (State.headTaken_buf h), rfl, by
    rw [State.withCompletion_comps, State.headTaken_comps]⟩

end Sys2Proof.Machine
end

section
/-! A host's write of a kick register (R203). -/

namespace Sys2Proof.Machine

/-- The offset of the kick register of a named queue of an engine (R203). -/
def kickRegister (p q : Nat) : Nat := 0x740000 + 256 * p + 64 * q

theorem kickRegister_engine (p : Nat) {q : Nat} (hq : q < 4) : (kickRegister p q - 0x740000) / 256 = p := by
  rw [kickRegister, Nat.add_assoc, Nat.add_sub_cancel_left, Nat.mul_add_div (by decide),
    Nat.div_eq_of_lt (Nat.mul_lt_mul_of_pos_left hq (by decide)), Nat.add_zero]

theorem kickRegister_queue (p : Nat) {q : Nat} (hq : q < 4) : kickRegister p q % 256 / 64 = q := by
  have h : 0x740000 + 256 * p = 256 * (0x7400 + p) := (Nat.mul_add 256 0x7400 p).symm
  rw [kickRegister, h, Nat.mul_add_mod, Nat.mod_eq_of_lt (Nat.mul_lt_mul_of_pos_left hq (by decide)),
    Nat.mul_div_cancel_left _ (by decide)]

theorem kickRegister_aligned (p q : Nat) : kickRegister p q % 64 = 0 :=
  Nat.mod_eq_zero_of_dvd (((by decide : 64 ∣ 0x740000).add ((by decide : 64 ∣ 256).mul_right p)).add (Nat.dvd_mul_right 64 q))

theorem kickRegister_inside {p q : Nat} (hp : p < 256) (hq : q < 4) :
    (kickRegister p q < 0x740000 || 0x750000 ≤ kickRegister p q) = false := by
  have hlo : 0x740000 ≤ kickRegister p q := Nat.le_add_right_of_le (Nat.le_add_right ..)
  have hhi : kickRegister p q < 0x750000 :=
    Nat.lt_of_le_of_lt (Nat.add_le_add (Nat.add_le_add_left (Nat.mul_le_mul_left 256 (Nat.le_of_lt_succ hp)) _)
      (Nat.mul_le_mul_left 64 (Nat.le_of_lt_succ hq))) (by decide : 0x740000 + 256 * 255 + 64 * 3 < 0x750000)
  rw [decide_eq_false (Nat.not_lt.mpr hlo), decide_eq_false (Nat.not_le.mpr hhi), Bool.or_false]

variable {s : State} {l p q : Nat} (hl : l < 4) (hh : s.hostUp l = true) (hp : p < 256) (hq : q < 4) (v : V512)
include hl hh hp hq

/-- A host's write of a kick register is dropped at an engine of the secure world, and else goes to the queue of its offset (R203). -/
theorem execKickRegisterWrite_eq : execKickRegisterWrite (.pf l) (kickRegister p q) v s =
    if s.portSecure p then
      .next (s.pushRecord false { cause := 338, tval := BitVec.ofNat 64 (0x18000000000 + kickRegister p q), wr := true })
    else (s.pushNamed p q v false).elim (disabled "KICK_REGISTER_WRITE") .next := by
  have hlink : (decide (4 ≤ l) || !s.hostUp l) = false := by rw [hh, decide_eq_false (Nat.not_le.mpr hl)]; rfl
  refine (if_neg (Bool.eq_false_iff.mp (kickRegister_inside hp hq))).trans ((if_neg (Bool.eq_false_iff.mp hlink)).trans
    ((if_neg (not_not.mpr (kickRegister_aligned p q))).trans ?_))
  rw [kickRegister_engine p hq, kickRegister_queue p hq]
  cases s.pushNamed p q v false <;> rfl

/-- A write to an engine of the secure world is dropped, with a record of its address (R203). -/
theorem execKickRegisterWrite_world (h : s.portSecure p = true) : exec (.kickRegisterWrite (.pf l) (kickRegister p q) v) s =
    .next (s.pushRecord false { cause := 338, tval := BitVec.ofNat 64 (0x18000000000 + kickRegister p q), wr := true }) :=
  (execKickRegisterWrite_eq hl hh hp hq v).trans (if_pos h)

/-- A write to a queue that has a place joins it (R203). -/
theorem execKickRegisterWrite_push (h : s.portSecure p = false) (hr : (Tab.get [] (s.port p).eng.named q).length < 16) :
    exec (.kickRegisterWrite (.pf l) (kickRegister p q) v) s = .next (s.setEngine p
      { (s.port p).eng with named := Tab.set (s.port p).eng.named q (Tab.get [] (s.port p).eng.named q ++ [(v, false)]) }) := by
  have hn : s.pushNamed p q v false = _ := if_neg (Nat.not_le.mpr hr)
  refine (execKickRegisterWrite_eq hl hh hp hq v).trans ?_
  rw [if_neg (Bool.eq_false_iff.mp h), hn, Option.elim_some]

end Sys2Proof.Machine
end

section
/-! The mailbox event of a copy (R195, R201). -/

namespace Sys2Proof.Machine

/-- An actor that the mailbox event of its copy has reached: the completion firing is pending (R201). -/
def Actor.mailed (a : Actor) (uid : Nat) : Actor :=
  { a with comps := a.comps.map (fun x => if x.uid = uid then { x with done := true } else x) }

theorem Actor.mailed_done (a : Actor) (uid : Nat) : ∀ y ∈ (a.mailed uid).comps, y.uid = uid → y.done = true := by
  intro y hy hu
  obtain ⟨x, -, rfl⟩ := List.mem_map.mp hy
  split at hu
  · next h => rw [if_pos h]
  · next h => exact absurd hu h

theorem Actor.mailed_cxids (a : Actor) (uid : Nat) : (a.mailed uid).comps.map (·.cxid) = a.comps.map (·.cxid) := by
  rw [Actor.mailed, List.map_map]
  refine List.map_congr_left fun x _ => ?_
  rw [Function.comp_apply]
  split <;> rfl

/-- The graph of a copy whose mailbox event has reached the tile: the copy's entries of the scoreboard are free (R195). -/
def Graph.mailed (g : Graph) (aid uid : Nat) : Graph :=
  { g.setActor aid ((g.actor aid).mailed uid) with sb := g.sb.filter (fun e => e.uid ≠ uid) }

theorem Graph.actor_mailed (g : Graph) (aid uid : Nat) : (g.mailed aid uid).actor aid = (g.actor aid).mailed uid := Tab.get_set_self ..

theorem execMailboxEvent_next {s : State} {j aid : Nat} {x : W64} {k : Completion} (hk : (s.graph j).mailbox x = some (aid, k))
    (hm : s.midMove (s.actor j aid).tile = false) :
    exec (.mailboxEvent j x) s = .next (s.setGraph j ((s.graph j).mailed aid k.uid)) := by
  have hm' : ¬ s.midMove ((s.graph j).actor aid).tile = true := by rw [← State.actor, hm]; decide
  show execMailboxEvent j x s = _
  simp only [execMailboxEvent, hk]
  exact if_neg hm'

end Sys2Proof.Machine
end

section
/-! The events of the Silt engines between copies (R198 to R203). -/

namespace Sys2Proof.Machine

/-- Settles O56: each event is enabled as stated, and its state is the one that its equation gives. -/
theorem siltEvents : Obligations.SiltEvents := by
  refine ⟨fun s p k t hc hp hk ht hr => ?_, fun s p n j t c x rest hl ha hb hp hq hr hc hx => ?_, fun s l p q v hl hh hp hq => ?_,
    fun s j x aid k hk hm => ?_⟩
  · have he := s.startCopy_eng p k t (((s.port p).eng.kicks ++ (s.port p).eng.late).erase k)
    obtain ⟨h1, h2, h3⟩ := Regs.opening_vals (s.keptRegs (s.port p).eng.regs).1 k
    refine ⟨_, _, execSiltCopyStart_next hc hp hk ht hr, congrArg Engine.copy he, rfl, rfl, rfl, rfl, rfl, rfl, ?_⟩
    rw [he]
    exact ⟨rfl, h1, h2, h3, rfl, List.take_append_drop .., Engine.queued_late (e := (s.port p).eng) _,
      fun i n1 n2 n3 hi => (Regs.opening_s _ k n1 n2 n3).trans (s.keptRegs_s _ hi),
      fun i hi => (congrArg (Tab.get {} · i) (Regs.opening_v _ k)).trans (s.keptRegs_v _ hi),
      Regs.opening_p _ k, s.startCopy_mem .., s.startCopy_graphs ..⟩
  · have hkick {u d} := execBoundKick_kick (u := u) (dross := d) hl ha hb hp hq hr hc hx
    have htmpl : ((s.headTaken j c).graph j).template? p n = _ := State.headTaken_template?
    have taken := State.headTaken_withCompletion hx t.aid
    refine ⟨fun h => ⟨_, execBoundKick_null hl ha hb hp hq hr hc hx h, State.headTaken_buf hx, rfl⟩, fun h hd => ?_,
      fun h hd hbad ht hs hdst h0 hlate hroom => ?_, fun h hd hbad ht h0 => ?_⟩
    · obtain ⟨handler, hk⟩ := State.kick_dross (s := s.headTaken j c) (j := j) (aid := t.aid) (p := p) (n := n) (kr := x.data)
      obtain ⟨hbuf, -, hcomps⟩ := taken _
      exact ⟨_, _, hkick h hd hk, hbuf, hcomps, rfl, rfl, rfl, rfl⟩
    · have hk := State.kick_queued (aid := t.aid) (htmpl.trans ht) hbad h0 hs hdst
      refine ⟨_, { job := j, aid := t.aid, kr := x.data, tmpl := n, uid := s.nextId }, hkick h hd hk, (taken _).1, ?_,
        rfl, rfl, rfl, rfl, rfl⟩
      rw [State.setEngine, State.port_setPort_self]
      exact congrArg Engine.kicks (Engine.push_of_room hroom hlate _)
    · have hk := State.kick_empty (aid := t.aid) (htmpl.trans ht) hbad h0
      obtain ⟨hbuf, hports, hcomps⟩ := taken _
      exact ⟨_, _, hkick h hd hk, hbuf, hports, hcomps, rfl, rfl, rfl⟩
  · exact ⟨execKickRegisterWrite_push hl hh hp hq v, execKickRegisterWrite_world hl hh hp hq v⟩
  · refine ⟨_, execMailboxEvent_next hk hm, ?_⟩
    rw [State.actor, State.graph_setGraph_self, Graph.actor_mailed]
    exact ⟨rfl, Actor.mailed_done _ _, Actor.mailed_cxids _ _, rfl⟩

end Sys2Proof.Machine
end

section
/-! Tables, and the bytes of a tile memory, after a write (R297, R352). -/

namespace Sys2Proof

theorem Tab.find_insert_ne {α : Type} {i k : Nat} (v : α) (h : k ≠ i) (t : Tab α) : Tab.find (Tab.insert i v t) k = Tab.find t k := by
  induction t with
  | nil => exact if_neg (Ne.symm h)
  | cons e t ih =>
    unfold Tab.insert
    split
    · exact if_neg (Ne.symm h)
    · exact congrArg (ite (e.1 = k) (some e.2)) ih

theorem Tab.find_erase_ne {α : Type} {i k : Nat} (h : k ≠ i) (t : Tab α) : Tab.find (Tab.erase t i) k = Tab.find t k := by
  induction t with
  | nil => rfl
  | cons e t ih =>
    by_cases he : e.1 = i
    · refine (congrArg (Tab.find · k) (List.filter_cons_of_neg (not_not.mpr he ∘ of_decide_eq_true))).trans (ih.trans ?_)
      exact (if_neg (he ▸ Ne.symm h)).symm
    · refine (congrArg (Tab.find · k) (List.filter_cons_of_pos (decide_eq_true he))).trans ?_
      exact congrArg (ite (e.1 = k) (some e.2)) ih

theorem Tab.find_set_ne {α : Type} (t : Tab α) {i k : Nat} (v : α) (h : k ≠ i) : Tab.find (Tab.set t i v) k = Tab.find t k :=
  (Tab.find_insert_ne v h _).trans (Tab.find_erase_ne h t)

namespace Machine

theorem Memory.setBytes_append (cs bs : List Byte) (m : Memory) (a : Nat) :
    m.setBytes a (bs ++ cs) = (m.setBytes a bs).setBytes (a + bs.length) cs := by
  induction bs generalizing m a with
  | nil => rfl
  | cons b t ih => exact (ih ..).trans (congrArg (Memory.setBytes _ · cs) (Nat.succ_add_eq_add_succ a t.length))

/-- Dross marks a granule and leaves its bytes, so a piece's bytes are those that are set. -/
theorem Memory.byte_storePiece (m : Memory) (a : Nat) (bs : Bytes) : (m.storePiece a bs).byte = (m.setBytes a (bs.map (·.1))).byte := by
  unfold Memory.storePiece
  extract_lets m'
  split
  · rfl
  · split <;> rfl

/-- A store that goes on behind its first piece. -/
theorem Memory.byte_storePiece_setBytes (m : Memory) (a z : Nat) {bs : Bytes} {l : Nat} (hl : l ≤ bs.length) :
    ((m.storePiece a (bs.take l)).setBytes (a + l) ((bs.drop l).map (·.1))).byte z = (m.setBytes a (bs.map (·.1))).byte z := by
  have hcat : bs.map (·.1) = (bs.take l).map (·.1) ++ (bs.drop l).map (·.1) :=
    (congrArg _ (List.take_append_drop l bs).symm).trans List.map_append
  have hlen : ((bs.take l).map (·.1)).length = l := (List.length_map _).trans (List.length_take_of_le hl)
  rw [hcat, Memory.setBytes_append, hlen, Memory.byte_setBytes, Memory.byte_storePiece, ← Memory.byte_setBytes]

/-- The bytes after a walk over the pieces of a store that has come to address `p`. -/
theorem Memory.byte_foldl_storePiece {a p n : Nat} {bs : Bytes} {z : Nat} (k : Nat) (m : Memory) (ha : a ≤ p) (hk : n ≤ k) :
    bs.length - (p - a) = n → ((pieces k p n).foldl (fun m p => m.storePiece p.1 ((bs.drop (p.1 - a)).take p.2)) m).byte z =
      (m.setBytes p ((bs.drop (p - a)).map (·.1))).byte z := by
  induction k generalizing p n m with
  | zero =>
    rintro rfl
    rw [List.drop_eq_nil_of_le (Nat.le_of_sub_eq_zero (Nat.le_zero.mp hk))]
    rfl
  | succ k ih =>
    intro hn
    unfold pieces
    split
    next h =>
      rw [List.drop_eq_nil_of_le (Nat.le_of_sub_eq_zero (hn.trans h))]
      rfl
    next h =>
      extract_lets l
      have hpos : 0 < l := Nat.lt_min.mpr ⟨Nat.pos_of_ne_zero h, Nat.sub_pos_of_lt (Nat.mod_lt _ (by decide))⟩
      have hle : l ≤ n := Nat.min_le_left ..
      clear_value l
      have hp : p + l - a = p - a + l := Nat.sub_add_comm ha
      have hd : bs.drop (p + l - a) = (bs.drop (p - a)).drop l := hp ▸ List.drop_drop.symm
      refine (ih (m.storePiece p _) (Nat.le_add_right_of_le ha) (Nat.sub_le_of_le_add (hk.trans (Nat.add_le_add_left hpos k)))
        (by rw [hp, Nat.sub_add_eq, hn])).trans ?_
      rw [hd]
      exact m.byte_storePiece_setBytes p z (hle.trans_eq (hn.symm.trans List.length_drop.symm))

theorem Memory.byte_store_clean (m : Memory) (a : Nat) {bs : List Byte} {i : Nat} {b : Byte} (h : bs[i]? = some b) :
    (m.store a (clean bs)).byte (a + i) = b := by
  obtain ⟨hi, rfl⟩ := List.getElem?_eq_some_iff.mp h
  have hbs : (clean bs).map (·.1) = bs := (List.map_map ..).trans (List.map_id' bs)
  refine (Memory.byte_foldl_storePiece _ m (Nat.le_refl a) (Nat.le_refl _) (congrArg _ (Nat.sub_self a))).trans ?_
  rw [Nat.sub_self, List.drop_zero, hbs, Memory.byte_setBytes, if_pos ⟨Nat.le_add_right .., Nat.add_lt_add_left hi a⟩,
    Nat.add_sub_cancel_left, List.getD_eq_getElem?_getD, h, Option.getD_some]

end Machine

end Sys2Proof
end

section
/-! Deliveries to a fault actor (R286 to R289). The definitions serve the proofs and are not compiled. -/

namespace Sys2Proof.Machine

theorem Graph.actor_setActor_ne (g : Graph) {n k : Nat} (a : Actor) (h : k ≠ n) : (g.setActor n a).actor k = g.actor k :=
  Tab.get_set_ne _ _ _ h

/-- The graph with the trapping actor of a cause suspended, if the cause suspends (R286). -/
noncomputable def Graph.trapped (g : Graph) (c : Cause) : Graph :=
  if c.suspends then g.setActor c.aid { g.actor c.aid with suspended := true } else g

theorem Graph.trapped_suspended (g : Graph) {c : Cause} (h : c.suspends = true) : ((g.trapped c).actor c.aid).suspended = true := by
  have ht : g.trapped c = _ := if_pos h
  exact (congrArg (fun g => (Graph.actor g c.aid).suspended) ht).trans (congrArg Actor.suspended (Tab.get_set_self ..))

theorem Graph.trapped_actor_ne (g : Graph) {c : Cause} {k : Nat} (h : c.aid ≠ k) : (g.trapped c).actor k = g.actor k := by
  unfold Graph.trapped
  split
  · exact g.actor_setActor_ne _ (Ne.symm h)
  · rfl

/-- The graph with a cause among the deliveries of its fault actor (R287). -/
noncomputable def Graph.delivered (g : Graph) (fa : Nat) (c : Cause) : Graph :=
  (g.trapped c).setActor fa { (g.trapped c).actor fa with deliveries := ((g.trapped c).actor fa).deliveries ++ [c] }

/-- Whether a graph's fault actor takes deliveries and no quench has saved its node (R287, R288). -/
def Graph.Listens (g : Graph) (fa : FaultActor) : Prop :=
  g.fault = some fa ∧ (g.actor fa.aid).ended = false ∧ ∀ q, g.quench = some q → fa.aid ∉ q.saved

theorem Graph.takes_of_fault {g : Graph} {fa : FaultActor} (hf : g.fault = some fa) (he : (g.actor fa.aid).ended = false) :
    g.takes = some fa := (congrArg (Option.filter _) hf).trans (if_pos (congrArg not he))

section
variable {s : State} {j : Nat} (hg : s.hasGraph j = true) {fa : FaultActor} (c : Cause)
include hg

/-- What a graph does with a cause, by the fault actor that takes deliveries (R286 to R288). -/
theorem State.takeCause_of_takes {o : Option FaultActor} : (s.graph j).takes = o → s.takeCause j c = match o with
    | none => s.abortGraph j stFault c
    | some fa =>
      if (s.graph j).quench.any (·.saved.contains fa.aid) then s
      else if 16 ≤ ((s.graph j).actor fa.aid).deliveries.length then s.abortGraph j stFault { code := 101, tval := BitVec.ofNat 64 fa.aid }
      else s.setGraph j ((s.graph j).delivered fa.aid c) :=
  fun ho => ho ▸ if_neg (ne_true_of_eq_false (congrArg not hg))

/-- Unless a quench has saved its node a cause joins the deliveries, and a seventeenth aborts the graph (R287). -/
theorem State.takeCause_listens (hl : (s.graph j).Listens fa) : s.takeCause j c =
    if 16 ≤ ((s.graph j).actor fa.aid).deliveries.length then s.abortGraph j stFault { code := 101, tval := BitVec.ofNat 64 fa.aid }
    else s.setGraph j ((s.graph j).delivered fa.aid c) := by
  obtain ⟨hf, he, hq⟩ := hl
  refine (State.takeCause_of_takes hg c (Graph.takes_of_fault hf he)).trans (if_neg fun h => ?_)
  obtain ⟨q, h1, h2⟩ := (Option.any_eq_true ..).mp h
  exact hq q h1 (List.contains_iff_mem.mp h2)

end

/-- A delivery that the fault actor takes joins its queue and suspends the trapped actor (R286, R287). -/
theorem State.delivered_joins {s u : State} {j fa : Nat} {c : Cause} (hu : u = s.setGraph j ((s.graph j).delivered fa c))
    (ha : c.aid ≠ fa) : (u.actor j fa).deliveries = ((s.graph j).actor fa).deliveries ++ [c] ∧
      (c.suspends = true → (u.actor j c.aid).suspended = true) ∧ u.mem = s.mem := by
  have hg : u.graph j = (s.graph j).delivered fa c := hu ▸ State.graph_setGraph_self ..
  have hfa := (congrArg (Graph.actor · fa) hg).trans (Tab.get_set_self ..)
  have hc := (congrArg (Graph.actor · c.aid) hg).trans (Graph.actor_setActor_ne _ _ ha)
  exact ⟨(congrArg Actor.deliveries hfa).trans (congrArg (Actor.deliveries · ++ [c]) (Graph.trapped_actor_ne _ ha)),
    fun h => (congrArg Actor.suspended hc).trans (Graph.trapped_suspended _ h), hu ▸ rfl⟩

/-- Before a fault firing the record stands in the trap area (R286, R289). -/
theorem State.startFault_area (s : State) (t j : Nat) (fa : FaultActor) (c : Cause) {i : Nat} {b : Byte}
    (h : (s.trapRecord j c)[i]? = some b) : ((s.startFault t j fa c).actor j fa.aid).hram.byte (fa.area + i) = b :=
  (congrArg (fun a : Actor => a.hram.byte (fa.area + i)) (State.actor_setActor_self ..)).trans (Memory.byte_store_clean _ _ h)

/-- The end of a fault firing takes its delivery off the queue and releases the trapped actor (R287). -/
theorem State.settle_released (s : State) (j aid : Nat) {c : Cause} (hs : c.suspends = true) (ha : c.aid ≠ aid) :
    ((s.settle j aid c).actor j c.aid).suspended = false ∧
      ((s.settle j aid c).actor j aid).deliveries = (s.actor j aid).deliveries.erase c := by
  have hu : s.settle j aid c = _ := if_pos hs
  rw [hu]
  refine ⟨congrArg Actor.suspended (State.actor_setActor_self ..), ?_⟩
  rw [State.actor, State.setActor, State.graph_setGraph_self, Graph.actor_setActor_ne _ _ (Ne.symm ha)]
  exact congrArg Actor.deliveries (State.actor_setActor_self ..)

theorem deliveries : Claims.Deliveries := by
  refine ⟨?_, ?_, ?_⟩
  · intro s j c hg g listens
    refine ⟨fun _ hl hd ha => State.delivered_joins ((State.takeCause_listens hg c hl).trans (if_neg (Nat.not_le.mpr hd))) ha,
      fun hf => State.takeCause_abort hg hf c, fun _ hl hd => (State.takeCause_listens hg c hl).trans (if_pos hd), fun _ _ hf he hq hs => ?_⟩
    exact (State.takeCause_of_takes hg c (Graph.takes_of_fault hf he)).trans (if_pos (hq ▸ List.contains_iff_mem.mpr hs))
  · intro s t j fa c u
    exact ⟨_, State.firing_setFiring .., rfl, rfl, rfl, rfl,
      fun _ => ⟨congrArg SReg.val (ite_self _), congrArg SReg.dross (ite_self _)⟩, fun _ => ⟨rfl, rfl⟩, rfl,
      fun _ _ => s.startFault_area t j fa c⟩
  · exact fun s j aid _ hs ha => s.settle_released j aid hs ha

end Sys2Proof.Machine
end

section
/-! Records for the host fault queues (R289 to R291). The definitions serve the proofs and are not compiled. -/

namespace Sys2Proof.Machine

/-- The slot of the ring that FQTAIL names (R291). -/
noncomputable def FaultQueue.slot (q : FaultQueue) : Nat := 4096 * fld q.base 54 12 + 32 * (q.tail.toNat % q.size)

/-- The bytes of a record as the ring takes it, with PHASE of the pass (R289, R290). -/
noncomputable def FaultQueue.entry (q : FaultQueue) (r : Rec) : Bytes := clean (r.bytes (decide (q.tail.toNat / q.size % 2 = 0)))

/-- A state that has sent what `os` lists. -/
noncomputable def State.emits (s : State) (os : List Out) : State := { s with out := s.out ++ os }

theorem State.emits_nil (s : State) : s.emits [] = s := congrArg (fun o => { s with out := o }) (List.append_nil _)

theorem State.emit_setFaultQ (s : State) (sec : Bool) (q : FaultQueue) (o : Out) :
    (s.setFaultQ sec q).emit o = (s.emits [o]).setFaultQ sec q := by cases sec <;> rfl

/-- A record written takes FQTAIL on and sends its interrupt (R290). -/
theorem State.recordIn_eq (s : State) (sec : Bool) (r : Rec) : s.recordIn sec r =
    (s.emits (if (s.faultQ sec).irqEn = true ∨ (194 ≤ r.cause ∧ r.cause ≤ 197) then [.msix 0 0 (s.faultQ sec).vec] else [])).setFaultQ sec
      { s.faultQ sec with tail := (s.faultQ sec).tail + 1 } :=
  (if_congr (Bool.or_eq_true_iff.trans (or_congr_right decide_eq_true_iff)) (State.emit_setFaultQ ..)
    (congrArg (State.setFaultQ · sec _) s.emits_nil.symm)).trans (apply_ite (fun o => (s.emits o).setFaultQ sec _) ..).symm

section
variable {s : State} {sec : Bool} (hw : (s.faultQ sec).wait = []) (r : Rec)
include hw

/-- What becomes of a record, by whether the ring takes it, where its slot leads and what its write there does (R290). -/
theorem State.pushRecord_of {shut : Bool} {x : Target} {bs : Bytes} {o : Option State} :
    (!(s.faultQ sec).en || (s.faultQ sec).full) = shut → s.target (s.faultQ sec).slot = x → (s.faultQ sec).entry r = bs →
    s.ownWrite none (s.faultQ sec).slot bs = o → s.pushRecord sec r = if shut then s.loseRecord sec else match x with
      | .peer p a =>
        if (s.peer p).st ≠ .active then s.loseRecord sec
        else (s.ownAsk none p a (.store bs) false).2.setFaultQ sec
          { (s.ownAsk none p a (.store bs) false).2.faultQ sec with wait := [r], posted := some s.nextId }
      | _ => match o with
        | none => s.loseRecord sec
        | some u => u.recordIn sec r := by
  rintro rfl rfl rfl rfl
  exact if_neg (not_not.mpr hw)

end

/-- What a write of the part's own does, by where its address leads (R206). -/
theorem State.ownWrite_of_target {s : State} {pa : Nat} {bs : Bytes} {x : Target} :
    s.target pa = x → s.ownWrite none pa bs = match x with
      | .loc a => match s.inExpander a with
        | some (_, _, true) => none
        | _ => some { s with mem := s.mem.write a bs }
      | .host n a => some (s.emit (.hostWrite n a bs))
      | .peer q a => some (s.ownSend none q a (.store bs))
      | .reg _ => none
      | .none _ => none :=
  fun h => h ▸ rfl

theorem State.ownWrite_loc {s : State} {pa a : Nat} {bs : Bytes} (h : s.target pa = .loc a) (hx : s.inExpander a = none) :
    s.ownWrite none pa bs = some { s with mem := s.mem.write a bs } :=
  (State.ownWrite_of_target h).trans (by simp only [hx])

/-- A record in the window of an active peer is in the ring only once its write is performed, and others wait for it (R290). -/
theorem State.posted_waits {s u : State} {sec : Bool} {r : Rec} {p a : Nat} {bs : Bytes}
    (hu : u = (s.ownAsk none p a (.store bs) false).2.setFaultQ sec
          { (s.ownAsk none p a (.store bs) false).2.faultQ sec with wait := [r], posted := some s.nextId }) :
    (u.faultQ sec).wait = [r] ∧ (u.faultQ sec).tail = (s.faultQ sec).tail ∧ u.out = s.out ∧ u.mem = s.mem ∧
      ∃ x, u.inflight = s.inflight ++ [x] ∧ x.tgt = .peer p a ∧ x.kind = .store bs := by
  subst hu
  cases sec <;> exact ⟨rfl, rfl, rfl, rfl, _, rfl, rfl, rfl⟩

theorem Rec.bytes_eq (r : Rec) (phase : Bool) {n : Nat} : (if phase then 1 else 0) = n → r.bytes phase =
    leBytes 8 (inFld n 63 63 + inFld (if r.abort then 1 else 0) 62 62 +
      inFld (if r.wr then 1 else 0) 61 61 + inFld (if r.ticket.isSome then 1 else 0) 60 60 + inFld r.queue 59 48 + inFld r.aid 47 32 +
      inFld r.tpc 31 16 + inFld r.cause 8 0) ++ leBytes 8 r.tval.toNat ++ leBytes 8 r.jobTag.toNat ++
      leBytes 8 (inFld r.pasid 63 44 + inFld (r.ticket.getD 0) 41 32 + inFld r.index 31 0) :=
  fun h => h ▸ rfl

theorem faultRecords : Claims.FaultRecords := by
  intro s sec r q size pa w0 bs lost irq hw
  have hbs : q.entry r = bs := congrArg clean (r.bytes_eq _ (if_congr decide_eq_true_iff rfl rfl))
  refine ⟨fun h => State.pushRecord_of hw r (Bool.or_eq_true_iff.mpr (h.imp (congrArg not) decide_eq_true)) rfl rfl rfl, fun he hn => ?_⟩
  have hroom := Bool.or_eq_false_iff.mpr ⟨congrArg not he, decide_eq_false hn⟩
  have room {x o} h := State.pushRecord_of (x := x) (o := o) hw r hroom h hbs
  exact ⟨fun a h hx => (room h (State.ownWrite_loc h hx)).trans (State.recordIn_eq ..),
    fun l a h => (room h (State.ownWrite_of_target h)).trans (State.recordIn_eq ..),
    fun a h => h.elim (fun h => room h (State.ownWrite_of_target h)) (fun h => room h (State.ownWrite_of_target h)),
    fun p a h hp => (room h rfl).trans (if_pos hp), fun p a h hp => State.posted_waits ((room h rfl).trans (if_neg (not_not.mpr hp)))⟩

end Sys2Proof.Machine
end

section
/-! The error banks of a block (R297, R300). The definitions serve the proofs and are not compiled. -/

namespace Sys2Proof.Machine

/-- Whether an entry of the banks holds the like of a record (R297). -/
noncomputable def Bank.like (r : Bank) (e : Nat × Bank) : Bool := decide (e.2.rank = r.rank ∧ e.2.unit = r.unit ∧ e.2.addr = r.addr)

/-- The oldest bank of strictly lower rank than a record (R297). -/
noncomputable def Block.oldestBelow (b : Block) (r : Bank) : Option (Nat × Bank) :=
  (b.banks.filter (fun e => e.2.rank < r.rank)).argmin (·.2.stamp)

/-- A block of which a record has set bank `k` (R297). -/
noncomputable def Block.placed (b : Block) (k : Nat) (x : Bank) : Block := { b with stamp := b.stamp + 1, banks := Tab.set b.banks k x }

/-- A block that has dropped a record (R297). -/
noncomputable def Block.dropped (b : Block) : Block := { b with stamp := b.stamp + 1, ovf := satAdd 0xFFFF b.ovf 1 }

/-- The step with which the oldest bank is sought. -/
theorem foldl_older (l : List (Nat × Bank)) : l.foldl (fun (a : Option (Nat × Bank)) e => match a with
      | some x => if e.2.stamp < x.2.stamp then some e else some x
      | none => some e) none = l.argmin (·.2.stamp) :=
  congrArg (List.foldl · none l) (funext fun a => funext fun e => by cases a <;> rfl)

/-- A block that a record has come to, by the bank of its like, the lowest free bank and the oldest of lower rank (R297). -/
noncomputable def Block.recorded (b : Block) (r : Bank) (like : Option (Nat × Bank)) (free : Option Nat) (old : Option (Nat × Bank)) : Block :=
  match like with
  | some e => b.placed e.1 { e.2 with count := satAdd 0xFFFF e.2.count 1, assay := if r.assay = 0 then e.2.assay else r.assay }
  | none => match free with
    | some i => b.placed i { r with stamp := b.stamp }
    | none => match old with
      | some e => b.placed e.1 { r with stamp := b.stamp }
      | none => b.dropped

theorem Bank.like_eq (r : Bank) :
    r.like = fun e => decide (e.2.rank = r.rank) && decide (e.2.unit = r.unit) && decide (e.2.addr = r.addr) :=
  funext fun _ => (Bool.decide_and ..).trans ((congrArg _ (Bool.decide_and ..)).trans (Bool.and_assoc ..).symm)

theorem Block.addBank_eq (b : Block) (r : Bank) : b.addBank r =
    b.recorded r (b.banks.find? r.like) ((List.range 4).find? fun i => (Tab.find b.banks i).isNone) (b.oldestBelow r) := by
  rw [Bank.like_eq, Block.oldestBelow, ← foldl_older]
  rfl

theorem Block.addBank_of {b : Block} {r : Bank} {like : Option (Nat × Bank)} {free : Option Nat} {old : Option (Nat × Bank)}
    (h1 : b.banks.find? r.like = like) (h2 : ((List.range 4).find? fun i => (Tab.find b.banks i).isNone) = free)
    (h3 : b.oldestBelow r = old) : b.addBank r = b.recorded r like free old :=
  h1 ▸ h2 ▸ h3 ▸ b.addBank_eq r

/-- A record advances the stamp of a block, and asks for no assay by itself. -/
theorem Block.recorded_stamp_assaying (b : Block) (r : Bank) (like : Option (Nat × Bank)) (free : Option Nat) (old : Option (Nat × Bank)) :
    (b.recorded r like free old).stamp = b.stamp + 1 ∧ (b.recorded r like free old).assaying = b.assaying := by
  cases like with
  | some _ => exact ⟨rfl, rfl⟩
  | none =>
    cases free with
    | some _ => exact ⟨rfl, rfl⟩
    | none => cases old <;> exact ⟨rfl, rfl⟩

theorem Block.addBank_stamp_assaying (b : Block) (r : Bank) :
    (b.addBank r).stamp = b.stamp + 1 ∧ (b.addBank r).assaying = b.assaying :=
  b.addBank_eq r ▸ b.recorded_stamp_assaying ..

/-- A bank that is set is found, and the others stand. -/
theorem Block.find_placed {u b : Block} {k : Nat} {x : Bank} (h : u = b.placed k x) :
    Tab.find u.banks k = some x ∧ u.ovf = b.ovf ∧ ∀ i ≠ k, Tab.find u.banks i = Tab.find b.banks i :=
  h ▸ ⟨Tab.find_set_self .., rfl, fun _ hi => Tab.find_set_ne _ _ hi⟩

theorem Block.lowest_free {b : Block} {i : Nat} (hi : i < 4) (hf : Tab.find b.banks i = none) (hl : ∀ j < i, Tab.find b.banks j ≠ none) :
    ((List.range 4).find? fun i => (Tab.find b.banks i).isNone) = some i :=
  List.find?_range_eq_some.mpr ⟨Option.isNone_iff_eq_none.mpr hf, List.mem_range.mpr hi, fun j hj =>
    congrArg not (Bool.eq_false_iff.mpr fun h => hl j hj (Option.isNone_iff_eq_none.mp h))⟩

theorem Block.none_free {b : Block} (hu : ∀ i < 4, Tab.find b.banks i ≠ none) :
    ((List.range 4).find? fun i => (Tab.find b.banks i).isNone) = none :=
  List.find?_eq_none.mpr fun i hi h => hu i (List.mem_range.mp hi) (Option.isNone_iff_eq_none.mp h)

theorem Block.oldestBelow_eq_none {b : Block} {r : Bank} (h : ∀ e ∈ b.banks, r.rank ≤ e.2.rank) : b.oldestBelow r = none :=
  List.argmin_eq_none.mpr (List.filter_eq_nil_iff.mpr fun e he hr => Nat.not_lt.mpr (h e he) (of_decide_eq_true hr))

/-- A bank of lower rank that is older than every other of lower rank is the oldest. -/
theorem Block.oldestBelow_eq_some {b : Block} {r : Bank} {m : Nat × Bank} (hm : m ∈ b.banks) (hr : m.2.rank < r.rank)
    (ho : ∀ e ∈ b.banks, e.2.rank < r.rank → e = m ∨ m.2.stamp < e.2.stamp) : b.oldestBelow r = some m := by
  have hin : m ∈ b.banks.filter (fun e => e.2.rank < r.rank) := List.mem_filter.mpr ⟨hm, decide_eq_true hr⟩
  unfold Block.oldestBelow
  cases h : (b.banks.filter (fun e => e.2.rank < r.rank)).argmin (·.2.stamp) with
  | none => exact absurd (List.argmin_eq_none.mp h ▸ hin) List.not_mem_nil
  | some e =>
    obtain ⟨he, hre⟩ := List.mem_filter.mp (List.argmin_mem h)
    exact congrArg some ((ho e he (of_decide_eq_true hre)).resolve_right
      (Nat.not_lt.mpr (List.le_of_mem_argmin (f := fun e : Nat × Bank => e.2.stamp) hin h)))

/-- A block that has counted a record of a rank, if it is a corrected one (R300). -/
noncomputable def Block.tallied (b : Block) (rank : Nat) : Block :=
  if rank = 1 then { b with corr := satAdd 0xFFFF b.corr 1, corrected := b.corrected + 1 } else b

/-- An uncorrected record asks for an assay, and each 256th corrected one (R300). -/
theorem Block.asks_iff (b : Block) (rank : Nat) : (rank = 3 || (rank = 1 && (b.tallied rank).corrected % 256 = 0)) = true ↔
    rank = 3 ∨ (rank = 1 ∧ (b.corrected + 1) % 256 = 0) :=
  Bool.or_eq_true_iff.trans (or_congr decide_eq_true_iff (Bool.and_eq_true_iff.trans
    ((and_congr decide_eq_true_iff decide_eq_true_iff).trans (and_congr_right fun h => by rw [h]; rfl))))

theorem Block.assayed_if {u b : Block} {asks : Bool} (hu : u = if asks then { b with assaying := true } else b) :
    u.assaying = (if asks then true else b.assaying) ∧ u.corr = b.corr :=
  ⟨(congrArg Block.assaying hu).trans (apply_ite ..), (congrArg Block.corr hu).trans ((apply_ite ..).trans (ite_self _))⟩

theorem State.addRecord_spec (s : State) (blk rank unit cause aid : Nat) (addr synd : W64) :
    let u := s.addRecord blk rank unit cause aid addr synd
    (rank = 3 ∨ (rank = 1 ∧ ((s.block blk).corrected + 1) % 256 = 0) → (u.block blk).assaying = true) ∧
    (¬ (rank = 3 ∨ (rank = 1 ∧ ((s.block blk).corrected + 1) % 256 = 0)) → (u.block blk).assaying = (s.block blk).assaying) ∧
    ((u.block blk).corr = if rank = 1 then min 0xFFFF ((s.block blk).corr + 1) else (s.block blk).corr) ∧
    u.mem = s.mem ∧ u.graphs = s.graphs := by
  obtain ⟨ha, hc⟩ := Block.assayed_if (State.block_setBlock_self s blk _)
  have hi := (s.block blk).asks_iff rank
  exact ⟨fun h => ha.trans (if_pos (hi.mpr h)),
    fun h => (ha.trans (if_neg (h ∘ hi.mp))).trans ((Block.addBank_stamp_assaying ..).2.trans
      ((apply_ite Block.assaying ..).trans (ite_self _))),
    hc.trans ((Block.addBank_corr ..).trans (apply_ite Block.corr ..)), rfl, rfl⟩

theorem bankRecords : Claims.BankRecords := by
  refine ⟨fun b r => ⟨(b.addBank_stamp_assaying r).1, fun k x h => ?_, fun h =>
    ⟨fun i hi hf hl => Block.find_placed (Block.addBank_of h (Block.lowest_free hi hf hl) rfl), fun hu =>
      ⟨fun k x hx hr ho => Block.find_placed (Block.addBank_of h (Block.none_free hu) (Block.oldestBelow_eq_some hx hr ho)), fun hr => ?_⟩⟩⟩,
      State.addRecord_spec⟩
  · obtain ⟨hk, hrest⟩ := Block.find_placed (Block.addBank_of (r := r) h rfl rfl)
    exact ⟨⟨_, hk, rfl, rfl, rfl, rfl, rfl, rfl⟩, hrest⟩
  · have hd : b.addBank r = b.dropped := Block.addBank_of h (Block.none_free hu) (Block.oldestBelow_eq_none hr)
    rw [hd]
    exact ⟨rfl, rfl⟩

/-- Settles O41: causes at a boundary and fault firings, records in the host fault queues, and records in the error banks. -/
theorem trapDelivery : Obligations.TrapDelivery := ⟨deliveries, faultRecords, bankRecords⟩

end Sys2Proof.Machine
end
